-- ==== Sys2Proof/Word.lean ====
section
/-! DEFINITION. The machine's words and their plainest arithmetic: bytes, 32-bit register words, named register fields,
and bit fields of numbers. -/

namespace Sys2Proof.Machine

/-- A byte of memory (R11). -/
abbrev Byte := BitVec 8

/-- A register word (R15). -/
abbrev Word := BitVec 32

/-- A named field of a register: the BAR0 byte offset of its word, its bits, and whether it runs on into the next word
(a field of a 64-bit register that crosses bit 32, R16). -/
structure Fld where
  off : Nat
  hi : Nat
  lo : Nat
  wide : Bool := false
  deriving DecidableEq, Repr

/-- Bits hi:lo of a number (R10). -/
def bits (w hi lo : Nat) : Nat := (w >>> lo) % 2 ^ (hi + 1 - lo)

/-- The number w with its bits hi:lo replaced by v. -/
def setBits (w hi lo v : Nat) : Nat :=
  w - (bits w hi lo) <<< lo + (v % 2 ^ (hi + 1 - lo)) <<< lo

/-- Bit n of a number. -/
def bit (w n : Nat) : Bool := w.testBit n

/-- The signed value of the low n bits of a number (two's complement). -/
def toSigned (n w : Nat) : Int :=
  if w % 2 ^ n < 2 ^ (n - 1) then (w % 2 ^ n : Nat) else (w % 2 ^ n : Nat) - (2 ^ n : Nat)

/-- The low n bits of an integer in two's complement. -/
def ofSigned (n : Nat) (v : Int) : Nat := (v % (2 ^ n : Nat)).toNat

/-- A Bool as a bit. -/
def b2n (b : Bool) : Nat := if b then 1 else 0

end Sys2Proof.Machine
end

