-- ==== Sys2Proof/Machine/Maps.lean ====
section
/-! DEFINITION. Sparse maps in one canonical form: a list of (key, value) pairs with keys strictly rising and no value
equal to what an unlisted key reads as.  `mget`, `mset` and `mwf` are the whole interface; the default is a function of
the key.  Memory, the register file and every numbered resource of the block are held this way, so that equal contents
are equal data. -/

namespace Sys2Proof.Machine

/-- A sparse map from numbers. -/
abbrev SMap (α : Type) := List (Nat × α)

/-- The value at a key; `d k` where the key is not listed. -/
def mget {α : Type} (d : Nat → α) (m : SMap α) (k : Nat) : α :=
  match m with
  | [] => d k
  | (a, v) :: t => if a = k then v else mget d t k

/-- Put a pair into its place by key, replacing a pair of that key. -/
def mput {α : Type} (m : SMap α) (k : Nat) (v : α) : SMap α :=
  match m with
  | [] => [(k, v)]
  | (a, w) :: t => if k < a then (k, v) :: (a, w) :: t
                   else if k = a then (k, v) :: t
                   else (a, w) :: mput t k v

/-- Take the pairs of a key out. -/
def mdel {α : Type} (m : SMap α) (k : Nat) : SMap α := m.filter fun p => p.1 != k

/-- Write a key, keeping the canonical form. -/
def mset {α : Type} [DecidableEq α] (d : Nat → α) (m : SMap α) (k : Nat) (v : α) : SMap α :=
  if v = d k then mdel m k else mput m k v

/-- All keys of the list lie above a bound. -/
def mabove {α : Type} (lo : Nat) (m : SMap α) : Bool :=
  m.all fun p => decide (lo < p.1)

/-- The canonical form: keys strictly rising, no value equal to the default. -/
def mwf {α : Type} [DecidableEq α] (d : Nat → α) (m : SMap α) : Bool :=
  match m with
  | [] => true
  | (a, v) :: t => decide (v ≠ d a) && mabove a t && mwf d t

/-- Drop every pair whose key satisfies a test (the keys then read as their defaults). -/
def mdrop {α : Type} (m : SMap α) (p : Nat → Bool) : SMap α :=
  m.filter fun q => !p q.1

end Sys2Proof.Machine
end

