-- ==== Sys2Proof/Machine/Payload.lean ====
section
/-! DEFINITION. The plain data that commands carry and that queues of the block hold: mesh messages, transfer pieces,
plan binaries and certificates, and what arrives on the pins and links. -/

namespace Sys2Proof.Machine

/-- A byte on its way, with the poison mark of the granule it came from (R135, R171). -/
abbrev MByte := BitVec 8 × Bool

/-- Message classes (R131). -/
inductive MsgCls where
  | req | rsp | crd | saf
  deriving DecidableEq, Repr

/-- What a mesh message says (R131).  Local-side places are half-byte addresses of core memory, `none` where the
descriptor skips a padded element (R98). -/
inductive MsgBody where
  | memRead (addr len : Nat) (back : List (Option Nat))
  | memWrite (addr : Nat) (data : List MByte) (notify : Option (Nat × Nat))
  | atomic (addr : Nat) (swap w64 : Bool) (a b : Nat) (pois : Bool) (back : Nat)
  | remoteWrite (win off : Nat) (data : List MByte)
  | signal (cnt inc : Nat)
  | barArr (bid : Nat)
  | readData (back : List (Option Nat)) (data : List MByte)
  | ack
  | atomRes (back : Nat) (w64 : Bool) (old : Nat) (pois : Bool)
  | notif (cnt units : Nat)
  | barRel (bid : Nat)
  | credit (win units : Nat)
  | error (kind : Nat) (addr : Nat)
  | stop
  | gravity (epoch crc : Nat)
  | report (code : Nat) (payload : Nat)
  | frame (stream flags : Nat) (missing : Bool)
  deriving DecidableEq, Repr

/-- A message in flight on the mesh (R130 to R134): class, source and destination endpoints, the partition it is sent
for (R346), the requester's tag with its epoch bit, and the chip of its far side. -/
structure Msg where
  cls : MsgCls
  src : Nat
  dst : Nat
  part : Nat
  tag : Nat
  epoch : Bool
  chip : Nat
  body : MsgBody
  deriving DecidableEq, Repr

/-- Which transfer command (R105). -/
inductive XOp where
  | lcopy
  | rwrite (dst win : Nat)
  | tunrd (chip : Nat)
  | tunwr (chip : Nat) (notify : Option (Nat × Nat))
  | dramrd
  | dramwr
  | tatom (chip : Nat) (swap w64 : Bool) (addr : Nat)
  deriving DecidableEq, Repr

/-- One message's worth of a transfer: the far side's half-byte addresses and the local side's half-byte keys of core
memory (for an LCOPY both sides are keys), each with the half-byte a padded element yields (`none` for a padded one). -/
structure Piece where
  far : List (Option Nat × Nat)
  loc : List (Option Nat × Nat)
  deriving DecidableEq, Repr

/-- A transfer under way at a core's transfer port: the pieces not yet sent. -/
structure Xfer where
  core : Nat
  tag : Nat
  op : XOp
  pieces : List Piece
  deriving DecidableEq, Repr

/-- An open hardware loop: the word after its LOOP and the iterations still to run after this one (R108). -/
structure LoopFrame where
  start : Nat
  left : Nat
  deriving DecidableEq, Repr

/-- An address-generator slot (R97 to R100): its 64 B descriptor, the half-byte bit, the poison mark it was loaded with
and the core-memory offset it came from. -/
structure AgSlot where
  desc : BitVec 512
  half : Bool
  pois : Bool
  place : Nat
  deriving DecidableEq, Repr

/-- A transfer tag's bookkeeping: responses still owed, the epoch bit, the banks its local side uses and the word that
took it (R92, R136, R359). -/
structure TagInfo where
  out : Nat
  epoch : Bool
  banks : Nat
  word : Nat
  deriving DecidableEq, Repr

/-- One slot of a guarded window: completed fills, grants, and units landed of the current fill (R143). -/
structure SlotInfo where
  fg : Nat
  cg : Nat
  units : Nat
  deriving DecidableEq, Repr

/-- A parity upset standing in an operand buffer: buffer 0 feed A, 1 feed B, 2 accumulator, 3 vector registers; how many
reads in a row will fail (R80, R81). -/
structure Upset where
  core : Nat
  buf : Nat
  off : Nat
  fails : Nat
  deriving DecidableEq, Repr

/-- What an ATTN counts for its status record (R210). -/
structure AttnCnt where
  tiles : Nat
  skipped : Nat
  zeros : Nat
  pops : Nat
  copies : Nat
  pushes : Nat
  refused : Nat
  deriving DecidableEq, Repr

/-- An ATTN append in progress (R185 to R197), which waits for a claim: its core, word index, OPER and descriptor (1,024
bits), the sequence it stands at, the query rows of the sequences before it, and its counts. -/
structure AttnJob where
  core : Nat
  word : Nat
  oper : Nat
  desc : Nat
  seq : Nat
  row : Nat
  cnt : AttnCnt
  deriving DecidableEq, Repr

/-- A claim on a page in a home slice's queue (R196, R197). -/
structure Claim where
  core : Nat
  slice : Nat
  page : Nat
  seq : Nat
  ctx : Nat
  deriving DecidableEq, Repr

/-- A page copy a slice still has to finish (R198): source and destination page keys, bytes, and, where the source's count
has come to 0 through copies, the page to push. -/
structure PageCopy where
  slice : Nat
  src : Nat
  dst : Nat
  size : Nat
  pool : Nat
  page : Nat
  deriving DecidableEq, Repr

/-- A captured plan fault or error: kind of R93, source of R134, chip and address. -/
structure FaultRec where
  kind : Nat
  source : Nat
  chip : Nat
  addr : Nat
  deriving DecidableEq, Repr

/-- Who makes a register access (R15, R85): a host slice through its PCIe port (R422), the image through the management
sequencer, the debug port, or a core's plan (R83). -/
inductive Requester where
  | host (slice : Fin 64)
  | image
  | debug
  | plan (core : Fin 256)
  deriving DecidableEq, Repr

/-- An affine function of loop iterations: a constant and one coefficient per loop, outermost first (R122). -/
structure Affine where
  base : Int
  coef : List Int
  deriving DecidableEq, Repr

/-- What a certificate item is (R122). -/
inductive CertKind where
  | wait | credNeed | barrier | grant | feed
  deriving DecidableEq, Repr

/-- An item of a certificate: the word it stands for, its kind, and its rank as an affine function of the iterations of
its enclosing loops (R122). -/
structure CertItem where
  core : Nat
  word : Nat
  kind : CertKind
  rank : Affine
  deriving DecidableEq, Repr

/-- An edge of the wait graph: producer and wait by item number, the amount each producer instance contributes, and, loop
by loop of the producer, the affine bounds (in the wait's iterations) of the producer iterations counted (R122). -/
structure CertEdge where
  prod : Nat
  wait : Nat
  amount : Nat
  lo : List Affine
  hi : List Affine
  deriving DecidableEq, Repr

/-- The certificate (R122, R382). -/
structure Certificate where
  items : List CertItem
  edges : List CertEdge
  choice : List (Nat × Nat)
  deriving DecidableEq, Repr

/-- The sections of one core (R120, R138): plan words from offset 0, constant sections by offset, initial binding,
plan-region bank mask, and the window table. -/
structure CoreSection where
  core : Nat
  words : List (BitVec 128)
  consts : List (Nat × List (BitVec 8))
  bind : BitVec 32
  banks : BitVec 12
  flag : BitVec 64
  windows : List (BitVec 64)
  credits : List (BitVec 64)
  deriving DecidableEq, Repr

/-- A plan binary (R120): the header, the digest of the bytes after it as computed over them, and the sections. -/
structure PlanBinary where
  magic : BitVec 32
  fmt : BitVec 16
  mcif : BitVec 16
  target : BitVec 16
  count : BitVec 16
  chips : BitVec 8
  reserved : Nat
  arith : BitVec 32
  digest : BitVec 384
  bodyDigest : BitVec 384
  cores : List CoreSection
  barriers : List (Nat × BitVec 256)
  cert : Certificate
  deriving DecidableEq, Repr

/-- An inbound memory request of PCIe (R422): port, PASID, BAR and offset in it, and a read of some bytes or the bytes written,
with the EP bit of the TLP. -/
structure Inbound where
  port : Bool
  pasid : Option (BitVec 20)
  bar : Fin 3
  off : Nat
  read : Option Nat
  data : List (BitVec 8)
  ep : Bool
  deriving DecidableEq, Repr

/-- How an outbound read completes (R430). -/
inductive OutCpl where
  | ok (data : List (BitVec 8)) (ep : Bool)
  | ur
  | ca
  deriving DecidableEq, Repr

/-- The header of a CSI-2 packet as its port judges it (R216). -/
inductive CsiHdr where
  | good
  | corrected
  | bad
  deriving DecidableEq, Repr

/-- A CSI-2 packet (R214): its header, virtual channel, data type, word count, the components of its payload in transmitted
order as the data type unpacks them (bytes for embedded data), and whether the payload CRC holds. -/
structure CsiPkt where
  hdr : CsiHdr
  vc : Fin 4
  dt : BitVec 6
  wc : BitVec 16
  comps : List (BitVec 16)
  crcOk : Bool
  deriving DecidableEq, Repr

/-- A picture released by a decoder (R240 to R243): size, the STATUS bits CORRUPT to REF_MISSING, first and last damaged unit,
and its slot image. -/
structure DecPic where
  width : Nat
  height : Nat
  status : Nat
  firstBad : Nat
  lastBad : Nat
  image : List (BitVec 8)
  deriving DecidableEq, Repr

/-- How a PRE job ends (R246 to R250). -/
inductive PreStatus where
  | ok
  | noFit
  | desc
  | poison
  deriving DecidableEq, Repr

/-- What a PRE completion record holds (R250). -/
structure PreDone where
  bucket : Nat
  count : Nat
  addr : Nat
  lo : Nat
  hi : Nat
  status : PreStatus
  deriving DecidableEq, Repr

/-- A submission queue's newest producer index and the next descriptor it will take (R237, R266, R471, R499). -/
structure QueueSt where
  prod : Nat
  next : Nat
  deriving DecidableEq, Repr

/-- What ING gives the frame record of a closed frame (R224). -/
structure FrameRec where
  fs : Nat
  fe : Nat
  hash : Nat
  cnt : Nat
  lines : Nat
  replaced : Nat
  firstRep : Nat
  stream : Nat
  ts : Nat
  flags : Nat
  deriving DecidableEq, Repr

/-- A frame that a context writes (R223, R247): frame number, accepted index, the queue and sequence number of a frame job,
rows written, stripes notified, samples lost for lack of warp reach, and, once closed, ING's part of its record. -/
structure PreFrame where
  num : Nat
  idx : Nat
  job : Option (Nat × Nat)
  rows : Nat
  notified : Nat
  lost : Nat
  closed : Option FrameRec
  deriving DecidableEq, Repr

/-- An enabled context (R222, R228): descriptor, ACC, frame number, frames being written (oldest first). -/
structure PreCtx where
  desc : BitVec 2048
  acc : Nat
  num : Nat
  frames : List PreFrame
  deriving DecidableEq, Repr

/-- A partial batch (R248, R249): bucket, its samples in placement order, and the count at its first sample. -/
structure PreBatch where
  bucket : Nat
  seqs : List Nat
  began : Nat
  deriving DecidableEq, Repr

/-- A PRE queue (R246 to R250): its bucket entries, batches started per bucket, partial batches, samples submitted and not yet
emitted, completions held (with their samples), and whether its head job waits for a buffer. -/
structure PreQueue where
  entries : List (BitVec 512)
  started : SMap Nat
  partials : List PreBatch
  waiting : List Nat
  held : List (PreDone × List Nat)
  stalled : Bool
  deriving DecidableEq, Repr

/-- A picture on its way to the output ring: the picture, poisoned?, queue, AUIDX, CWR. -/
structure DecOut where
  pic : DecPic
  pois : Bool
  queue : Nat
  auidx : Nat
  cwr : Bool
  deriving DecidableEq, Repr

/-- A DEC stream context (R239 to R244): owner, OPEN descriptor, pictures output, last access unit decoded, the units since the
decoding state last restarted, poison standing until the next RAP, and pictures waiting for the output ring. -/
structure DecStream where
  part : Nat
  desc : BitVec 512
  outs : Nat
  last : Option Nat
  units : List (List (BitVec 8))
  pois : Bool
  wait : List DecOut
  deriving DecidableEq, Repr

/-- What a SAVE writes to host memory (R437), as data: is it whole, does its SHA-384 hold, the microcode interface it needs, the
plan (whose digest the header holds), its cores, slice groups and LPDDR windows (BASE, SIZE, GRAN, CHMASK, CHBASE); register words
by offset; memory cells, accumulators, vector registers and poison marks by key; loop stacks, AG slots, guarded slots, drain
cursors, open row pitches, barrier masks and arrivals, choice points; and the DEC, PRE and SOL queues and contexts. -/
structure SaveRec where
  whole : Bool
  shaOk : Bool
  mcif : BitVec 16
  plan : Option PlanBinary
  cores : List Nat
  groups : List Nat
  windows : List (Nat × Nat × Nat × Nat × Nat)
  regs : List (Nat × BitVec 32)
  mem : List (Nat × BitVec 8)
  poison : List Nat
  acc : List (Nat × BitVec 32)
  vreg : List (Nat × BitVec 32)
  accMark : List (Nat × Bool)
  vMark : List (Nat × Bool)
  loops : List (Nat × List LoopFrame)
  ag : List (Nat × AgSlot)
  slots : List (Nat × SlotInfo)
  dcur : List (Nat × Nat)
  pitch : List (Nat × Nat)
  barMask : List (Nat × Nat)
  barHere : List (Nat × Nat)
  choice : List (Nat × Bool)
  debug : List (Nat × Bool)
  banks : List (Nat × Nat)
  queues : List (Nat × QueueSt)
  ctx : List (Nat × Option PreCtx)
  preq : List (Nat × PreQueue)
  dec : List (Nat × Option DecStream)
  deriving DecidableEq, Repr

/-- A ring frame (R449): virtual channel (0 REQ, 1 RSP, 2 SAF, 3 MGMT), destination and originating chip, SLANE, PART, SOURCE, TAG
with the epoch bit as its bit 5, OP, device address, bytes asked for (for an error response its kind), payload with its marks, the
notification of an OP 2, and the link's sequence number. -/
structure RingFrame where
  vc : Nat
  dst : Nat
  src : Nat
  slane : Bool
  part : Nat
  source : Nat
  tag : Nat
  op : Nat
  addr : Nat
  len : Nat
  data : List MByte
  notify : Option (Nat × Nat)
  seq : Nat
  deriving DecidableEq, Repr

/-- RoCE operations, in the order in which R461 lists them. -/
inductive RoceOp where
  | send | write | writeImm | read
  deriving DecidableEq, Repr

/-- A work request (R463). -/
structure RoceWr where
  op : RoceOp
  fence : Bool
  laddr : Nat
  len : Nat
  rkey : Nat
  raddr : Nat
  imm : Nat
  deriving DecidableEq, Repr

/-- What the far side answers to a request sent: nothing yet, an acknowledgement, the data of a READ, or a remote access error. -/
inductive RoceReply where
  | nothing
  | ack
  | data (bytes : List (BitVec 8))
  | accessError
  deriving DecidableEq, Repr

/-- An inbound request (R462). -/
structure RoceIn where
  op : RoceOp
  rkey : BitVec 32
  raddr : Nat
  len : Nat
  imm : BitVec 32
  data : List (BitVec 8)
  deriving DecidableEq, Repr

/-- How a work request ends. -/
inductive RoceStatus where
  | ok | iso | poison | desc | remote
  deriving DecidableEq, Repr

/-- A completion of a QP: of a work request, or of something received, with its IMM and, for a SEND, its data. -/
inductive RoceDone where
  | sent (wr : RoceWr) (st : RoceStatus)
  | received (imm : Nat) (data : List (BitVec 8))
  deriving DecidableEq, Repr

/-- A CAN frame (R466, R471): its identifier as a descriptor holds it (base identifiers in [28:18]), flags, DLC and data. -/
structure CanFrame where
  id : BitVec 29
  ide : Bool
  rtr : Bool
  fdf : Bool
  brs : Bool
  esi : Bool
  dlc : BitVec 4
  data : List (BitVec 8)
  deriving DecidableEq, Repr

/-- How a transmission attempt ends (R470, R473): an error has an ERRCODE, whether one of the exceptions of ISO 11898-1 spares TEC,
and how many further increments of 8 the error flag brought. -/
inductive CanTxEnd where
  | ok
  | lost
  | error (code : Fin 6) (spared : Bool) (eights : Nat)
  deriving DecidableEq, Repr

/-- A message of an AVTPDU (R477): an ACF CAN or CAN Brief message, or one that is skipped. -/
inductive AcfMsg where
  | can (bus : Fin 32) (f : CanFrame)
  | other
  deriving DecidableEq, Repr

/-- An Ethernet frame without its FCS (R480): addresses, the TCI of its 802.1Q tag, and the bytes from its EtherType on. -/
structure EthFrame where
  dst : BitVec 48
  src : BitVec 48
  tag : Option (BitVec 16)
  body : List (BitVec 8)
  deriving DecidableEq, Repr

/-- A peer-delay exchange (R483): the port's own, with the times t1 to t4 of the standard, or an answer to its peer. -/
inductive PeerDelay where
  | own (t1 t2 t3 t4 : Nat)
  | answer
  deriving DecidableEq, Repr

/-- The head of a CAN transmit queue (R471, R473): frame, descriptor index, USER, TSREQ, attempts and the stamp of the last. -/
structure CanHead where
  frame : CanFrame
  index : Nat
  user : Nat
  tsreq : Bool
  tries : Nat
  stamp : Nat
  deriving DecidableEq, Repr

/-- The head of an Ethernet transmit queue (R481). -/
structure NetHead where
  addr : Nat
  len : Nat
  tsreq : Bool
  user : Nat
  index : Nat
  deriving DecidableEq, Repr

/-- What the writer of a receive ring keeps (R341): the cached read index, and whether records were lost since the last one. -/
structure RingSt where
  read : Nat
  lost : Bool
  deriving DecidableEq, Repr

/-- A layer of a display output as it is shown (R493, R494). -/
structure CkpLayer where
  addr : Nat
  h : Nat
  w : Nat
  y : Nat
  x : Nat
  en : Bool
  fmt : Nat
  galpha : Nat
  pitch : Nat
  deriving DecidableEq, Repr

/-- A step that waits for a ramp slot (R517): rising?, a spare core's switch or a group's, the position or the domain, and the
state a group aims at (R509). -/
structure RampStep where
  rise : Bool
  spare : Bool
  idx : Nat
  aim : Nat
  deriving DecidableEq, Repr

/-- What a CAN wake decoder receives (R524): a wake-up pattern's dominant, recessive and dominant times and its whole length, in
62.5 ns, or a frame at the decoder's rate. -/
inductive CanWake where
  | wup (dom gap dom' whole : Nat)
  | frame (f : CanFrame) (crcOk : Bool)
  deriving DecidableEq, Repr

/-- A component table entry (R533); `zero` where its reserved bytes are 0. -/
structure ImgComp where
  id : BitVec 16
  kind : BitVec 8
  cflags : BitVec 8
  part : BitVec 8
  chips : BitVec 8
  offset : BitVec 64
  length : BitVec 64
  steps : BitVec 16
  mcifMaj : BitVec 8
  mcifMin : BitVec 8
  cfmt : BitVec 16
  digest : BitVec 384
  dest : BitVec 64
  zero : Bool
  deriving DecidableEq, Repr

/-- An image header as it is read (R531): `zero` where its reserved bytes are 0; the SHA-384 of PUBKEY, and whether SIG verifies
against it, as those algorithms give them (R532). -/
structure ImgHeader where
  magic : BitVec 32
  fmt : BitVec 16
  ncomp : BitVec 16
  imageId : BitVec 64
  hdrLen : BitVec 32
  svn : BitVec 8
  flags : BitVec 8
  nearly : BitVec 16
  zero : Bool
  keyDigest : BitVec 384
  sigOk : Bool
  early : List (Nat × BitVec 32)
  comps : List ImgComp
  deriving DecidableEq, Repr

/-- A component's bytes by kind (R533): microcode, configuration entries (R546), a plan, or data. -/
inductive CompBody where
  | mcode
  | devcfg (entries : List (Nat × BitVec 32))
  | plan (b : PlanBinary)
  | data (bytes : List (BitVec 8))
  deriving DecidableEq, Repr

/-- What the checkers' self-test finds (R183, R543): physical positions, slices and channels whose checker fails, and parity
checkers outside them that fail, by number. -/
structure SelfTest where
  positions : List (Fin 272)
  slices : List (Fin 256)
  channels : List (Fin 16)
  other : List (Fin 512)
  deriving DecidableEq, Repr

/-- The start-up steps that wait for no other event (R537): 1; 3 with the flash density found (0 to 2 for 1, 2 or 4 Gbit; none where
R529 finds no usable pair); 6; 7; 13. -/
inductive StartStep where
  | ao
  | flash (density : Option (Fin 3))
  | plls
  | selfTest (r : SelfTest)
  | done
  deriving DecidableEq, Repr

/-- What the ring carries of an image (R458): its header, component n of its table with the digest of the bytes, or the manager's
word that no copy is left. -/
inductive ImageFrame where
  | header (h : ImgHeader)
  | comp (n : Nat) (digest : BitVec 384) (body : CompBody)
  | none
  deriving DecidableEq, Repr

/-- A log entry (R556): type, chip described, raw count at the event, data. -/
structure LogEnt where
  type : Nat
  chip : Nat
  time : Nat
  data : List Nat
  deriving DecidableEq, Repr

/-- An entry as boot flash holds it (R556): SEQ, boot count, and the entry. -/
structure FlashEnt where
  seq : Nat
  boot : Nat
  ent : LogEnt
  deriving DecidableEq, Repr

/-- What leaves the device: a write or read request to host memory over PCIe (R428), with the address seen by the device, MSI-X
messages (R434), SAF messages to chips of the ring (R358, R415), save records (R437), completions of inbound reads (status 0 OK, 1 UR,
2 CA), frames of the ring by port, 0 TLA and 1 TLB (R449 to R459), CAN and Ethernet frames, gPTP messages, MDIO frames, UART
characters and the slots of TDM frames (R466 to R500), the image or a component of it for a worker or, with no chip, for all (R458),
image frames forwarded, image NAKs, and log entries of a worker without flash (R557). -/
inductive Ext where
  | hostWrite (addr : Nat) (data : List MByte)
  | hostRead (addr len : Nat)
  | msix (port : Bool) (addr data : Nat)
  | heartbeat (chip : Nat) (safe armed active : Bool)
  | promote (chip : Nat)
  | demote (chip : Nat)
  | partFault (p : Nat)
  | save (slice addr : Nat) (rec : SaveRec)
  | completion (port : Bool) (status : Nat) (data : List MByte)
  | ring (port : Nat) (f : RingFrame)
  | ringAck (port seq : Nat)
  | ringNak (port seq : Nat)
  | ringHello (chip : Nat) (manager : Bool)
  | ringMap (members : Nat)
  | ringTime (port t corr : Nat)
  | roceSend (qp psn : Nat) (wr : RoceWr) (data : List (BitVec 8))
  | roceAnswer (qp : Nat) (r : RoceReply)
  | canTx (n : Nat) (f : CanFrame)
  | ethTx (port : Nat) (frame : List (BitVec 8))
  | ptpSync (port stamp origin : Nat) (corr offset : Int)
  | ptpPdelay (port : Nat) (answer : Bool)
  | mdio (word : Nat)
  | uartTx (u : Nat) (char : Nat)
  | tdm (port : Nat) (slots : List (Nat × Int))
  | image (chip comp : Option Nat) (copy : Nat)
  | imageEnd (chip : Nat)
  | imageFrame (f : ImageFrame)
  | imageNak (comp : Option Nat)
  | logEntry (e : LogEnt)
  deriving DecidableEq, Repr

end Sys2Proof.Machine
end

