-- ==== Sys2Proof/Syntax.lean ====
section
/-! DEFINITION. The commands of the block: one constructor per row of spec/opcode_table.json, with the row's operands. -/

namespace Sys2Proof

open Machine

/-- A command (R21 to R582: each constructor cites its rule). -/
inductive Instr where
  /-- NOP (R87): Plan word NOP is issued and does nothing. -/
  | nop (c : Fin 256)
  /-- END (R92): Plan word END ends the plan once all engines are idle and all 32 tags are free. -/
  | endPlan (c : Fin 256)
  /-- PHASE (R94): Plan word PHASE drains the engines and the affected tags, then applies a new bank binding 4 CLK_CORE cycles later. -/
  | phase (c : Fin 256)
  /-- AGLOAD (R99): Plan word AGLOAD loads an address-generator slot from a 64 B descriptor in core memory. -/
  | agload (c : Fin 256)
  /-- LOOP (R108): Plan word LOOP opens a hardware loop. -/
  | loopOpen (c : Fin 256)
  /-- NEXT (R108): Plan word NEXT closes the innermost open loop, iterating or falling through. -/
  | loopNext (c : Fin 256)
  /-- AGADV (R100): Plan word AGADV adds offsets to the base and coordinates of an address-generator slot. -/
  | agadv (c : Fin 256)
  /-- BARRIER (R109): Plan word BARRIER sends an arrival for a partition barrier and waits for its release. -/
  | barrier (c : Fin 256)
  /-- BARRIER_ARRIVAL (R109): A barrier arrival reaches the lowest-numbered participant, which releases all participants once every arrival of the generation is in. -/
  | barrierArrival (part bid : Fin 16) (src : Fin 256)
  /-- BARRIER_RELEASE (R109): A barrier release on the RSP class reaches a participant and completes its BARRIER. -/
  | barrierRelease (c : Fin 256) (bid : Fin 16)
  /-- REPORT (R111): Plan word REPORT writes a record into the partition's report queue, optionally raising the report event, copying to SAF or requesting Cellar. -/
  | report (c : Fin 256)
  /-- WAITCNT (R107): Plan word WAITCNT waits until an arrival counter reaches a value. -/
  | waitcnt (c : Fin 256)
  /-- WAITTIME (R107): Plan word WAITTIME waits until a timescale or raw time reading reaches a value. -/
  | waittime (c : Fin 256)
  /-- WAITTAG (R107): Plan word WAITTAG waits until every tag of a mask is free. -/
  | waittag (c : Fin 256)
  /-- WAIT_SATISFIED (R107): The condition of a pending WAITCNT, WAITTIME, WAITTAG or credit wait comes to hold and the sequencer resumes issue. -/
  | waitSatisfied (c : Fin 256)
  /-- ISSUE_STALL_CLEAR (R92): A condition that stalled a word at issue clears and the sequencer issues the stalled word in the next cycle. -/
  | issueStallClear (c : Fin 256)
  /-- CREDIT (R146): Plan word CREDIT grants credit for an own receive window to a sender, with the slot checks of a guarded window. -/
  | credit (c : Fin 256)
  /-- CREDIT_GRANT_ARRIVAL (R140): A CRD message arrives at the sender and adds its units to the outgoing-credit entry, or faults with kind CREDIT. -/
  | creditGrantArrival (dst src : Fin 256)
  /-- MMUL (R102): Plan word MMUL runs a matrix multiply-accumulate into an accumulator tile. -/
  | mmul (c : Fin 256)
  /-- MDRAIN (R103): Plan word MDRAIN drains an accumulator tile through the output stage into core memory. -/
  | mdrain (c : Fin 256)
  /-- ATTEND (R207): ATTN with OPER 0 computes attention of the query rows over the cached tokens of each sequence. -/
  | attend (c : Fin 256)
  /-- APPEND (R195): ATTN with OPER 1 writes new token latents into the cache with copy-on-write claims. -/
  | append (c : Fin 256)
  /-- APPEND_ATTEND (R187): ATTN with OPER 2 appends for every sequence and then attends. -/
  | appendAttend (c : Fin 256)
  /-- FORK (R201): ATTN with OPER 3 shares a prefix of one sequence with a range of sequences. -/
  | fork (c : Fin 256)
  /-- RELEASE (R202): ATTN with OPER 4 drops every page of a range of sequences. -/
  | releasePages (c : Fin 256)
  /-- MOVE (R204): ATTN with OPER 5 spills pages to LPDDR or fills them back from a move list. -/
  | movePages (c : Fin 256)
  /-- PAGE_CLAIM (R197): A group of claims on a page is decided at its home slice against the reference count, granted in place or copied. -/
  | pageClaim (slice : Fin 256) (group : Nat)
  /-- PAGE_COPY_DONE (R198): A page copy inside a slice completes and any page whose count reached zero is pushed. -/
  | pageCopyDone (slice : Fin 256)
  /-- VLOAD (R104): Plan word VLOAD loads vector registers from core memory. -/
  | vload (c : Fin 256)
  /-- VSTORE (R104): Plan word VSTORE stores vector registers to core memory. -/
  | vstore (c : Fin 256)
  /-- VBIN (R104): Plan word VBIN performs a binary element-wise operation. -/
  | vbin (c : Fin 256)
  /-- VFMA (R104): Plan word VFMA performs a fused multiply-add. -/
  | vfma (c : Fin 256)
  /-- VCMP (R104): Plan word VCMP compares elements into a lane mask. -/
  | vcmp (c : Fin 256)
  /-- VSEL (R104): Plan word VSEL selects elements by lane mask. -/
  | vsel (c : Fin 256)
  /-- VSFU (R78): Plan word VSFU computes exp, log, reciprocal or reciprocal square root correctly rounded. -/
  | vsfu (c : Fin 256)
  /-- VCVT (R104): Plan word VCVT converts or requantises through the output-stage rules. -/
  | vcvt (c : Fin 256)
  /-- VRED (R104): Plan word VRED reduces the lanes of a register by a pairwise tree. -/
  | vred (c : Fin 256)
  /-- VACC (R104): Plan word VACC moves data between the accumulator and vector registers. -/
  | vacc (c : Fin 256)
  /-- VIMM (R104): Plan word VIMM broadcasts an immediate into registers. -/
  | vimm (c : Fin 256)
  /-- VPERM (R104): Plan word VPERM applies a fixed lane permutation. -/
  | vperm (c : Fin 256)
  /-- LCOPY (R135): Plan word LCOPY copies within the core's own memory under a tag. -/
  | lcopy (c : Fin 256)
  /-- RWRITE (R106): Plan word RWRITE writes into another core's receive window under credit. -/
  | rwrite (c : Fin 256)
  /-- TUNRD (R135): Plan word TUNRD reads the Tun of the own or a remote chip into core memory. -/
  | tunrd (c : Fin 256)
  /-- TUNWR (R135): Plan word TUNWR writes the Tun, with optional notification. -/
  | tunwr (c : Fin 256)
  /-- TATOM (R154): Plan word TATOM performs a fetch-add or compare-swap at a Tun home slice. -/
  | tatom (c : Fin 256)
  /-- DRAMRD (R135): Plan word DRAMRD reads LPDDR or host memory into core memory. -/
  | dramrd (c : Fin 256)
  /-- DRAMWR (R135): Plan word DRAMWR writes core memory to LPDDR or host memory. -/
  | dramwr (c : Fin 256)
  /-- RSIGNAL (R139): Plan word RSIGNAL increments another core's arrival counter without data. -/
  | rsignal (c : Fin 256)
  /-- CROPRS (R115): Plan word CROPRS crops and resizes from a box list. -/
  | croprs (c : Fin 256)
  /-- BOXDEC (R116): Plan word BOXDEC decodes boxes, anchor-based or anchor-free. -/
  | boxdec (c : Fin 256)
  /-- NMS (R118): Plan word NMS performs deterministic non-maximum suppression per class. -/
  | nms (c : Fin 256)
  /-- REMOTE_WRITE_ARRIVAL (R139): A remote-write message lands in a window, advances its counter and guarded-slot counts, and is acknowledged. -/
  | remoteWriteArrival (dst src : Fin 256) (crcOk : Bool)
  /-- SIGNAL_ARRIVAL (R139): An RSIGNAL message reaches the receiver and adds INC to its counter. -/
  | signalArrival (dst src : Fin 256)
  /-- NOTIFICATION_ARRIVAL (R139): A notification arrives and adds the reported units to a core's arrival counter. -/
  | notificationArrival (dst : Fin 256) (src : Nat)
  /-- TUN_REQUEST (R152): A read, write or atomic request is served at its home slice in serialisation order. -/
  | tunRequest (slice : Fin 256) (src : Nat) (crcOk : Bool)
  /-- LPDDR_REQUEST (R160): A read or write burst request is served by an LPDDR channel controller. -/
  | lpddrRequest (ctl : Fin 4) (n : Nat) (crcOk : Bool)
  /-- READ_DATA_ARRIVAL (R126): An RSP read-data or atomic-result message is written into core memory. -/
  | readDataArrival (c : Fin 256) (src : Nat) (crcOk : Bool)
  /-- WRITE_ACK_ARRIVAL (R136): A write or remote-write acknowledgement reaches the requester. -/
  | writeAckArrival (c : Fin 256) (src : Nat)
  /-- TAG_COMPLETE (R136): A transfer's last completion event arrives and its tag is freed. -/
  | tagComplete (c : Fin 256) (tag : Fin 32)
  /-- ERROR_RESPONSE (R40): An error response arrives, frees the tag and buffer, and faults the issuing partition. -/
  | errorResponse (c : Fin 256) (src : Nat)
  /-- GUARD_WATCHDOG (R145): A guarded-window read stalls 2^16 CLK_FAB cycles and the owner's partition faults with kind WATCHDOG. -/
  | guardWatchdog (c : Fin 256)
  /-- FLIT_PARITY_FAIL (R170): A router receives a flit with bad parity and the upstream router resends it after the retry delay. -/
  | flitParityFail (x y : Fin 16) (dir : Fin 4) (sends : Fin 3)
  /-- FAILED_LINK_DISCARD (R584): A message whose route crosses a failed link is discarded and its partition faulted or an error response returned. -/
  | failedLinkDiscard (n : Nat)
  /-- SCRUB_VISIT (R176): The background scrub interval expires and the scrubber reads, decodes and writes back one granule. -/
  | scrubVisit (inst : Fin 528)
  /-- MEM_TS_GO (R177): A write of MEM_TS_CTLt.GO starts or refuses a triggered scrub pass. -/
  | memTsGo (req : Requester) (t : Fin 4) (value : BitVec 32)
  /-- TS_GRANULE (R177): A triggered pass's interval expires and it visits the next granule. -/
  | tsGranule (t : Fin 4)
  /-- TS_DONE (R178): A triggered pass ends, writes its summary record and sets DONE. -/
  | tsDone (t : Fin 4)
  /-- MEM_INJ_ARM (R184): A write of MEM_INJ_CTL arms error injection at the next write of MEM_INJ_ADDR. -/
  | memInjArm (req : Requester) (value : BitVec 32)
  /-- FILL_COMPLETE (R180): A fill of on-chip memories completes and the filled memories accept requests. -/
  | fillComplete
  /-- LPDDR_REGION_FILLED (R182): An LPDDR region fill completes, FILLED increments and waiting requests to it are served. -/
  | lpddrRegionFilled
  /-- MEM_LPW_CFG_WRITE (R159): A write of MEM_LPW_CFGw enables, disables or is refused for an LPDDR window after its checks. -/
  | memLpwCfgWrite (req : Requester) (w : Fin 16) (value : BitVec 32)
  /-- REG64_LOWER_READ (R85): A read of the lower word of a latching 64-bit register loads the requester's holding register. -/
  | reg64LowerRead (req : Requester) (off : Nat)
  /-- REG64_UPPER_READ (R85): A read of the upper word returns and consumes the requester's holding register, or the live word. -/
  | reg64UpperRead (req : Requester) (off : Nat)
  /-- CORE_ARITH_CFG_WRITE (R84): A write of CORE_ARITH_CFG is accepted while the core is IDLE and otherwise sets CFG_REJ. -/
  | coreArithCfgWrite (req : Requester) (c : Fin 256) (value : BitVec 32)
  /-- REGISTER_WRITE (R20): A write to a register without behaviour of its own is checked for legality, lock and ownership and applied or refused. -/
  | registerWrite (req : Requester) (off bytes : Nat) (value : BitVec 32)
  /-- PART_RPT_ENABLE (R112): A write of PART_RPTp_CFG.EN enables the report queue after its ownership checks, or is refused. -/
  | partRptEnable (req : Requester) (p : Fin 16) (value : BitVec 32)
  /-- LOAD (R121): The loader checks a plan binary in order and either refuses it or writes the sections and releases the cores. -/
  | load (req : Requester) (p : Fin 16) (plan : PlanBinary)
  /-- PARTITION_STOP (R358): The stop message reaches a core or block of a faulting partition, which stops issuing or fetching. -/
  | partitionStop (p : Fin 16) (target : Nat)
  /-- PART_CFG_EN_WRITE (R349): A write of PART_CFGp.EN enables the partition if its checks pass, or sets CFG_ERR. -/
  | partCfgEnWrite (req : Requester) (p : Fin 16) (value : BitVec 32)
  /-- PART_RESET_REQUEST (R360): A write of PART_CTLp.RESET starts a partition reset, subject to the requester's rights. -/
  | partResetRequest (req : Requester) (p : Fin 16) (value : BitVec 32)
  /-- PARTITION_RESET (R359): A partition reset stops, drains, retires tags, acts on blocks, fills and clears the partition. -/
  | partitionReset (p : Fin 16)
  /-- PART_RESET_DRAIN_END (R359): The drain of a partition reset ends by completion or its 1 ms bound and outstanding tags are retired. -/
  | partResetDrainEnd (p : Fin 16)
  /-- LATE_RESPONSE (R359): A response for a retired tag arrives and is dropped by its epoch bit and counted. -/
  | lateResponse (c : Fin 256) (src : Nat)
  /-- PART_RESET_DONE (R359): The partition's fill completes, state is cleared to EMPTY and RESET_DONE is set, then reload if AUTORELOAD. -/
  | partResetDone (p : Fin 16)
  /-- PART_DET_CFG_WRITE (R381): A write of PART_DET_CFGp.RELAXED sets relaxed mode, refused for class S. -/
  | partDetCfgWrite (req : Requester) (p : Fin 16) (value : BitVec 32)
  /-- SLOT_BOUNDARY (R355): A new time slot begins and the partitions' bucket refill and job-start gating follow its mask. -/
  | slotBoundary
  /-- CSI_PACKET (R216): A CSI-2 packet is received, checked and delivered, replaced or discarded. -/
  | csiPacket (port : Fin 16) (k : CsiPkt)
  /-- FRAME_START (R222): An FS packet is stamped and each context accepts the frame into a buffer or drops it. -/
  | frameStart (stream : Fin 64)
  /-- FRAME_END (R216): An FE packet closes the frame, replaces missing lines and completes the frozen-frame verdict. -/
  | frameEnd (stream : Fin 64)
  /-- STRIPE_NOTIFY (R223): Every write of a stripe is acknowledged and each notification target is notified. -/
  | stripeNotify (x : Fin 128)
  /-- MISSING (R235): No FS arrives by the expected time and the stream raises MISSING. -/
  | missing (stream : Fin 64)
  /-- ING_STR_CFG_WRITE (R217): A write of ING_STR_CFGs is ignored while enabled except the disabling write, which abandons the open frame. -/
  | ingStrCfgWrite (req : Requester) (stream : Fin 64) (value : BitVec 32)
  /-- CAMSYNC_PULSE (R220): The reading reaches NEXT, CAMSYNC takes its active level and NEXT advances by PERIOD. -/
  | camsyncPulse (n : Fin 16)
  /-- CAMSYNC_PULSE_END (R220): The pulse width expires and CAMSYNC returns to its inactive level. -/
  | camsyncPulseEnd (n : Fin 16)
  /-- CAMSYNC_ENABLE (R221): Enabling a sync output sets NEXT from START, skipping past periods. -/
  | camsyncEnable (req : Requester) (n : Fin 16) (value : BitVec 32)
  /-- PRE_CTX_ENABLE (R228): Setting PRE_CTX_CFGx.EN reads and checks the context descriptor and enables or refuses the context. -/
  | preCtxEnable (req : Requester) (x : Fin 128) (value : BitVec 32)
  /-- PRE_CTX_DISABLE (R252): Clearing a context's EN stops it at once and discards its frame state. -/
  | preCtxDisable (req : Requester) (x : Fin 128) (value : BitVec 32)
  /-- QUEUE_DISABLE (R252): Clearing a DEC, PRE or SOL queue's EN stops descriptor fetch after the one in progress. -/
  | queueDisable (req : Requester) (k : Fin 48) (value : BitVec 32)
  /-- PIDX_WRITE (R237): A write of a queue's PIDX advances the producer index and starts descriptor fetch. -/
  | pidxWrite (req : Requester) (off : Nat) (value : BitVec 32)
  /-- PWORD_POLL (R237): The poll interval expires and the block reads the Tun producer word. -/
  | pwordPoll (base : Nat)
  /-- OPEN (R239): A DEC descriptor of KIND OPEN opens a stream context on an engine. -/
  | openStream (q : Fin 16)
  /-- DECODE (R240): A DEC descriptor of KIND DECODE decodes one access unit and outputs the released pictures. -/
  | decode (q : Fin 16)
  /-- FETCH (R245): A DEC descriptor of KIND FETCH copies a cached frame or completes with MISS. -/
  | fetchFrame (q : Fin 16)
  /-- CLOSE (R239): A DEC descriptor of KIND CLOSE closes a stream context. -/
  | closeStream (q : Fin 16)
  /-- DEC_OUTPUT_RESUME (R240): The consumer releases an output slot and a stream waiting for room resumes decoding. -/
  | decOutputResume (stream : Fin 128)
  /-- SAMPLE_JOB (R248): A PRE sample job converts one image and places it in a size bucket. -/
  | sampleJob (q : Fin 16)
  /-- FLUSH_JOB (R249): A PRE flush job completes every partial bucket of the queue. -/
  | flushJob (q : Fin 16)
  /-- FRAME_JOB (R247): A PRE frame job converts one image into the context's frame buffers with stripe notifications. -/
  | frameJob (q : Fin 16)
  /-- BUCKET_TIMEOUT (R249): A partial bucket's TIMEOUT expires, it completes and DET_CHOICES increments. -/
  | bucketTimeout (q bucket : Fin 16)
  /-- BATCH_RECORD_EMIT (R250): A held batch completion record is emitted once every earlier sample has been emitted. -/
  | batchRecordEmit (q : Fin 16)
  /-- PRE_BUFFER_RESUME (R250): A consumer release frees a buffer and a job waiting at the head of the queue proceeds. -/
  | preBufferResume (q : Fin 16)
  /-- CHOL (R261): A SOL job of KIND 0 factorises A = LLᵀ and optionally solves. -/
  | chol
  /-- LDLT (R261): A SOL job of KIND 1 factorises A = LDLᵀ and optionally solves. -/
  | ldlt
  /-- LU (R261): A SOL job of KIND 2 factorises PA = LU and optionally solves. -/
  | lu
  /-- TRSV (R261): A SOL job of KIND 3 solves a triangular system. -/
  | trsv
  /-- PCG (R263): A SOL job of KIND 4 runs preconditioned conjugate gradient. -/
  | pcg
  /-- MINRES (R263): A SOL job of KIND 5 runs MINRES. -/
  | minres
  /-- SOL_SCHEDULE (R267): At a scheduling point SOL starts the oldest job of the highest-priority non-empty queue. -/
  | solSchedule
  /-- SOL_SUSPEND (R268): A job reaches a suspension point with a higher-priority job pending and is suspended with write-back. -/
  | solSuspend
  /-- SOL_CHECK_POINT (R269): A job reaches a check point, where a passed deadline or replay stop commits STALE. -/
  | solCheckPoint
  /-- SOL_COMMIT (R274): A job commits its solution, updates its chain and writes the completion record. -/
  | solCommit
  /-- CYCLE_TIMER_TRIGGER (R281): A cycle timer's reading reaches NEXT, it triggers and NEXT advances. -/
  | cycleTimerTrigger (k : Fin 8)
  /-- CHANNEL_TRIGGER (R282): A channel accepts a trigger, latches feedback and time and queues an update, or discards it as overrun. -/
  | channelTrigger (h : Fin 64)
  /-- LAW_UPDATE_START (R283): A law unit starts a pending channel update in priority order. -/
  | lawUpdateStart (u : Fin 4)
  /-- LAW_UPDATE_DONE (R289): An update leaves the pipeline, is cross-compared and loads the compare shadow. -/
  | lawUpdateDone (h : Fin 64) (differ : Bool)
  /-- TRAJ_REFRESH (R292): After an update CTL reads the trajectory header and entries, writes back status and acts on a new CMD. -/
  | trajRefresh (h : Fin 64)
  /-- COMMIT (R290): CTL_CH_CMD.COMMIT checks the shadow parameter set and copies it at the next update. -/
  | commit (req : Requester) (h : Fin 64) (value : BitVec 32)
  /-- START (R306): CTL_CH_CMD.OP START moves an IDLE channel to RUN with flying or zeroed start. -/
  | start (req : Requester) (h : Fin 64) (value : BitVec 32)
  /-- STOP (R306): CTL_CH_CMD.OP STOP moves a running channel to IDLE. -/
  | stop (req : Requester) (h : Fin 64) (value : BitVec 32)
  /-- CLEAR (R306): CTL_CH_CMD.OP CLEAR returns a TRIPPED channel to IDLE with states zeroed. -/
  | clear (req : Requester) (h : Fin 64) (value : BitVec 32)
  /-- CTL_CFG_WRITE (R318): A write to a CTL CFG register while active is ignored except a single disabling write, which acts at once. -/
  | ctlCfgWrite (req : Requester) (off : Nat) (value : BitVec 32)
  /-- QEI_COUNT (R294): An accepted A or B change counts the position, or records a phase error. -/
  | qeiCount (n : Fin 16) (a b : Bool)
  /-- QEI_INDEX (R295): An accepted index edge latches the position, raises an index event and may reset it. -/
  | qeiIndex (n : Fin 16) (rising : Bool)
  /-- QEI_VELOCITY_WINDOW (R294): A velocity window closes, VEL updates and the feedback-ready event is raised. -/
  | qeiVelocityWindow (n : Fin 16)
  /-- QEI_STALL (R301): Position holds for the STALL time and a stall event is raised. -/
  | qeiStall (n : Fin 16)
  /-- SDM_FRAME (R296): A sinc3 decimation frame completes and VAL updates with a feedback-ready event. -/
  | sdmFrame (n : Fin 32) (samples : List Bool)
  /-- SDM_CLK_LOST (R296): No SDM clock edge for 64 CLK_CTL cycles sets CLK_LOST. -/
  | sdmClkLost (n : Fin 32)
  /-- SDM_COMPARATOR_TRIP (R297): The fast comparator crosses a threshold and trips its channel with cause SDMCMP. -/
  | sdmComparatorTrip (n ones : Fin 32)
  /-- PCAP_EDGE (R298): A filtered PCAP edge is stamped and updates VAL. -/
  | pcapEdge (n : Fin 16) (rising : Bool)
  /-- NOEDGE (R298): No PCAP edge arrives within TOUT and NOEDGE is set. -/
  | noedge (n : Fin 16)
  /-- ENC_READ (R299): A cycle-timer trigger starts an SSI read of an absolute encoder. -/
  | encRead (n : Fin 8) (dat : Bool)
  /-- ENC_READ_DONE (R299): An SSI read completes, is checked and raises the feedback-ready event. -/
  | encReadDone (n : Fin 8) (pos : BitVec 40) (status : BitVec 8) (par back : Bool)
  /-- PWM_COMPARE_LOAD (R303): The PWM counter reaches the load point and the compare shadow loads into CMP. -/
  | pwmCompareLoad (p : Fin 24) (top : Bool)
  /-- INJ_ENABLE (R316): Enabling a test generator starts its injection into a channel. -/
  | injEnable (req : Requester) (g : Fin 4) (value : BitVec 32)
  /-- CAPTURE_GO (R317): A write of CTL_CAP_CFGc.GO starts a capture unit filling its ring. -/
  | captureGo (req : Requester) (c : Fin 4) (value : BitVec 32)
  /-- CAPTURE_DONE (R317): A capture finishes its post-trigger samples, sets DONE and notifies its target. -/
  | captureDone (c : Fin 4)
  /-- TIM_TS_COMMIT_WRITE (R325): A write of TIM_TS_CTLn.COMMIT fixes the commit count or is refused. -/
  | timTsCommitWrite (req : Requester) (n : Fin 4) (value : BitVec 32)
  /-- TIMESCALE_COMMIT (R324): The commit count is reached and the timescale's active set is replaced in SET, STEP or RATE mode. -/
  | timescaleCommit (n : Fin 4)
  /-- SERVO_PAIR (R330): The servo receives a measurement pair and commits a step or rate change. -/
  | servoPair
  /-- PPS_IN_EDGE (R329): An accepted PPS_IN edge is stamped and yields a measurement pair. -/
  | ppsInEdge (rising : Bool)
  /-- PPS_OUT_PULSE (R331): The reading reaches the next whole second and PPS_OUT takes its active level. -/
  | ppsOutPulse
  /-- PPS_OUT_PULSE_END (R331): The PPS_OUT width expires and the pin returns inactive. -/
  | ppsOutPulseEnd
  /-- TIM_SNAP (R343): A write of TIM_SNAP_CTL.GO latches the count and all readings at one TICK edge. -/
  | timSnap (req : Requester) (value : BitVec 32)
  /-- ALARM (R343): The count reaches TIM_ALARM, ALARM is set and in Cellar the device wakes. -/
  | alarm
  /-- CLK_TIME_START (R320): CLK_TIME starts and the counter changes from CLK_AO mode at a CLK_AO edge. -/
  | clkTimeStart
  /-- EVT_RING_ENABLE (R342): Enabling an event ring or source is checked for ownership and accepted or refused. -/
  | evtRingEnable (req : Requester) (off : Nat) (value : BitVec 32)
  /-- TRIP_IN_ASSERT (R34): TRIP_IN_n is sampled low and the trip latch drives SAFE_A_n and SAFE_B safe in 3 CLK_CTL cycles. -/
  | tripInAssert (k : Fin 2)
  /-- SAF_REPORT (R390): A comparator REPORT copy reaches SAF and registers a channel's result for a frame. -/
  | safReport (src : Fin 256)
  /-- SAF_VERDICT (R396): The comparator reads both records and gives a verdict, writing validity words or raising CMP. -/
  | safVerdict (k : Fin 16)
  /-- COMPARATOR_TIMEOUT (R392): TMO expires with a frame pending and it is judged TIMEOUT. -/
  | comparatorTimeout (k : Fin 16)
  /-- BUILTIN_PAIR_CHECK (R397): At ARM and every 1,024 epochs each slot judges built-in pairs and raises SAFSELF on a wrong verdict. -/
  | builtinPairCheck (k : Fin 16) (right : Bool)
  /-- EPOCH_START (R398): A safety epoch begins; missing gravity results and GAP verdicts of the past epoch are judged. -/
  | epochStart
  /-- GRAVITY_RUN (R400): A core reaches an idle point or three quarters of the epoch and runs the gravity workload. -/
  | gravityRun (c : Fin 256)
  /-- GRAVITY_RESULT (R401): A core's gravity CRC reaches SAF and is compared, raising GRAV or a warning on failure. -/
  | gravityResult (c : Fin 256)
  /-- FT_STEP (R403): A floor-turning step starts: the spare wakes, is filled and mirroring begins. -/
  | ftStep (q : Fin 4)
  /-- FT_HANDOVER (R403): At a qualifying point the victim's state moves to the spare and the crossbar switches. -/
  | ftHandover (q : Fin 4)
  /-- FT_HANDOVER_ABANDON (R403): No handover point comes within HWIN and the step is abandoned and counted. -/
  | ftHandoverAbandon (q : Fin 4)
  /-- FT_BIST_DONE (R404): The victim's logic BIST and march test end and it becomes the spare or is retired. -/
  | ftBistDone (q : Fin 4) (pass : Bool)
  /-- SAF_FT_REQ (R406): A write of SAF_FT_REQ.GO requests a core, slice-group or checker self-test. -/
  | safFtReq (req : Requester) (value : BitVec 32) (pass : Bool)
  /-- SELFTEST_DEFERRED_RUN (R406): A deferred self-test's condition comes to hold and the test runs. -/
  | selftestDeferredRun (pass : Bool)
  /-- FRAME_FLAG (R409): A flagged frame record or MISSING reaches SAF and counts toward cause FRAME. -/
  | frameFlag
  /-- SWEEP_DONE (R412): Every validity-word clear is acknowledged and SWEEP_DONE is set. -/
  | sweepDone
  /-- PINMON (R407): A SAFE pin readback differs from its register for 1 µs and cause PINMON is raised. -/
  | pinmon (b : Bool)
  /-- ARM (R413): A write of SAF_CTL.ARM with the key arms the device, or is refused. -/
  | arm (req : Requester) (value : BitVec 32)
  /-- ENTER (R407): A write of SAF_CTL.ENTER with the key raises cause SWREQ. -/
  | enter (req : Requester) (value : BitVec 32)
  /-- HEARTBEAT_SEND (R415): Every 1 ms a device sends its heartbeat to the manager and deputy. -/
  | heartbeatSend
  /-- HEARTBEAT_RECEIVE (R415): A heartbeat arrives, or its absence is counted, and the manager may declare a device lost. -/
  | heartbeatReceive (chip : Fin 8) (beat : Option (Bool × Bool)) (bypassed : Bool)
  /-- DEMOTE (R415): A DEMOTE message reaches a device, which clears ACTIVE. -/
  | demote (chip : Fin 8)
  /-- PROMOTE (R415): A PROMOTE message reaches the standby, which sets ACTIVE. -/
  | promote (chip : Fin 8)
  /-- SELF_DEMOTION (R416): An active device misses 3 heartbeats from manager and deputy, or enters BYPASS, and clears ACTIVE with cause FAILOVER. -/
  | selfDemotion
  /-- FT_LATE (R404): A core's last BIST becomes older than 90 s and SAF_WARN.FT_LATE is set. -/
  | ftLate (c : Fin 256)
  /-- INBOUND_REQUEST (R422): An inbound PCIe memory request is assigned to a slice, reach-checked and executed or refused. -/
  | inboundRequest (r : Inbound)
  /-- DOORBELL (R433): A doorbell write raises the slice's event after earlier posted writes are acknowledged. -/
  | doorbell (req : Requester) (c : Fin 64) (value : BitVec 32)
  /-- APIDX_WRITE (R431): A write of APIDX advances the admin producer index and the device processes admin entries. -/
  | apidxWrite (req : Requester) (c : Fin 64) (value : BitVec 32)
  /-- ADMIN_LOAD (R432): Admin command LOAD loads a plan binary from host memory. -/
  | adminLoad (sl : Fin 64) (tag : BitVec 16) (plan : Option PlanBinary)
  /-- ADMIN_RESET (R432): Admin command RESET resets the slice's partition. -/
  | adminReset (sl : Fin 64) (tag : BitVec 16)
  /-- FREEZE (R435): Admin command FREEZE stops issue and drains the partition toward FROZEN. -/
  | freeze (sl : Fin 64) (tag : BitVec 16)
  /-- FREEZE_DRAINED (R435): The freeze drain ends, the partition is FROZEN or resumes on VMS_FRZ_TMO. -/
  | freezeDrained
  /-- SAVE (R437): Admin command SAVE writes the save record of a FROZEN partition. -/
  | save (sl : Fin 64) (tag : BitVec 16) (addr len : Nat) (access : Bool)
  /-- RESTORE (R439): Admin command RESTORE checks and writes a save record into an EMPTY partition. -/
  | restore (sl : Fin 64) (tag : BitVec 16) (rec : Option SaveRec)
  /-- THAW (R438): Admin command THAW resumes a FROZEN partition. -/
  | thaw (sl : Fin 64) (tag : BitVec 16)
  /-- STATUS (R432): Admin command STATUS returns the partition status and freeze state. -/
  | status (sl : Fin 64) (tag : BitVec 16)
  /-- ADMIN_UNKNOWN (R432): An admin entry with an unknown OPC completes with OPCODE. -/
  | adminUnknown (sl : Fin 64) (tag : BitVec 16)
  /-- OUTBOUND_TIMEOUT (R430): An outbound read completion does not arrive within OB_TMO and ends with an error response. -/
  | outboundTimeout (c : Fin 256)
  /-- OUTBOUND_COMPLETION (R430): A completion for an outbound read arrives, delivering data or an error. -/
  | outboundCompletion (c : Fin 256) (cpl : OutCpl)
  /-- HOT_RESET (R441): A hot reset or link down resets one port's link and configuration. -/
  | hotReset (port : Fin 2)
  /-- FLR (R441): A function-level reset acts as hot reset and resets the port's class-H partitions. -/
  | flr (port : Fin 2)
  /-- D3HOT (R441): Entry to D3hot makes inbound memory requests complete with UR. -/
  | d3hot (port : Fin 2)
  /-- D0_ENTRY (R441): A port returns from D3hot to D0 and inbound memory requests are served again. -/
  | d0Entry (port : Fin 2)
  /-- VMS_SL_CFG_WRITE (R421): A write of VMS_SLc_CFG enables a slice after its checks, or is refused. -/
  | vmsSlCfgWrite (req : Requester) (c : Fin 64) (value : BitVec 32)
  /-- VMS_QVEC_ENABLE (R434): Enabling VMS_QVECi is checked against the queue's owner. -/
  | vmsQvecEnable (req : Requester) (k : Fin 48) (value : BitVec 32)
  /-- PCIE_LINK_UP (R544): A PCIe port finishes training and its link comes up, setting VMS_PORTn_STAT.UP. -/
  | pcieLinkUp (port : Fin 2) (speed : Fin 8) (width : Fin 32)
  /-- INPUT_EDGE (R334): An asynchronous input edge is sampled at TICK, stamped and ranked as an event. -/
  | inputEdge (pin : Fin 34) (rising : Bool)
  /-- BYPASS_ENTRY (R447): A device enters BYPASS and its package switch joins TLA to TLB. -/
  | bypassEntry
  /-- TRAINING (R447): With EN and domains up, the device opens the switch and trains its ports. -/
  | training
  /-- TRAINING_COMPLETE (R447): Both ports train and the device becomes FORWARD. -/
  | trainingComplete (delayA delayB : BitVec 16)
  /-- TRAIN_FAIL (R447): Ports are not up within 12 ms and the device returns to BYPASS. -/
  | trainFail
  /-- TRAIN_RETRY (R447): One second after a training failure the device retries training. -/
  | trainRetry
  /-- HELLO (R446): A hello frame is received and the manager checks role and chip number conflicts. -/
  | hello (pos : Fin 8) (chip : Fin 8) (manager : Bool)
  /-- ADMISSION (R455): The manager admits a FORWARD chip as MEMBER and distributes the map. -/
  | admission (chip : Fin 8)
  /-- MAP (R453): A map frame reaches a member, which updates LNK_MAP and its routing. -/
  | mapFrame (manager : Fin 8) (members fwd : BitVec 8)
  /-- MEMBER_LEAVE (R456): A member leaves the map and the partitions spanning it are faulted. -/
  | memberLeave (chip : Fin 8)
  /-- RATE_RETRAIN (R455): The manager retrains the ring at PAM4 or back to NRZ. -/
  | rateRetrain (pam : Bool)
  /-- RETRAIN_COMPLETE (R454): Ring retraining ends and held frames are sent. -/
  | retrainComplete (ok : Bool) (delayA delayB : BitVec 16)
  /-- RING_FRAME (R451): A ring frame is received, CRC and SEQ checked, and delivered, forwarded or NAKed. -/
  | ringFrame (port : Fin 2) (f : RingFrame) (crcOk : Bool)
  /-- NAK (R451): A NAK arrives and the sender retransmits from the named frame. -/
  | nak (port : Fin 2) (seq : BitVec 16)
  /-- RING_TIMEOUT (R452): A ring transaction reaches TMO and ends with an error response of kind LINK. -/
  | ringTimeout (c : Fin 256) (tag : Fin 32)
  /-- TIME_FRAME_SEND (R459): Every INTERVAL the manager sends a time frame in both directions. -/
  | timeFrameSend
  /-- TIME_FRAME (R459): A time frame is forwarded with correction or handed to the servo as a pair. -/
  | timeFrame (port : Fin 2) (t : BitVec 64) (corr residence : Nat)
  /-- ROCE_WORK_REQUEST (R463): A posted RoCE work request is executed and sent. -/
  | roceWorkRequest (q : Fin 512) (r : RoceReply)
  /-- ROCE_INBOUND (R462): An inbound RoCE READ, WRITE or SEND is key-checked and executed or refused. -/
  | roceInbound (q : Fin 512) (r : RoceIn)
  /-- ROCE_IMMEDIATE_DONE (R463): A WRITE with immediate is fully written and advances the counter and writes a completion. -/
  | roceImmediateDone (q : Fin 512)
  /-- ROCE_RETRANSMIT (R461): A QP retransmits go-back-N, entering ERROR after 7 retries. -/
  | roceRetransmit (q : Fin 512) (replies : List RoceReply)
  /-- ROCE_CNP (R461): A congestion notification packet halves the QP's rate. -/
  | roceCnp (q : Fin 512)
  /-- CAN_ARBITRATION (R472): At the start of arbitration a controller offers the winning head frame of its queues. -/
  | canArbitration (n : Fin 16)
  /-- CAN_TX_ATTEMPT_END (R473): A transmission attempt succeeds, loses arbitration or errs, and completes or retries the frame. -/
  | canTxAttemptEnd (n : Fin 16) (how : CanTxEnd) (stamp : BitVec 64) (tdcv : Option (BitVec 7))
  /-- CAN_FRAME_RECEIVED (R475): A valid CAN frame is received and looked up by the gateway. -/
  | canFrameReceived (n : Fin 16) (f : CanFrame) (stamp : BitVec 64)
  /-- CAN_BUS_ERROR (R470): A CAN controller detects a protocol error while receiving, sends its error flag and moves REC, possibly changing its fault-confinement state. -/
  | canBusError (n : Fin 16) (code : Fin 6) (one : Bool) (eights : Nat)
  /-- RECOVER (R470): CAN_n_CMD.RECOVER starts bus-off recovery. -/
  | recover (req : Requester) (n : Fin 16)
  /-- RECOVERY_COMPLETE (R470): 128 recessive sequences pass and the controller is error-active. -/
  | recoveryComplete (n : Fin 16)
  /-- FLUSH (R473): CAN_n_CMD FLUSH ends the entries of a transmit queue. -/
  | flush (req : Requester) (n : Fin 16) (mask : BitVec 3)
  /-- FLUSH_GATEWAY_EGRESS (R490): CAN_n_CMD bit 4 flushes the gateway egress queue. -/
  | flushGatewayEgress (req : Requester) (n : Fin 16)
  /-- AVTPDU_SEND (R477): An encapsulation stream sends an AVTPDU at BATCH messages or HOLD expiry. -/
  | avtpduSend (e : Fin 64)
  /-- AVTPDU_RECEIVE (R477): A decapsulation stream receives an AVTPDU and looks up its ACF messages. -/
  | avtpduReceive (e : Fin 64) (seq : BitVec 8) (msgs : List AcfMsg)
  /-- ETH_FRAME_RECEIVED (R482): An Ethernet frame is checked, filtered, looked up and written to a receive ring. -/
  | ethFrameReceived (n : Fin 10) (f : EthFrame) (fcsOk : Bool) (stamp : BitVec 64)
  /-- ETH_TX_FRAME (R481): A transmit descriptor's frame is sent and its record written. -/
  | ethTxFrame (n : Fin 10) (stamp : BitVec 64)
  /-- TAS_CYCLE_START (R484): A TAS cycle starts and the gate list runs. -/
  | tasCycleStart (n : Fin 10)
  /-- TAS_COMMIT (R484): NET_Pn_TAS_CTL.COMMIT copies a new gate list taking effect at a cycle start. -/
  | tasCommit (req : Requester) (n : Fin 10) (value : BitVec 32)
  /-- PSFP_COMMIT (R485): NET_PSFP_CTL.COMMIT copies the stream-filtering table into NET. -/
  | psfpCommit (req : Requester) (value : BitVec 32)
  /-- SYNC_SEND (R483): A master port sends Sync and Follow_Up at its interval. -/
  | syncSend (n : Fin 10) (stamp : BitVec 64)
  /-- FOLLOW_UP (R483): A slave port receives Follow_Up and hands a pair to the servo. -/
  | followUp (n : Fin 10) (stamp origin : BitVec 64) (corr offset : Int)
  /-- PDELAY (R483): A port runs the peer-delay exchange at its interval. -/
  | pdelay (n : Fin 10) (x : PeerDelay)
  /-- SYNC_TMO (R483): Three Sync intervals pass without Sync and SYNC_TMO is set. -/
  | syncTmo (n : Fin 10)
  /-- MDIO_GO (R490): A write of NET_MDIO.GO starts an MDIO frame. -/
  | mdioGo (req : Requester) (value : BitVec 32)
  /-- MDIO_COMPLETE (R490): An MDIO frame finishes, GO clears and DATA holds the read result. -/
  | mdioComplete (data : BitVec 16)
  /-- UART_CHARACTER (R487): A UART character is received, judged and written to the receive ring. -/
  | uartCharacter (u : Fin 8) (samples : List (BitVec 3)) (early : Bool)
  /-- UART_IDLE_NOTIFY (R486): Two idle character times pass with entries pending and the ring notifies. -/
  | uartIdleNotify (u : Fin 8)
  /-- UART_TX_CHARACTER (R486): The transmitter sends a character from its queue. -/
  | uartTxCharacter (u : Fin 8) (ctsHigh : Bool)
  /-- GPIO_SET (R489): A write of SER_GPIO_SET drives owned outputs high. -/
  | gpioSet (req : Requester) (value : BitVec 32)
  /-- GPIO_CLR (R489): A write of SER_GPIO_CLR drives owned outputs low. -/
  | gpioClr (req : Requester) (value : BitVec 32)
  /-- ETH_LINK_DOWN (R481): An Ethernet port loses its link, sets NET_EVENT.LINK and flushes its transmit queues with status LINKDOWN. -/
  | ethLinkDown (n : Fin 10)
  /-- ETH_LINK_UP (R544): An Ethernet port completes PHY auto-negotiation and its link comes up. -/
  | ethLinkUp (n : Fin 10) (speed : Fin 6)
  /-- VBLANK_COMMIT (R494): At vertical blanking start a pending layer COMMIT copies the shadow set. -/
  | vblankCommit (o : Fin 4) (same : Bool)
  /-- TELLTALE_VERDICT (R497): At the last pixel the tell-tale CRC and SEQ judge the frame, possibly setting TT_FAIL. -/
  | telltaleVerdict (o : Fin 4) (under : List (Nat × Nat))
  /-- DP_HPD_LOSS (R492): A hot-plug loss or failed training sets LINK and retrains when HPD returns. -/
  | dpHpdLoss (o : Fin 4)
  /-- DP_HPD_RETURN (R492): DPn_HPD returns after a loss and the DisplayPort link retrains. -/
  | dpHpdReturn (o : Fin 4) (ok : Bool)
  /-- AMP_FAULT (R500): An amplifier fault input is accepted low and its channels are muted and ramped down. -/
  | ampFault (k : Fin 8) (low : Bool) (stamp : BitVec 64)
  /-- CKP_CMD_POLL (R501): CKP reads the command word and clears mutes when SEQ changes. -/
  | ckpCmdPoll
  /-- TDM_FRAME (R499): A TDM frame transmits and records samples, including ramp steps. -/
  | tdmFrame (n : Fin 4) (fs : BitVec 64) (ins : List (BitVec 32))
  /-- REGION_TARGET_WRITE (R508): A write of PWR_REGr_CFG.TARGET starts a voltage and frequency change. -/
  | regionTargetWrite (req : Requester) (r : Fin 8) (value : BitVec 32)
  /-- REGION_TARGET_REACHED (R508): A region reaches its target and REG_DONE is set. -/
  | regionTargetReached (r : Fin 8)
  /-- RAMP_SLOT (R517): A ramp slot begins and grants one group step, spare switch or glide step. -/
  | rampSlot
  /-- GROUP_REST_ENTRY (R512): An idle group passes REST_HOLD and enters Rest. -/
  | groupRestEntry (d : Fin 106)
  /-- GROUP_STEEP_ENTRY (R512): A resting group passes STEEP_HOLD and enters Steep. -/
  | groupSteepEntry (d : Fin 106)
  /-- GROUP_WAKE (R513): A wake cause wakes a sleeping group through the staging. -/
  | groupWake (d : Fin 106)
  /-- GROUP_WAKE_DONE (R509): A waking domain reaches Run and held messages proceed. -/
  | groupWakeDone (d : Fin 106)
  /-- SUPWARN (R519): A rail below its warning threshold for 0.5 µs raises a supply warning event. -/
  | supwarn (m : Fin 8)
  /-- SUPFAULT (R519): A rail beyond a fault threshold for 0.5 µs raises cause SUPPLY. -/
  | supfault (m : Fin 8) (high : Bool)
  /-- SAG (R520): A sag condition begins and flash writes, fuse programming and retraining are held. -/
  | sag (ao : Bool)
  /-- SAG_END (R520): A sag condition ends after 10 ms and held operations resume. -/
  | sagEnd (ao : Bool)
  /-- CLKFAULT (R505): A clock monitor detects a lost lock or frequency error and acts per clock. -/
  | clkfault (k : Fin 13)
  /-- CELLAR_REQUEST (R521): A keyed PWR_CELLAR_CTL write or 0xFE REPORT requests Cellar and is accepted or refused. -/
  | cellarRequest (req : Requester) (value : BitVec 32)
  /-- CELLAR_ENTRY (R522): An accepted request stops partitions, writes logs, bypasses links and powers down to Cellar. -/
  | cellarEntry
  /-- WAKE_SOURCE (R523): A wake source fires in Cellar and the wake sequence begins. -/
  | wakeSource (wakeN : Bool)
  /-- CAN_WAKE_DECODE (R524): A CAN wake decoder recognises a wake-up pattern or matching frame. -/
  | canWakeDecode (k : Fin 4) (what : CanWake)
  /-- MAGIC_PACKET (R525): An Ethernet magic packet is recognised and wakes the device. -/
  | magicPacket (port : Fin 2) (frame : List (BitVec 8)) (fcsOk : Bool)
  /-- PMIC_PG_ASSERT (R537): PMIC_PG of a group asserts and the next start-up or wake step proceeds. -/
  | pmicPgAssert (g : Fin 4)
  /-- PMIC_PG_TIMEOUT (R538): PMIC_PG is not asserted within 20 ms and the enables are lowered. -/
  | pmicPgTimeout (g : Fin 4)
  /-- PMIC_RETRY (R538): One second after a power-good failure the device retries start-up. -/
  | pmicRetry
  /-- PMIC_PG_LOSS (R571): PMIC_PG falls while its enable is high after step 5 and cause SUPPLY is raised. -/
  | pmicPgLoss (g : Fin 4)
  /-- PORST_N (R536): PORST_n low resets the device and its release samples the straps and begins start-up. -/
  | porstN (chip : Fin 8) (manager : Bool)
  /-- STARTUP (R537): The management sequencer runs the start-up steps through flash, header, supplies, self-test, microcode, DEVCFG and loads. -/
  | startup (step : StartStep)
  /-- HEADER_CHECK (R535): An image header is read and checked; failure falls back or enters the minimal state. -/
  | headerCheck (h : ImgHeader)
  /-- COMPONENT_READ (R535): A component's bytes are read and checked and it is applied, loaded or refused. -/
  | componentRead (digest : BitVec 384) (body : CompBody) (alt : Option (ImgHeader × BitVec 384 × CompBody))
  /-- MCODE_CRC_REPORT (R545): A core's microcode CRC arrives and a mismatch triggers a resend or retirement. -/
  | mcodeCrcReport (c : Fin 256) (ok : Bool)
  /-- CLASS_S_RELEASE (R549): Once the last class-S partition passes its load, all class-S partitions are released together. -/
  | classSRelease
  /-- WORKER_RING_TIMEOUT (R540): A worker 10 s without a valid header enters the minimal state with reason RING. -/
  | workerRingTimeout
  /-- COMPUTE_RESET (R554): A keyed SYS_RST_CTL write or SYSRST_n starts a compute reset. -/
  | computeReset (how : Option (Requester × BitVec 32))
  /-- LOG_ENTRY_WRITE (R557): A queued log entry is written to boot flash, erasing the next sector as needed. -/
  | logEntryWrite (remote : Option LogEnt)
  /-- SYS_LOG_CTL_GO (R558): A write of SYS_LOG_CTL.GO copies a log entry into SYS_LOG_DATA and sets DONE. -/
  | sysLogCtlGo (req : Requester) (value : BitVec 32)
  /-- SYS_LOCK_WRITE (R547): A write of 1 to SYS_LOCK.LOCK sets the boot lock. -/
  | sysLockWrite (req : Requester) (value : BitVec 32)
  /-- FUSE_PROGRAMMING (R560): After DONE the device blows SVN bits or programs KEYHASH and writes a FUSE entry. -/
  | fuseProgramming
  /-- IMAGE_FRAME (R458): An image frame reaches a worker, which copies, checks and forwards it. -/
  | imageFrame (f : ImageFrame)
  /-- IMAGE_NAK (R458): A worker's image NAK reaches the manager, which resends the component. -/
  | imageNak (chip : Fin 8) (comp : Option (Fin 254))
  /-- LPDDR_TRAINING_DONE (R544): LPDDR channel training completes or fails; a failed channel is excluded, and once every channel has trained the region fill starts. -/
  | lpddrTrainingDone (ch : Fin 16) (ok : Bool)
  /-- CSI_PORT_LOCK (R544): A CSI-2 port's PHY trains and sets ING_PORT_STATp.LOCK, or loses lock and clears it. -/
  | csiPortLock (p : Fin 16) (lock : Bool)
  /-- VDD_AO_SELF_RESET (R519): VDD_AO falls below 0.62 V and the device resets itself as at PORST_n. -/
  | vddAoSelfReset
  deriving DecidableEq, Repr

end Sys2Proof
end

