-- ==== Sys2Proof/Machine/Float.lean ====
section
/-! DEFINITION. The floating-point formats of R57 and their exact arithmetic: a finite value is a sign, a significand and
a power of two; every operation is exact and rounds once, to nearest, ties to even (R58, R63, R77, R78). -/

namespace Sys2Proof.Machine

/-- A floating-point format: exponent and mantissa widths, bias, and whether it has infinities (R57). -/
structure FpFmt where
  eb : Nat
  mb : Nat
  bias : Nat
  hasInf : Bool
  deriving DecidableEq, Repr

def e4m3 : FpFmt := ⟨4, 3, 7, false⟩
def e5m2 : FpFmt := ⟨5, 2, 15, true⟩
def bf16 : FpFmt := ⟨8, 7, 127, true⟩
def fp32 : FpFmt := ⟨8, 23, 127, true⟩

/-- A decoded value: NaN, infinity of a sign, or (−1)^neg × m × 2^e. -/
inductive FVal where
  | nan
  | inf (neg : Bool)
  | fin (neg : Bool) (m : Nat) (e : Int)
  deriving DecidableEq, Repr

/-- The exponent of the last place of a format's subnormals. -/
def FpFmt.emin (f : FpFmt) : Int := 1 - (f.bias : Int) - f.mb

/-- The largest exponent field. -/
def FpFmt.emax (f : FpFmt) : Nat := 2 ^ f.eb - 1

/-- Width in bits. -/
def FpFmt.width (f : FpFmt) : Nat := 1 + f.eb + f.mb

/-- The canonical NaN (R58). -/
def FpFmt.nanCode (f : FpFmt) : Nat :=
  if f.hasInf then f.emax * 2 ^ f.mb + 2 ^ (f.mb - 1) else 2 ^ (f.eb + f.mb) - 1

/-- The code of the largest finite value, positive. -/
def FpFmt.maxCode (f : FpFmt) : Nat :=
  if f.hasInf then f.emax * 2 ^ f.mb - 1 else 2 ^ (f.eb + f.mb) - 2

/-- Decode a code (R57). -/
def FpFmt.decode (f : FpFmt) (w : Nat) : FVal :=
  let s := bit w (f.eb + f.mb)
  let e := bits w (f.eb + f.mb - 1) f.mb
  let m := bits w (f.mb - 1) 0
  if f.hasInf && e == f.emax then (if m = 0 then .inf s else .nan)
  else if !f.hasInf && e == f.emax && m == 2 ^ f.mb - 1 then .nan
  else if e = 0 then .fin s m f.emin
  else .fin s (2 ^ f.mb + m) (f.emin + (e : Int) - 1)

/-- The number of bits of a number. -/
def blen (n : Nat) : Nat := if n = 0 then 0 else n.log2 + 1

/-- m × 2^−k rounded to an integer, ties to even. -/
def rneShift (m k : Nat) : Nat :=
  let q := m >>> k
  let r := m % 2 ^ k
  if k = 0 then m
  else if r > 2 ^ (k - 1) ∨ (r = 2 ^ (k - 1) ∧ q % 2 = 1) then q + 1 else q

/-- A finite value rounded to a format's precision as if its exponent had no upper limit: significand and exponent of its
last place. -/
def FpFmt.roundSig (f : FpFmt) (m : Nat) (e : Int) : Nat × Int :=
  let q := max f.emin (e + blen m - (f.mb + 1 : Nat))
  if q ≤ e then (m * 2 ^ (e - q).toNat, q) else (rneShift m (q - e).toNat, q)

/-- The code of a rounded significand, and whether it lies beyond the largest finite value. -/
def FpFmt.pack (f : FpFmt) (m : Nat) (q : Int) : Nat × Bool :=
  if m < 2 ^ f.mb then (m, false)
  else
    let (m, q) := if m = 2 ^ (f.mb + 1) then (2 ^ f.mb, q + 1) else (m, q)
    let code := (q - f.emin + 1).toNat * 2 ^ f.mb + (m - 2 ^ f.mb)
    (code, decide (f.maxCode < code))

/-- Put the sign on a code. -/
def FpFmt.signed (f : FpFmt) (neg : Bool) (c : Nat) : Nat := c + b2n neg * 2 ^ (f.eb + f.mb)

/-- Round a value once into a format under IEEE 754: overflow gives an infinity (R63, R77). -/
def FpFmt.encode (f : FpFmt) (v : FVal) : Nat :=
  match v with
  | .nan => f.nanCode
  | .inf s => f.signed s (f.emax * 2 ^ f.mb)
  | .fin s m e =>
    let r := f.roundSig m e
    let p := f.pack r.1 r.2
    if p.2 then f.signed s (f.emax * 2 ^ f.mb) else f.signed s p.1

/-- Negate. -/
def FVal.neg : FVal → FVal
  | .nan => .nan
  | .inf s => .inf !s
  | .fin s m e => .fin (!s) m e

/-- The signed significand of a finite value at exponent q ≤ e. -/
def sigAt (s : Bool) (m : Nat) (e q : Int) : Int :=
  let v : Int := m * 2 ^ (e - q).toNat
  if s then -v else v

/-- The exact sum; a zero sum of unlike signs is +0 (IEEE 754, nearest). -/
def FVal.add : FVal → FVal → FVal
  | .nan, _ => .nan
  | _, .nan => .nan
  | .inf s, .inf t => if s = t then .inf s else .nan
  | .inf s, _ => .inf s
  | _, .inf t => .inf t
  | .fin s m e, .fin t n g =>
    let q := min e g
    let v := sigAt s m e q + sigAt t n g q
    if v = 0 then .fin (s && t) 0 q else .fin (decide (v < 0)) v.natAbs q

/-- The exact product. -/
def FVal.mul : FVal → FVal → FVal
  | .nan, _ => .nan
  | _, .nan => .nan
  | .inf s, .inf t => .inf (s != t)
  | .inf s, .fin t m _ => if m = 0 then .nan else .inf (s != t)
  | .fin s m _, .inf t => if m = 0 then .nan else .inf (s != t)
  | .fin s m e, .fin t n g => .fin (s != t) (m * n) (e + g)

/-- Is it zero. -/
def FVal.isZero : FVal → Bool
  | .fin _ m _ => m == 0
  | _ => false

def FVal.isNan : FVal → Bool
  | .nan => true
  | _ => false

/-- The quotient, exact but for a sticky last bit below 80 bits of it, so that one rounding of it is correct. -/
def FVal.div : FVal → FVal → FVal
  | .nan, _ => .nan
  | _, .nan => .nan
  | .inf _, .inf _ => .nan
  | .inf s, .fin t _ _ => .inf (s != t)
  | .fin s _ e, .inf t => .fin (s != t) 0 e
  | .fin s m e, .fin t n g =>
    if n = 0 then (if m = 0 then .nan else .inf (s != t))
    else
      let k := 80 + blen n
      let q := m * 2 ^ k / n
      let r := m * 2 ^ k % n
      .fin (s != t) (2 * q + (if r = 0 then 0 else 1)) (e - g - k - 1)

/-- Compare: the exact order of two values that are not NaN (−0 equals +0). -/
def FVal.lt : FVal → FVal → Bool
  | .inf s, .inf t => s && !t
  | .inf s, .fin .. => s
  | .fin .., .inf t => !t
  | .fin s m e, .fin t n g =>
    let q := min e g
    decide (sigAt s m e q < sigAt t n g q)
  | _, _ => false

/-- Equality of values that are not NaN. -/
def FVal.eq (a b : FVal) : Bool := !a.isNan && !b.isNan && !a.lt b && !b.lt a

def FVal.isNeg : FVal → Bool
  | .inf s => s
  | .fin s _ _ => s
  | .nan => false

/-- IEEE 754-2019 minimum: a NaN gives NaN, −0 lies below +0 (R77). -/
def FVal.min (a b : FVal) : FVal :=
  if a.isNan || b.isNan then .nan
  else if a.lt b then a else if b.lt a then b else if a.isNeg then a else b

/-- IEEE 754-2019 maximum (R77). -/
def FVal.max (a b : FVal) : FVal :=
  if a.isNan || b.isNan then .nan
  else if a.lt b then b else if b.lt a then a else if a.isNeg then b else a

/-- An integer as an exact value. -/
def FVal.ofInt (v : Int) : FVal := .fin (decide (v < 0)) v.natAbs 0

/-- A finite value rounded to an integer, ties to even; its sign kept in the Int. -/
def rneInt (neg : Bool) (m : Nat) (e : Int) : Int :=
  let v : Int := if 0 ≤ e then (m * 2 ^ e.toNat : Nat) else (rneShift m (-e).toNat : Nat)
  if neg then -v else v

/-- The largest integer not above a finite value. -/
def floorInt (neg : Bool) (m : Nat) (e : Int) : Int :=
  let v : Int := if neg then -(m : Int) else m
  if 0 ≤ e then v * 2 ^ e.toNat else v / 2 ^ (-e).toNat

/-! ### FP32 and BF16 operations on codes (R77) -/

def f32 (w : Nat) : FVal := fp32.decode w
def f32add (a b : Nat) : Nat := fp32.encode ((f32 a).add (f32 b))
def f32sub (a b : Nat) : Nat := fp32.encode ((f32 a).add (f32 b).neg)
def f32mul (a b : Nat) : Nat := fp32.encode ((f32 a).mul (f32 b))
def f32div (a b : Nat) : Nat := fp32.encode ((f32 a).div (f32 b))
def f32min (a b : Nat) : Nat := fp32.encode ((f32 a).min (f32 b))
def f32max (a b : Nat) : Nat := fp32.encode ((f32 a).max (f32 b))
/-- a × b + c with one rounding. -/
def f32fma (a b c : Nat) : Nat := fp32.encode (((f32 a).mul (f32 b)).add (f32 c))

/-! ### The special functions (R78) -/

/-- The integer square root, bit by bit. -/
def isqrtGo (n : Nat) : Nat → Nat → Nat
  | 0, r => r
  | k + 1, r => isqrtGo n k (if (r + 2 ^ k) * (r + 2 ^ k) ≤ n then r + 2 ^ k else r)

def isqrt (n : Nat) : Nat := isqrtGo n (blen n / 2 + 1) 0

/-- ln 2 in units of 2⁻¹⁶⁰, rounded down. -/
def ln2Fix : Int := 1013035739299659071135698605846798551586536899366

/-- Σ r^k / k! for k below n, in units of 2⁻¹⁶⁰: the k-th term and the sum so far are carried along. -/
def expSeries (r : Int) : Nat → Nat → Int → Int → Int
  | 0, _, _, acc => acc
  | n + 1, k, term, acc => expSeries r n (k + 1) (term * r / 2 ^ 160 / (k + 1 : Nat)) (acc + term)

/-- e^x of a finite x, to 150 bits with a sticky last bit; x = 0 is exact. -/
def expFin (neg : Bool) (m : Nat) (e : Int) : FVal :=
  if m = 0 then .fin false 1 0
  else if 8 < e + blen m then (if neg then .fin false 1 (-400) else .fin false 1 400)
  else
    let x : Int := sigAt neg m e (-160)
    let n := (x + ln2Fix / 2) / ln2Fix
    let r := x - n * ln2Fix
    let v := expSeries r 44 0 (2 ^ 160) 0
    .fin false (2 * v.toNat + 1) (n - 161)

/-- Σ z^(2i+1) / (2i+1), in units of 2⁻¹⁶⁰. -/
def atanhSeries (z2 : Int) : Nat → Nat → Int → Int → Int
  | 0, _, _, acc => acc
  | n + 1, i, pow, acc => atanhSeries z2 n (i + 1) (pow * z2 / 2 ^ 160) (acc + pow / (2 * i + 1 : Nat))

/-- ln of a positive finite value other than 1, to 130 bits with a sticky last bit. -/
def logFin (m : Nat) (e : Int) : FVal :=
  let k : Int := e + blen m - 1
  let y : Int := (m : Int) * 2 ^ (160 - (blen m - 1))
  let z := (y - 2 ^ 160) * 2 ^ 160 / (y + 2 ^ 160)
  let v := k * ln2Fix + 2 * atanhSeries (z * z / 2 ^ 160) 60 0 z 0
  .fin (decide (v < 0)) (2 * v.natAbs + 1) (-161)

/-- exp (R78). -/
def f32exp (w : Nat) : Nat :=
  match f32 w with
  | .nan => fp32.nanCode
  | .inf true => 0
  | .inf false => fp32.encode (.inf false)
  | .fin s m e => fp32.encode (expFin s m e)

/-- log (R78). -/
def f32log (w : Nat) : Nat :=
  match f32 w with
  | .nan => fp32.nanCode
  | .inf true => fp32.nanCode
  | .inf false => fp32.encode (.inf false)
  | .fin s m e =>
    if m = 0 then fp32.encode (.inf true)
    else if s then fp32.nanCode
    else if (f32 w).eq (.fin false 1 0) then 0
    else fp32.encode (logFin m e)

/-- reciprocal (R78). -/
def f32rcp (w : Nat) : Nat :=
  match f32 w with
  | .nan => fp32.nanCode
  | v => fp32.encode (FVal.div (.fin false 1 0) v)

/-- reciprocal square root (R78). -/
def f32rsqrt (w : Nat) : Nat :=
  match f32 w with
  | .nan => fp32.nanCode
  | .inf true => fp32.nanCode
  | .inf false => 0
  | .fin s m e =>
    if m = 0 then fp32.encode (.inf s)
    else if s then fp32.nanCode
    else
      let m' := if e % 2 = 0 then m else 2 * m
      let j := if e % 2 = 0 then e / 2 else (e - 1) / 2
      let q := 2 ^ 200 / m'
      let r := isqrt q
      let exact := decide (q * m' = 2 ^ 200 ∧ r * r = q)
      fp32.encode (.fin false (2 * r + (if exact then 0 else 1)) (-100 - j - 1))

/-- Sum of FP32 codes by the fixed pairwise tree: positions (0, 1), (2, 3) and so on first (R63, R104). -/
def pairUp (f : Nat → Nat → Nat) : List Nat → List Nat
  | a :: b :: t => f a b :: pairUp f t
  | l => l

/-- Reduce a list of 2^n codes by the pairwise tree of n levels. -/
def treeReduce (f : Nat → Nat → Nat) : Nat → List Nat → Nat
  | 0, l => l.headD 0
  | n + 1, l => treeReduce f n (pairUp f l)

end Sys2Proof.Machine
end

