-- ==== Sys2Proof/Config.lean ====
section
/-! DEFINITION. What the spec leaves open: free values.  Each is a constant without a body, applied to the model's own
counter of State (field `free`) or to operands, so that no proof can see a value of it. -/

namespace Sys2Proof.Machine.Config

/-- The TYPE of a fault-log entry written at a correctable-error threshold (R179): R556 lists no type for it. -/
opaque ceThrLogType : Nat

/-- The contents of a feed-buffer word read by the debug port after matrix commands have used it (R44): core, uses, word. -/
opaque feedWord : Nat → Nat → Nat → BitVec 32

/-- CLK_CORE cycles that a plan word stood stalled (R124), by core and words issued before it; that an MMUL waited for feed A or feed B
(R85), by core and commands before it; and that a guarded read has waited so far (R145), by core and count: the model has no
cycles of a core. -/
opaque stallCycles : Nat → Nat → BitVec 64
opaque feedStalls : Nat → Nat → BitVec 64
opaque guardCycles : Nat → Nat → BitVec 16

/-- The word index recorded with a plan fault that belongs to no command of the core, such as an arrival (R93). -/
opaque arrivalFaultWord : Nat → BitVec 24

/-- A byte of host memory that a block of the device reads: which read, and the address (R428: host memory is outside the
device). -/
opaque hostByte : Nat → Nat → BitVec 8

/-- A sample of CROPRS at a point that is not finite (R115 gives floor no value there). -/
opaque cropSample : Nat → BitVec 32

/-- What NMS leaves in a byte of its working space (R117): which run, and the byte. -/
opaque nmsScratch : Nat → Nat → BitVec 8

/-- What an ATTN leaves in its working space (R190): accumulator word, vector lane, their poison marks, and a byte of a
stage bank; by run and place. -/
opaque attnAcc : Nat → Nat → BitVec 32
opaque attnLane : Nat → Nat → BitVec 32
opaque attnMark : Nat → Nat → Bool
opaque attnStage : Nat → Nat → BitVec 8

/-- A component of a camera pixel that its data type does not deliver to a context of another CFA (R229): which. -/
opaque preComp : Nat → Nat

/-- A byte of an output row of PRE between its last element and ROW_PITCH (R223): which row written, and the byte. -/
opaque rowPad : Nat → Nat → BitVec 8

/-- The fields of a bucket entry, whose places in its 64 B R248 does not give: 0 EN, 1 H, 2 W, 3 B, 4 NBATCH, 5 base, 6 stride,
7 release word, 8 HOLD_SPAN, 9 TIMEOUT. -/
opaque bucketField : Nat → BitVec 512 → Nat

/-- A completion record of PRE: R250 gives its contents and not their places. -/
opaque preRecord : PreDone → BitVec 512

/-- The codecs of R238, which the spec takes from their own standards: is a unit a random access point, does a stream (its
units since the last restart) use an unsupported feature, and the pictures its last unit releases. -/
opaque decRap : Nat → List (BitVec 8) → Bool
opaque decUnsupported : Nat → List (List (BitVec 8)) → Bool
opaque decPics : Nat → Bool → Bool → List (List (BitVec 8)) → List DecPic

/-- What decoding leaves in the reference slots of a stream (R239). -/
opaque decDpb : Nat → Nat → BitVec 8

/-- A quotient of the solver whose stored divisor is 0 (R261): numerator and exponent of its role. -/
opaque solDivZero : Int → Int → BitVec 32

/-- What a solver job leaves in its scratch region beside the status bytes (R265). -/
opaque solScratch : Nat → Nat → BitVec 8

/-- MINRES after k iterations (R263: the Milic reference model gives its iterates), of the 16 exponents, row pointers, column
indices, values, right-hand side and first iterate: the iterate, RES, how it ends (0 goes on, 1 converged, 2 breakdown) and
the results saturated so far. -/
opaque minresX : List Int → List Nat → List Nat → List Int → List Int → List Int → Nat → List Int
opaque minresRes : List Int → List Nat → List Nat → List Int → List Int → List Int → Nat → Int
opaque minresEnd : List Int → List Nat → List Nat → List Int → List Int → List Int → Nat → Nat
opaque minresSat : List Int → List Nat → List Nat → List Int → List Int → List Int → Nat → Nat

/-- Bit k of the PRBS15 sequence of a seed (R316 names the polynomial, not which register bit is the output): true for +AMP. -/
opaque prbs15 : Nat → Nat → Bool

/-- The CRC-32C of a run of the gravity workload (R399 names what it exercises, not its commands): which run, and the seed. -/
opaque gravityCrc : Nat → Nat → BitVec 32

/-- The standby partner of another chip, as the manager knows it (R415: SAF_FO_CFG names only a device's own). -/
opaque partnerOf : Nat → BitVec 3

/-- Which chips partition p occupies (R347: the same number on each; no register of one chip says which others). -/
opaque spans : Nat → Nat → Bool

/-- Where a QP's producer word lies (R463 and its registers name no address), by its send ring's base and LOG2SIZE. -/
opaque qpPword : Nat → Nat → Nat

/-- A completion of a QP (R463 gives no layout). -/
opaque roceRecord : RoceDone → BitVec 512

/-- The fault kind of an outbound PCIe read that ends in an error response (R430; R93 names none for it): timed out, or completed with
UR or CA. -/
opaque outboundKind : Bool → BitVec 4

/-- A CAN transmit queue is one-shot (R473 names ONESHOT, and no register of R490 has it): controller, queue. -/
opaque canOneShot : Nat → Nat → Bool

/-- REC after a frame received while it stood above 127 (ISO 11898-1 gives a range, R470): an offset from 119. -/
opaque canRec : Nat → Fin 9

/-- The stamp and TSIDX of a receive record whose frame came out of an AVTPDU (R474 takes them from a controller). -/
opaque acfStamp : Nat → BitVec 64
opaque acfTs : Nat → BitVec 8

/-- The first 8 B of an Ethernet ring slot (R481 gives length and VLAN tag, not their places), and its TSIDX (no register of a
receive ring names a timescale). -/
opaque netHead : Nat → Option (BitVec 16) → BitVec 64
opaque netRxTs : Nat → BitVec 8

/-- The fields of the stream-filtering table, whose places R485 does not give.  Filter: 0 EN, 1 port mask, 2 DMAC, 3 its
wildcard, 4 VID, 5 its wildcard, 6 MAXSDU, 7 GATE, 8 METER, 9 BLOCK_OVS, 10 BLOCKED.  Meter: 0 CIR, 1 EIR, 2 CBS, 3 EBS, 4 CF,
5 DOY.  Gate header: 0 BASE, 1 NENT, 2 CLOSED_INV. -/
opaque psfpFilter : Nat → BitVec 128 → Nat
opaque psfpMeter : Nat → BitVec 256 → Nat
opaque psfpGate : Nat → BitVec 128 → Nat

/-- A completion record of a UART's queue (R486 gives no layout), by descriptor index: sent, or poisoned. -/
opaque serRecord : Nat → Bool → BitVec 256

/-- An entry of a TDM port's output queue (R499 names a buffer and gives no layout): 0 its address, 1 its frames. -/
opaque tdmEntry : Nat → BitVec 512 → Nat

/-- The completion record of a TDM output queue (R499 gives no layout), by descriptor index. -/
opaque tdmDone : Nat → BitVec 256

/-- Where a TDM port puts recorded samples, and how many frames to a record (R499 gives neither): port, record. -/
opaque tdmBuffer : Nat → Nat → BitVec 48
opaque tdmFrames : Nat → Nat → BitVec 16

/-- A record of a TDM receive ring (R499 gives its contents, not their places): stamp, frames, address, LOST. -/
opaque tdmRecord : Nat → Nat → Nat → Bool → BitVec 128

/-- How DATA of a log entry holds the fields that R556 lists for its type (the places are not given): type, fields in order. -/
opaque logData : Nat → List Nat → BitVec 320

/-- The outcome of a self-test that a plain register write of SAF_FT_REQ runs (R406: SAF_FT_REQ carries it as its payload). -/
opaque bistPass : Nat → Bool

/-- LOADREF of a partition whose optional component fails for a boot reason that is none of R121's checks (R551). -/
opaque optRefusal : Nat → BitVec 8

end Sys2Proof.Machine.Config
end

