-- ==== Sys2Proof/Machine/RegNames.lean ====
section
/-! DEFINITION. The named fields of the register space: one definition per field of every register table of the
spec, giving its BAR0 offset and its bits.  A register that the spec gives as an array takes its index.
The file and rule of each register stand in the comment above its fields. -/

namespace Sys2Proof.Machine

-- CORE_ID: 02_core_arithmetic.md R83
def CORE_ID_GROUP (c : Nat) : Fld := ⟨0x2000000 + 0x20000 * c, 30, 24, false⟩
def CORE_ID_REGION (c : Nat) : Fld := ⟨0x2000000 + 0x20000 * c, 22, 20, false⟩
def CORE_ID_PCOL (c : Nat) : Fld := ⟨0x2000000 + 0x20000 * c, 19, 16, false⟩
def CORE_ID_PROW (c : Nat) : Fld := ⟨0x2000000 + 0x20000 * c, 12, 8, false⟩
def CORE_ID_LOGICAL (c : Nat) : Fld := ⟨0x2000000 + 0x20000 * c, 7, 0, false⟩
-- CORE_STATE: 02_core_arithmetic.md R83
def CORE_STATE_POWER (c : Nat) : Fld := ⟨0x2000004 + 0x20000 * c, 17, 16, false⟩
def CORE_STATE_PARTITION (c : Nat) : Fld := ⟨0x2000004 + 0x20000 * c, 11, 8, false⟩
def CORE_STATE_OWNED (c : Nat) : Fld := ⟨0x2000004 + 0x20000 * c, 2, 2, false⟩
def CORE_STATE_STATE (c : Nat) : Fld := ⟨0x2000004 + 0x20000 * c, 1, 0, false⟩
-- CORE_ARITH_CFG: 02_core_arithmetic.md R84
def CORE_ARITH_CFG_OUTSAT_FAULT (c : Nat) : Fld := ⟨0x2000008 + 0x20000 * c, 2, 2, false⟩
def CORE_ARITH_CFG_NAN_FAULT (c : Nat) : Fld := ⟨0x2000008 + 0x20000 * c, 1, 1, false⟩
def CORE_ARITH_CFG_ACCSAT_FAULT (c : Nat) : Fld := ⟨0x2000008 + 0x20000 * c, 0, 0, false⟩
-- CORE_ARITH_STATUS: 02_core_arithmetic.md R84
def CORE_ARITH_STATUS_POISON_OUT (c : Nat) : Fld := ⟨0x200000c + 0x20000 * c, 10, 10, false⟩
def CORE_ARITH_STATUS_CFG_REJ (c : Nat) : Fld := ⟨0x200000c + 0x20000 * c, 9, 9, false⟩
def CORE_ARITH_STATUS_POISON_IN (c : Nat) : Fld := ⟨0x200000c + 0x20000 * c, 8, 8, false⟩
def CORE_ARITH_STATUS_PAR_VREG (c : Nat) : Fld := ⟨0x200000c + 0x20000 * c, 7, 7, false⟩
def CORE_ARITH_STATUS_PAR_ACC (c : Nat) : Fld := ⟨0x200000c + 0x20000 * c, 6, 6, false⟩
def CORE_ARITH_STATUS_PAR_FEED (c : Nat) : Fld := ⟨0x200000c + 0x20000 * c, 5, 5, false⟩
def CORE_ARITH_STATUS_SPARSE_META (c : Nat) : Fld := ⟨0x200000c + 0x20000 * c, 4, 4, false⟩
def CORE_ARITH_STATUS_FP_OVF (c : Nat) : Fld := ⟨0x200000c + 0x20000 * c, 3, 3, false⟩
def CORE_ARITH_STATUS_FP_NAN (c : Nat) : Fld := ⟨0x200000c + 0x20000 * c, 2, 2, false⟩
def CORE_ARITH_STATUS_OUT_SAT (c : Nat) : Fld := ⟨0x200000c + 0x20000 * c, 1, 1, false⟩
def CORE_ARITH_STATUS_ACC_SAT (c : Nat) : Fld := ⟨0x200000c + 0x20000 * c, 0, 0, false⟩
-- CORE_SAT_COUNT: 02_core_arithmetic.md R70
def CORE_SAT_COUNT_COUNT (c : Nat) : Fld := ⟨0x2000010 + 0x20000 * c, 31, 0, false⟩
-- CORE_PAR_COUNT: 02_core_arithmetic.md R80
def CORE_PAR_COUNT_REPEAT (c : Nat) : Fld := ⟨0x2000014 + 0x20000 * c, 31, 24, false⟩
def CORE_PAR_COUNT_VREG (c : Nat) : Fld := ⟨0x2000014 + 0x20000 * c, 23, 16, false⟩
def CORE_PAR_COUNT_ACC (c : Nat) : Fld := ⟨0x2000014 + 0x20000 * c, 15, 8, false⟩
def CORE_PAR_COUNT_FEED (c : Nat) : Fld := ⟨0x2000014 + 0x20000 * c, 7, 0, false⟩
-- CORE_PAR_FIRST: 02_core_arithmetic.md R80
def CORE_PAR_FIRST_VALID (c : Nat) : Fld := ⟨0x2000018 + 0x20000 * c, 31, 31, false⟩
def CORE_PAR_FIRST_OFFSET (c : Nat) : Fld := ⟨0x2000018 + 0x20000 * c, 18, 2, false⟩
def CORE_PAR_FIRST_BUF (c : Nat) : Fld := ⟨0x2000018 + 0x20000 * c, 1, 0, false⟩
-- CORE_MAC_CYCLES: 02_core_arithmetic.md R85
def CORE_MAC_CYCLES_COUNT (c : Nat) : Fld := ⟨0x2000020 + 0x20000 * c, 63, 0, true⟩
-- CORE_FEED_STALLS: 02_core_arithmetic.md R85
def CORE_FEED_STALLS_COUNT (c : Nat) : Fld := ⟨0x2000028 + 0x20000 * c, 63, 0, true⟩
-- CORE_SEQ_STATUS: 03_plans_operators.md R92
def CORE_SEQ_STATUS_STALL (c : Nat) : Fld := ⟨0x2001000 + 0x20000 * c, 23, 20, false⟩
def CORE_SEQ_STATUS_STALL_IDX (c : Nat) : Fld := ⟨0x2001000 + 0x20000 * c, 19, 15, false⟩
def CORE_SEQ_STATUS_V_BUSY (c : Nat) : Fld := ⟨0x2001000 + 0x20000 * c, 14, 14, false⟩
def CORE_SEQ_STATUS_M_BUSY (c : Nat) : Fld := ⟨0x2001000 + 0x20000 * c, 13, 13, false⟩
def CORE_SEQ_STATUS_LOOP_DEPTH (c : Nat) : Fld := ⟨0x2001000 + 0x20000 * c, 12, 10, false⟩
-- CORE_PC: 03_plans_operators.md R86
def CORE_PC_WORD (c : Nat) : Fld := ⟨0x2001004 + 0x20000 * c, 23, 0, false⟩
-- CORE_FAULT: 03_plans_operators.md R93
def CORE_FAULT_VALID (c : Nat) : Fld := ⟨0x2001008 + 0x20000 * c, 31, 31, false⟩
def CORE_FAULT_KIND (c : Nat) : Fld := ⟨0x2001008 + 0x20000 * c, 27, 24, false⟩
def CORE_FAULT_WORD (c : Nat) : Fld := ⟨0x2001008 + 0x20000 * c, 23, 0, false⟩
-- CORE_FAULT_ADDR: 03_plans_operators.md R93
def CORE_FAULT_ADDR_CHIP (c : Nat) : Fld := ⟨0x2001014 + 0x20000 * c, 18, 16, false⟩
def CORE_FAULT_ADDR_ADDR (c : Nat) : Fld := ⟨0x2001010 + 0x20000 * c, 47, 0, true⟩
-- CORE_TAG_BUSY: 03_plans_operators.md R136
def CORE_TAG_BUSY_BUSY (c : Nat) : Fld := ⟨0x2001018 + 0x20000 * c, 31, 0, false⟩
-- CORE_PLAN_ID: 03_plans_operators.md R372
def CORE_PLAN_ID_DIGEST (c : Nat) : Fld := ⟨0x200101c + 0x20000 * c, 31, 0, false⟩
-- CORE_WORDS_ISSUED: 03_plans_operators.md R124
def CORE_WORDS_ISSUED_COUNT (c : Nat) : Fld := ⟨0x2001020 + 0x20000 * c, 63, 0, true⟩
-- CORE_STALL_CYCLES: 03_plans_operators.md R124
def CORE_STALL_CYCLES_COUNT (c : Nat) : Fld := ⟨0x2001028 + 0x20000 * c, 63, 0, true⟩
-- CORE_BIND: 04_memory_movement.md R94
def CORE_BIND_BIND (c : Nat) : Fld := ⟨0x2002000 + 0x20000 * c, 23, 0, false⟩
-- CORE_GUARD_STATUS: 04_memory_movement.md R145
def CORE_GUARD_STATUS_STALLED (c : Nat) : Fld := ⟨0x2002004 + 0x20000 * c, 31, 31, false⟩
def CORE_GUARD_STATUS_WIN (c : Nat) : Fld := ⟨0x2002004 + 0x20000 * c, 27, 24, false⟩
def CORE_GUARD_STATUS_SLOT (c : Nat) : Fld := ⟨0x2002004 + 0x20000 * c, 23, 16, false⟩
def CORE_GUARD_STATUS_CYCLES (c : Nat) : Fld := ⟨0x2002004 + 0x20000 * c, 15, 0, false⟩
-- CORE_GUARD_BYPASS: 04_memory_movement.md R142
def CORE_GUARD_BYPASS_COUNT (c : Nat) : Fld := ⟨0x2002008 + 0x20000 * c, 31, 0, false⟩
-- CORE_CNT: 04_memory_movement.md R139
def CORE_CNT_VALUE (c n : Nat) : Fld := ⟨0x2002080 + 0x20000 * c + 0x4 * n, 31, 0, false⟩
-- CORE_WIN_BASE: 04_memory_movement.md R138
def CORE_WIN_BASE_VALID (c w : Nat) : Fld := ⟨0x2002100 + 0x20000 * c + 0x8 * w, 31, 31, false⟩
def CORE_WIN_BASE_GUARD (c w : Nat) : Fld := ⟨0x2002100 + 0x20000 * c + 0x8 * w, 30, 30, false⟩
def CORE_WIN_BASE_CNT (c w : Nat) : Fld := ⟨0x2002100 + 0x20000 * c + 0x8 * w, 25, 21, false⟩
def CORE_WIN_BASE_OFFSET (c w : Nat) : Fld := ⟨0x2002100 + 0x20000 * c + 0x8 * w, 20, 0, false⟩
-- CORE_WIN_GEOM: 04_memory_movement.md R138
def CORE_WIN_GEOM_SLOTS (c w : Nat) : Fld := ⟨0x2002104 + 0x20000 * c + 0x8 * w, 23, 16, false⟩
def CORE_WIN_GEOM_UNITS (c w : Nat) : Fld := ⟨0x2002104 + 0x20000 * c + 0x8 * w, 14, 0, false⟩
-- CORE_CRD_TGT: 04_memory_movement.md R138
def CORE_CRD_TGT_VALID (c e : Nat) : Fld := ⟨0x2002200 + 0x20000 * c + 0x8 * e, 31, 31, false⟩
def CORE_CRD_TGT_GUARDED (c e : Nat) : Fld := ⟨0x2002200 + 0x20000 * c + 0x8 * e, 30, 30, false⟩
def CORE_CRD_TGT_WCUR (c e : Nat) : Fld := ⟨0x2002200 + 0x20000 * c + 0x8 * e, 29, 15, false⟩
def CORE_CRD_TGT_WIN (c e : Nat) : Fld := ⟨0x2002200 + 0x20000 * c + 0x8 * e, 11, 8, false⟩
def CORE_CRD_TGT_DST (c e : Nat) : Fld := ⟨0x2002200 + 0x20000 * c + 0x8 * e, 7, 0, false⟩
-- CORE_CRD_BAL: 04_memory_movement.md R140
def CORE_CRD_BAL_CREDIT (c e : Nat) : Fld := ⟨0x2002204 + 0x20000 * c + 0x8 * e, 20, 0, false⟩
-- CORE_ECC_STATUS: 05_memory_integrity.md R166
def CORE_ECC_STATUS_THR (c : Nat) : Fld := ⟨0x2003000 + 0x20000 * c, 4, 4, false⟩
def CORE_ECC_STATUS_HARD_CE (c : Nat) : Fld := ⟨0x2003000 + 0x20000 * c, 3, 3, false⟩
def CORE_ECC_STATUS_POISON_SEEN (c : Nat) : Fld := ⟨0x2003000 + 0x20000 * c, 2, 2, false⟩
def CORE_ECC_STATUS_UE (c : Nat) : Fld := ⟨0x2003000 + 0x20000 * c, 1, 1, false⟩
def CORE_ECC_STATUS_CE (c : Nat) : Fld := ⟨0x2003000 + 0x20000 * c, 0, 0, false⟩
-- CORE_ECC_CE: 05_memory_integrity.md R179
def CORE_ECC_CE_COUNT (c : Nat) : Fld := ⟨0x2003004 + 0x20000 * c, 31, 0, false⟩
-- CORE_ECC_UE: 05_memory_integrity.md R179
def CORE_ECC_UE_COUNT (c : Nat) : Fld := ⟨0x2003008 + 0x20000 * c, 31, 0, false⟩
-- CORE_ECC_PS: 05_memory_integrity.md R179
def CORE_ECC_PS_COUNT (c : Nat) : Fld := ⟨0x200300c + 0x20000 * c, 31, 0, false⟩
-- CORE_ECC_FIRST: 05_memory_integrity.md R166
def CORE_ECC_FIRST_VALID (c : Nat) : Fld := ⟨0x2003010 + 0x20000 * c, 31, 31, false⟩
def CORE_ECC_FIRST_OFFSET (c : Nat) : Fld := ⟨0x2003010 + 0x20000 * c, 20, 0, false⟩
-- CORE_SCRUB_POS: 05_memory_integrity.md R174
def CORE_SCRUB_POS_OFFSET (c : Nat) : Fld := ⟨0x2003014 + 0x20000 * c, 20, 0, false⟩
-- MEM_LP_CFG: 04_memory_movement.md R157
def MEM_LP_CFG_DENSITY : Fld := ⟨0x504000, 1, 0, false⟩
-- MEM_LPW_ERR: 04_memory_movement.md R159
def MEM_LPW_ERR_ERR : Fld := ⟨0x504004, 31, 31, false⟩
def MEM_LPW_ERR_WIN : Fld := ⟨0x504004, 7, 4, false⟩
def MEM_LPW_ERR_REASON : Fld := ⟨0x504004, 3, 0, false⟩
-- MEM_LPW_CFG: 04_memory_movement.md R159
def MEM_LPW_CFG_EN (w : Nat) : Fld := ⟨0x504100 + 0x8 * w, 31, 31, false⟩
def MEM_LPW_CFG_OWNER (w : Nat) : Fld := ⟨0x504100 + 0x8 * w, 27, 24, false⟩
def MEM_LPW_CFG_DEV (w : Nat) : Fld := ⟨0x504100 + 0x8 * w, 23, 23, false⟩
def MEM_LPW_CFG_SIZE (w : Nat) : Fld := ⟨0x504100 + 0x8 * w, 21, 16, false⟩
def MEM_LPW_CFG_BASE (w : Nat) : Fld := ⟨0x504100 + 0x8 * w, 13, 8, false⟩
def MEM_LPW_CFG_GRAN (w : Nat) : Fld := ⟨0x504100 + 0x8 * w, 1, 0, false⟩
-- MEM_LPW_MAP: 04_memory_movement.md R159
def MEM_LPW_MAP_CHBASE (w : Nat) : Fld := ⟨0x504104 + 0x8 * w, 21, 16, false⟩
def MEM_LPW_MAP_CHMASK (w : Nat) : Fld := ⟨0x504104 + 0x8 * w, 15, 0, false⟩
-- MEM_EVENT: 05_memory_integrity.md R179
def MEM_EVENT_BIST_FAIL : Fld := ⟨0x500000, 8, 8, false⟩
def MEM_EVENT_FILL_DONE : Fld := ⟨0x500000, 7, 7, false⟩
def MEM_EVENT_CFG_ERR : Fld := ⟨0x500000, 6, 6, false⟩
def MEM_EVENT_TS_DONE : Fld := ⟨0x500000, 5, 5, false⟩
def MEM_EVENT_MESH_LINK : Fld := ⟨0x500000, 4, 4, false⟩
def MEM_EVENT_MESH_CRC : Fld := ⟨0x500000, 3, 3, false⟩
def MEM_EVENT_HARD_CE : Fld := ⟨0x500000, 2, 2, false⟩
def MEM_EVENT_UE : Fld := ⟨0x500000, 1, 1, false⟩
def MEM_EVENT_CE_THR : Fld := ⟨0x500000, 0, 0, false⟩
-- MEM_SCRUB_RATE: 05_memory_integrity.md R174
def MEM_SCRUB_RATE_LP : Fld := ⟨0x500004, 23, 16, false⟩
def MEM_SCRUB_RATE_TUN : Fld := ⟨0x500004, 15, 8, false⟩
def MEM_SCRUB_RATE_CORE : Fld := ⟨0x500004, 7, 0, false⟩
-- MEM_CE_THR: 05_memory_integrity.md R179
def MEM_CE_THR_LP : Fld := ⟨0x500008, 31, 16, false⟩
def MEM_CE_THR_TUN : Fld := ⟨0x500008, 15, 8, false⟩
def MEM_CE_THR_CORE : Fld := ⟨0x500008, 7, 0, false⟩
-- MEM_BIST_STATUS: 05_memory_integrity.md R183
def MEM_BIST_STATUS_DONE : Fld := ⟨0x50000c, 31, 31, false⟩
def MEM_BIST_STATUS_FAIL : Fld := ⟨0x50000c, 30, 30, false⟩
def MEM_BIST_STATUS_CLASS : Fld := ⟨0x50000c, 29, 28, false⟩
def MEM_BIST_STATUS_FAILS : Fld := ⟨0x50000c, 27, 18, false⟩
def MEM_BIST_STATUS_INSTANCE : Fld := ⟨0x50000c, 8, 0, false⟩
-- MEM_LP_FILL: 05_memory_integrity.md R182
def MEM_LP_FILL_DONE : Fld := ⟨0x500010, 31, 31, false⟩
def MEM_LP_FILL_FILLED : Fld := ⟨0x500010, 6, 0, false⟩
-- MEM_INJ_CTL: 05_memory_integrity.md R184
def MEM_INJ_CTL_ARM : Fld := ⟨0x500014, 31, 31, false⟩
def MEM_INJ_CTL_MODE : Fld := ⟨0x500014, 30, 29, false⟩
def MEM_INJ_CTL_BIT : Fld := ⟨0x500014, 22, 16, false⟩
-- MEM_INJ_ADDR: 05_memory_integrity.md R184
def MEM_INJ_ADDR_ADDR : Fld := ⟨0x500018, 47, 0, true⟩
-- MEM_UE_FIRST: 05_memory_integrity.md R179
def MEM_UE_FIRST_VALID : Fld := ⟨0x500024, 31, 31, false⟩
def MEM_UE_FIRST_CH : Fld := ⟨0x500024, 30, 30, false⟩
def MEM_UE_FIRST_CHAN : Fld := ⟨0x500024, 19, 16, false⟩
def MEM_UE_FIRST_ADDR : Fld := ⟨0x500020, 47, 0, true⟩
-- MEM_TS_BASE: 05_memory_integrity.md R177
def MEM_TS_BASE_ADDR (t : Nat) : Fld := ⟨0x500100 + 0x20 * t, 47, 0, true⟩
-- MEM_TS_LEN: 05_memory_integrity.md R177
def MEM_TS_LEN_GRANULES (t : Nat) : Fld := ⟨0x500108 + 0x20 * t, 30, 0, false⟩
-- MEM_TS_CTL: 05_memory_integrity.md R177
def MEM_TS_CTL_GO (t : Nat) : Fld := ⟨0x50010c + 0x20 * t, 31, 31, false⟩
def MEM_TS_CTL_DONE (t : Nat) : Fld := ⟨0x50010c + 0x20 * t, 30, 30, false⟩
def MEM_TS_CTL_CLASS (t : Nat) : Fld := ⟨0x50010c + 0x20 * t, 29, 28, false⟩
def MEM_TS_CTL_ERR (t : Nat) : Fld := ⟨0x50010c + 0x20 * t, 27, 25, false⟩
def MEM_TS_CTL_RATE (t : Nat) : Fld := ⟨0x50010c + 0x20 * t, 4, 0, false⟩
-- MEM_TS_OUT: 05_memory_integrity.md R177
def MEM_TS_OUT_ADDR (t : Nat) : Fld := ⟨0x500110 + 0x20 * t, 47, 0, true⟩
-- MEM_TUN_CE: 05_memory_integrity.md R179
def MEM_TUN_CE_COUNT (s : Nat) : Fld := ⟨0x501000 + 0x10 * s, 31, 0, false⟩
-- MEM_TUN_UE: 05_memory_integrity.md R179
def MEM_TUN_UE_COUNT (s : Nat) : Fld := ⟨0x501004 + 0x10 * s, 31, 0, false⟩
-- MEM_TUN_PS: 05_memory_integrity.md R179
def MEM_TUN_PS_COUNT (s : Nat) : Fld := ⟨0x501008 + 0x10 * s, 31, 0, false⟩
-- MEM_TUN_ST: 05_memory_integrity.md R179
def MEM_TUN_ST_THR (s : Nat) : Fld := ⟨0x50100c + 0x10 * s, 4, 4, false⟩
def MEM_TUN_ST_HARD_CE (s : Nat) : Fld := ⟨0x50100c + 0x10 * s, 3, 3, false⟩
def MEM_TUN_ST_POISON_SEEN (s : Nat) : Fld := ⟨0x50100c + 0x10 * s, 2, 2, false⟩
def MEM_TUN_ST_UE (s : Nat) : Fld := ⟨0x50100c + 0x10 * s, 1, 1, false⟩
def MEM_TUN_ST_CE (s : Nat) : Fld := ⟨0x50100c + 0x10 * s, 0, 0, false⟩
-- MEM_LP_CE: 05_memory_integrity.md R179
def MEM_LP_CE_COUNT (ch : Nat) : Fld := ⟨0x502000 + 0x10 * ch, 31, 0, false⟩
-- MEM_LP_UE: 05_memory_integrity.md R179
def MEM_LP_UE_COUNT (ch : Nat) : Fld := ⟨0x502004 + 0x10 * ch, 31, 0, false⟩
-- MEM_LP_PS: 05_memory_integrity.md R179
def MEM_LP_PS_COUNT (ch : Nat) : Fld := ⟨0x502008 + 0x10 * ch, 31, 0, false⟩
-- MEM_LP_ST: 05_memory_integrity.md R179
def MEM_LP_ST_THR (ch : Nat) : Fld := ⟨0x50200c + 0x10 * ch, 4, 4, false⟩
def MEM_LP_ST_HARD_CE (ch : Nat) : Fld := ⟨0x50200c + 0x10 * ch, 3, 3, false⟩
def MEM_LP_ST_POISON_SEEN (ch : Nat) : Fld := ⟨0x50200c + 0x10 * ch, 2, 2, false⟩
def MEM_LP_ST_UE (ch : Nat) : Fld := ⟨0x50200c + 0x10 * ch, 1, 1, false⟩
def MEM_LP_ST_CE (ch : Nat) : Fld := ⟨0x50200c + 0x10 * ch, 0, 0, false⟩
-- PART_RPT_BASE: 03_plans_operators.md R111
def PART_RPT_BASE_ADDR (p : Nat) : Fld := ⟨0x601048 + 0x100 * p, 47, 0, true⟩
-- PART_RPT_CFG: 03_plans_operators.md R111
def PART_RPT_CFG_EN (p : Nat) : Fld := ⟨0x601050 + 0x100 * p, 31, 31, false⟩
def PART_RPT_CFG_LOG2SIZE (p : Nat) : Fld := ⟨0x601050 + 0x100 * p, 20, 16, false⟩
def PART_RPT_CFG_NEN (p : Nat) : Fld := ⟨0x601050 + 0x100 * p, 15, 15, false⟩
def PART_RPT_CFG_CNT (p : Nat) : Fld := ⟨0x601050 + 0x100 * p, 12, 8, false⟩
def PART_RPT_CFG_CORE (p : Nat) : Fld := ⟨0x601050 + 0x100 * p, 7, 0, false⟩
-- PART_RPT_EVT: 03_plans_operators.md R111
def PART_RPT_EVT_EEN (p : Nat) : Fld := ⟨0x601054 + 0x100 * p, 15, 15, false⟩
def PART_RPT_EVT_ECNT (p : Nat) : Fld := ⟨0x601054 + 0x100 * p, 12, 8, false⟩
def PART_RPT_EVT_ECORE (p : Nat) : Fld := ⟨0x601054 + 0x100 * p, 7, 0, false⟩
-- PART_RPT_WIDX: 03_plans_operators.md R111
def PART_RPT_WIDX_COUNT (p : Nat) : Fld := ⟨0x601058 + 0x100 * p, 31, 0, false⟩
-- PART_RPT_STAT: 03_plans_operators.md R112
def PART_RPT_STAT_EVT (p : Nat) : Fld := ⟨0x60105c + 0x100 * p, 31, 31, false⟩
def PART_RPT_STAT_DISCARD (p : Nat) : Fld := ⟨0x60105c + 0x100 * p, 15, 0, false⟩
-- PART_RPT_RADDR: 03_plans_operators.md R111
def PART_RPT_RADDR_ADDR (p : Nat) : Fld := ⟨0x601060 + 0x100 * p, 47, 0, true⟩
-- PART_EVENT: 11_partitions_latency.md R370
def PART_EVENT_FAULT : Fld := ⟨0x600000, 31, 16, false⟩
def PART_EVENT_LOADREF : Fld := ⟨0x600000, 3, 3, false⟩
def PART_EVENT_RESET_DONE : Fld := ⟨0x600000, 2, 2, false⟩
def PART_EVENT_HWCHK : Fld := ⟨0x600000, 1, 1, false⟩
def PART_EVENT_CFG_ERR : Fld := ⟨0x600000, 0, 0, false⟩
-- PART_SLOT_CFG: 11_partitions_latency.md R355
def PART_SLOT_CFG_EN : Fld := ⟨0x600004, 31, 31, false⟩
def PART_SLOT_CFG_TS : Fld := ⟨0x600004, 30, 28, false⟩
def PART_SLOT_CFG_SLOT_LEN : Fld := ⟨0x600004, 19, 0, false⟩
-- PART_SLOT_PHASE: 11_partitions_latency.md R355
def PART_SLOT_PHASE_PHASE : Fld := ⟨0x600008, 63, 0, true⟩
-- PART_CORE_OWN: 11_partitions_latency.md R344
def PART_CORE_OWN_OWN (w : Nat) : Fld := ⟨0x600010 + 0x4 * w, 31, 0, false⟩
-- PART_CORE_EN: 11_partitions_latency.md R344
def PART_CORE_EN_EN (w : Nat) : Fld := ⟨0x600090 + 0x4 * w, 31, 0, false⟩
-- PART_TUN_OWN: 11_partitions_latency.md R344
def PART_TUN_OWN_OWN (i : Nat) : Fld := ⟨0x6000b0 + 0x4 * i, 31, 0, false⟩
-- PART_TUN_EN: 11_partitions_latency.md R344
def PART_TUN_EN_EN : Fld := ⟨0x6000b8, 15, 0, false⟩
-- PART_CFG: 11_partitions_latency.md R349
def PART_CFG_EN (p : Nat) : Fld := ⟨0x601000 + 0x100 * p, 31, 31, false⟩
def PART_CFG_CLASS (p : Nat) : Fld := ⟨0x601000 + 0x100 * p, 30, 29, false⟩
def PART_CFG_AUTORESET (p : Nat) : Fld := ⟨0x601000 + 0x100 * p, 28, 28, false⟩
def PART_CFG_AUTORELOAD (p : Nat) : Fld := ⟨0x601000 + 0x100 * p, 27, 27, false⟩
-- PART_CTL: 11_partitions_latency.md R360
def PART_CTL_RESET (p : Nat) : Fld := ⟨0x601004 + 0x100 * p, 31, 31, false⟩
-- PART_STATUS: 11_partitions_latency.md R356
def PART_STATUS_STATE (p : Nat) : Fld := ⟨0x601008 + 0x100 * p, 31, 29, false⟩
def PART_STATUS_LOADREF (p : Nat) : Fld := ⟨0x601008 + 0x100 * p, 23, 16, false⟩
def PART_STATUS_NCORES (p : Nat) : Fld := ⟨0x601008 + 0x100 * p, 8, 0, false⟩
-- PART_FAULT: 11_partitions_latency.md R358
def PART_FAULT_VALID (p : Nat) : Fld := ⟨0x60100c + 0x100 * p, 31, 31, false⟩
def PART_FAULT_KIND (p : Nat) : Fld := ⟨0x60100c + 0x100 * p, 27, 24, false⟩
def PART_FAULT_SOURCE (p : Nat) : Fld := ⟨0x60100c + 0x100 * p, 8, 0, false⟩
-- PART_FAULT_ADDR: 11_partitions_latency.md R358
def PART_FAULT_ADDR_CHIP (p : Nat) : Fld := ⟨0x601014 + 0x100 * p, 18, 16, false⟩
def PART_FAULT_ADDR_ADDR (p : Nat) : Fld := ⟨0x601010 + 0x100 * p, 47, 0, true⟩
-- PART_LP_CHMASK: 11_partitions_latency.md R349
def PART_LP_CHMASK_MASK (p : Nat) : Fld := ⟨0x601018 + 0x100 * p, 15, 0, false⟩
-- PART_TUN_RD: 11_partitions_latency.md R348
def PART_TUN_RD_MASK (p : Nat) : Fld := ⟨0x60101c + 0x100 * p, 15, 0, false⟩
-- PART_TB_REQ: 11_partitions_latency.md R353
def PART_TB_REQ_DEPTH (p : Nat) : Fld := ⟨0x601020 + 0x100 * p, 23, 16, false⟩
def PART_TB_REQ_RATE (p : Nat) : Fld := ⟨0x601020 + 0x100 * p, 8, 0, false⟩
-- PART_TB_CRD: 11_partitions_latency.md R353
def PART_TB_CRD_DEPTH (p : Nat) : Fld := ⟨0x601024 + 0x100 * p, 23, 16, false⟩
def PART_TB_CRD_RATE (p : Nat) : Fld := ⟨0x601024 + 0x100 * p, 8, 0, false⟩
-- PART_SLOTMASK: 11_partitions_latency.md R355
def PART_SLOTMASK_MASK (p : Nat) : Fld := ⟨0x601028 + 0x100 * p, 63, 0, true⟩
-- PART_WAKE_BUDGET: 11_partitions_latency.md R369
def PART_WAKE_BUDGET_US (p : Nat) : Fld := ⟨0x601030 + 0x100 * p, 19, 0, false⟩
-- PART_FAULT_COUNT: 11_partitions_latency.md R358
def PART_FAULT_COUNT_LATE_RSP (p : Nat) : Fld := ⟨0x601034 + 0x100 * p, 31, 16, false⟩
def PART_FAULT_COUNT_FAULTS (p : Nat) : Fld := ⟨0x601034 + 0x100 * p, 15, 0, false⟩
-- PART_DET_CFG: 12_determinism.md R381
def PART_DET_CFG_RELAXED (p : Nat) : Fld := ⟨0x601038 + 0x100 * p, 31, 31, false⟩
-- PART_DET_STAT: 12_determinism.md R383
def PART_DET_STAT_TIMEOUT (p : Nat) : Fld := ⟨0x60103c + 0x100 * p, 2, 2, false⟩
def PART_DET_STAT_STALE (p : Nat) : Fld := ⟨0x60103c + 0x100 * p, 1, 1, false⟩
def PART_DET_STAT_CHOICE (p : Nat) : Fld := ⟨0x60103c + 0x100 * p, 0, 0, false⟩
-- DET_CHOICES: 12_determinism.md R383
def DET_CHOICES_COUNT (p : Nat) : Fld := ⟨0x601040 + 0x100 * p, 63, 0, true⟩
-- ING_EVENT: 07_ingest_video.md R217
def ING_EVENT_MISSING : Fld := ⟨0x800000, 3, 3, false⟩
def ING_EVENT_VERDICT : Fld := ⟨0x800000, 2, 2, false⟩
def ING_EVENT_PORT_ERR : Fld := ⟨0x800000, 1, 1, false⟩
def ING_EVENT_CFG_REJ : Fld := ⟨0x800000, 0, 0, false⟩
-- ING_PORT_CFG: 07_ingest_video.md R213
def ING_PORT_CFG_EN (p : Nat) : Fld := ⟨0x800100 + 0x10 * p, 31, 31, false⟩
def ING_PORT_CFG_PHY (p : Nat) : Fld := ⟨0x800100 + 0x10 * p, 30, 30, false⟩
def ING_PORT_CFG_LANES (p : Nat) : Fld := ⟨0x800100 + 0x10 * p, 29, 28, false⟩
def ING_PORT_CFG_DESKEW (p : Nat) : Fld := ⟨0x800100 + 0x10 * p, 27, 27, false⟩
def ING_PORT_CFG_RATE (p : Nat) : Fld := ⟨0x800100 + 0x10 * p, 12, 0, false⟩
-- ING_PORT_STAT: 07_ingest_video.md R216
def ING_PORT_STAT_LOCK (p : Nat) : Fld := ⟨0x800104 + 0x10 * p, 31, 31, false⟩
def ING_PORT_STAT_DT_DROP (p : Nat) : Fld := ⟨0x800104 + 0x10 * p, 3, 3, false⟩
def ING_PORT_STAT_CRC (p : Nat) : Fld := ⟨0x800104 + 0x10 * p, 2, 2, false⟩
def ING_PORT_STAT_HDR_UNCORR (p : Nat) : Fld := ⟨0x800104 + 0x10 * p, 1, 1, false⟩
def ING_PORT_STAT_HDR_CORR (p : Nat) : Fld := ⟨0x800104 + 0x10 * p, 0, 0, false⟩
-- ING_PORT_ERRCNT: 07_ingest_video.md R214
def ING_PORT_ERRCNT_UNCORR (p : Nat) : Fld := ⟨0x800108 + 0x10 * p, 31, 16, false⟩
def ING_PORT_ERRCNT_CORR (p : Nat) : Fld := ⟨0x800108 + 0x10 * p, 15, 0, false⟩
-- ING_STR_CFG: 07_ingest_video.md R215
def ING_STR_CFG_EN (s : Nat) : Fld := ⟨0x801000 + 0x40 * s, 31, 31, false⟩
def ING_STR_CFG_LSMODE (s : Nat) : Fld := ⟨0x801000 + 0x40 * s, 30, 30, false⟩
def ING_STR_CFG_TS (s : Nat) : Fld := ⟨0x801000 + 0x40 * s, 29, 27, false⟩
def ING_STR_CFG_CTX1_EN (s : Nat) : Fld := ⟨0x801000 + 0x40 * s, 23, 23, false⟩
def ING_STR_CFG_CTX1 (s : Nat) : Fld := ⟨0x801000 + 0x40 * s, 22, 16, false⟩
def ING_STR_CFG_CTX0_EN (s : Nat) : Fld := ⟨0x801000 + 0x40 * s, 15, 15, false⟩
def ING_STR_CFG_CTX0 (s : Nat) : Fld := ⟨0x801000 + 0x40 * s, 14, 8, false⟩
def ING_STR_CFG_DT (s : Nat) : Fld := ⟨0x801000 + 0x40 * s, 5, 0, false⟩
-- ING_STR_GEOM: 07_ingest_video.md R215
def ING_STR_GEOM_HEIGHT (s : Nat) : Fld := ⟨0x801004 + 0x40 * s, 31, 16, false⟩
def ING_STR_GEOM_WIDTH (s : Nat) : Fld := ⟨0x801004 + 0x40 * s, 15, 0, false⟩
-- ING_STR_PERIOD: 07_ingest_video.md R235
def ING_STR_PERIOD_VALUE (s : Nat) : Fld := ⟨0x801008 + 0x40 * s, 31, 0, false⟩
-- ING_STR_TOL: 07_ingest_video.md R235
def ING_STR_TOL_VALUE (s : Nat) : Fld := ⟨0x80100c + 0x40 * s, 31, 0, false⟩
-- ING_FRZ_CFG: 07_ingest_video.md R233
def ING_FRZ_CFG_HASH_EN (s : Nat) : Fld := ⟨0x801010 + 0x40 * s, 31, 31, false⟩
def ING_FRZ_CFG_EMB_EN (s : Nat) : Fld := ⟨0x801010 + 0x40 * s, 30, 30, false⟩
def ING_FRZ_CFG_EMB_BE (s : Nat) : Fld := ⟨0x801010 + 0x40 * s, 29, 29, false⟩
def ING_FRZ_CFG_EMB_W (s : Nat) : Fld := ⟨0x801010 + 0x40 * s, 28, 27, false⟩
def ING_FRZ_CFG_EMB_LINE (s : Nat) : Fld := ⟨0x801010 + 0x40 * s, 26, 23, false⟩
def ING_FRZ_CFG_LSB_DROP (s : Nat) : Fld := ⟨0x801010 + 0x40 * s, 22, 20, false⟩
def ING_FRZ_CFG_NY (s : Nat) : Fld := ⟨0x801010 + 0x40 * s, 19, 14, false⟩
def ING_FRZ_CFG_NX (s : Nat) : Fld := ⟨0x801010 + 0x40 * s, 13, 8, false⟩
-- ING_FRZ_GRID: 07_ingest_video.md R233
def ING_FRZ_GRID_Y0 (s : Nat) : Fld := ⟨0x801014 + 0x40 * s, 31, 16, false⟩
def ING_FRZ_GRID_X0 (s : Nat) : Fld := ⟨0x801014 + 0x40 * s, 15, 0, false⟩
-- ING_FRZ_STEP: 07_ingest_video.md R233
def ING_FRZ_STEP_DY (s : Nat) : Fld := ⟨0x801018 + 0x40 * s, 31, 16, false⟩
def ING_FRZ_STEP_DX (s : Nat) : Fld := ⟨0x801018 + 0x40 * s, 15, 0, false⟩
-- ING_FRZ_ACT: 07_ingest_video.md R236
def ING_FRZ_ACT_EMB_OFF (s : Nat) : Fld := ⟨0x80101c + 0x40 * s, 31, 16, false⟩
def ING_FRZ_ACT_MASK (s : Nat) : Fld := ⟨0x80101c + 0x40 * s, 15, 0, false⟩
-- ING_STR_STAT: 07_ingest_video.md R235
def ING_STR_STAT_MISSING (s : Nat) : Fld := ⟨0x801020 + 0x40 * s, 17, 17, false⟩
def ING_STR_STAT_FLAGS (s : Nat) : Fld := ⟨0x801020 + 0x40 * s, 16, 0, false⟩
-- ING_SYNC_CFG: 07_ingest_video.md R220
def ING_SYNC_CFG_EN (n : Nat) : Fld := ⟨0x802000 + 0x20 * n, 31, 31, false⟩
def ING_SYNC_CFG_POL (n : Nat) : Fld := ⟨0x802000 + 0x20 * n, 30, 30, false⟩
def ING_SYNC_CFG_TS (n : Nat) : Fld := ⟨0x802000 + 0x20 * n, 29, 27, false⟩
def ING_SYNC_CFG_WIDTH (n : Nat) : Fld := ⟨0x802000 + 0x20 * n, 15, 0, false⟩
-- ING_SYNC_PERIOD: 07_ingest_video.md R220
def ING_SYNC_PERIOD_PERIOD (n : Nat) : Fld := ⟨0x802004 + 0x20 * n, 31, 0, false⟩
-- ING_SYNC_START: 07_ingest_video.md R220
def ING_SYNC_START_START (n : Nat) : Fld := ⟨0x802008 + 0x20 * n, 63, 0, true⟩
-- ING_SYNC_STAT: 07_ingest_video.md R221
def ING_SYNC_STAT_SKIPPED (n : Nat) : Fld := ⟨0x802010 + 0x20 * n, 31, 0, false⟩
-- DEC_EVENT: 07_ingest_video.md R237
def DEC_EVENT_ISO : Fld := ⟨0x900000, 5, 5, false⟩
def DEC_EVENT_LINEMEM : Fld := ⟨0x900000, 4, 4, false⟩
def DEC_EVENT_DESC : Fld := ⟨0x900000, 3, 3, false⟩
def DEC_EVENT_POISON : Fld := ⟨0x900000, 2, 2, false⟩
def DEC_EVENT_STALL : Fld := ⟨0x900000, 1, 1, false⟩
def DEC_EVENT_CFG_ERR : Fld := ⟨0x900000, 0, 0, false⟩
-- DEC_Q_CFG: 07_ingest_video.md R237
def DEC_Q_CFG_EN (q : Nat) : Fld := ⟨0x900100 + 0x40 * q, 31, 31, false⟩
def DEC_Q_CFG_PSRC (q : Nat) : Fld := ⟨0x900100 + 0x40 * q, 30, 30, false⟩
def DEC_Q_CFG_OWNER (q : Nat) : Fld := ⟨0x900100 + 0x40 * q, 23, 20, false⟩
def DEC_Q_CFG_POLL (q : Nat) : Fld := ⟨0x900100 + 0x40 * q, 19, 15, false⟩
def DEC_Q_CFG_LOG2SIZE (q : Nat) : Fld := ⟨0x900100 + 0x40 * q, 3, 0, false⟩
-- DEC_Q_PIDX: 07_ingest_video.md R237
def DEC_Q_PIDX_INDEX (q : Nat) : Fld := ⟨0x900104 + 0x40 * q, 31, 0, false⟩
-- DEC_Q_CIDX: 07_ingest_video.md R237
def DEC_Q_CIDX_INDEX (q : Nat) : Fld := ⟨0x900108 + 0x40 * q, 31, 0, false⟩
-- DEC_Q_NOTE: 07_ingest_video.md R237
def DEC_Q_NOTE_EN (q : Nat) : Fld := ⟨0x90010c + 0x40 * q, 15, 15, false⟩
def DEC_Q_NOTE_CNT (q : Nat) : Fld := ⟨0x90010c + 0x40 * q, 12, 8, false⟩
def DEC_Q_NOTE_CORE (q : Nat) : Fld := ⟨0x90010c + 0x40 * q, 7, 0, false⟩
-- DEC_Q_SQ: 07_ingest_video.md R237
def DEC_Q_SQ_ADDR (q : Nat) : Fld := ⟨0x900110 + 0x40 * q, 47, 0, true⟩
-- DEC_Q_CQ: 07_ingest_video.md R237
def DEC_Q_CQ_ADDR (q : Nat) : Fld := ⟨0x900118 + 0x40 * q, 47, 0, true⟩
-- DEC_Q_PWORD: 07_ingest_video.md R237
def DEC_Q_PWORD_ADDR (q : Nat) : Fld := ⟨0x900120 + 0x40 * q, 47, 0, true⟩
-- PRE_EVENT: 07_ingest_video.md R226
def PRE_EVENT_ISO : Fld := ⟨0xa00000, 5, 5, false⟩
def PRE_EVENT_LINEMEM : Fld := ⟨0xa00000, 4, 4, false⟩
def PRE_EVENT_DESC : Fld := ⟨0xa00000, 3, 3, false⟩
def PRE_EVENT_POISON : Fld := ⟨0xa00000, 2, 2, false⟩
def PRE_EVENT_STALL : Fld := ⟨0xa00000, 1, 1, false⟩
def PRE_EVENT_CFG_ERR : Fld := ⟨0xa00000, 0, 0, false⟩
-- PRE_SAT_COUNT: 07_ingest_video.md R232
def PRE_SAT_COUNT_COUNT : Fld := ⟨0xa00004, 31, 0, false⟩
-- PRE_Q_CFG: 07_ingest_video.md R237
def PRE_Q_CFG_EN (q : Nat) : Fld := ⟨0xa00100 + 0x40 * q, 31, 31, false⟩
def PRE_Q_CFG_PSRC (q : Nat) : Fld := ⟨0xa00100 + 0x40 * q, 30, 30, false⟩
def PRE_Q_CFG_OWNER (q : Nat) : Fld := ⟨0xa00100 + 0x40 * q, 23, 20, false⟩
def PRE_Q_CFG_POLL (q : Nat) : Fld := ⟨0xa00100 + 0x40 * q, 19, 15, false⟩
def PRE_Q_CFG_LOG2SIZE (q : Nat) : Fld := ⟨0xa00100 + 0x40 * q, 3, 0, false⟩
-- PRE_Q_PIDX: 07_ingest_video.md R237
def PRE_Q_PIDX_INDEX (q : Nat) : Fld := ⟨0xa00104 + 0x40 * q, 31, 0, false⟩
-- PRE_Q_CIDX: 07_ingest_video.md R237
def PRE_Q_CIDX_INDEX (q : Nat) : Fld := ⟨0xa00108 + 0x40 * q, 31, 0, false⟩
-- PRE_Q_NOTE: 07_ingest_video.md R237
def PRE_Q_NOTE_EN (q : Nat) : Fld := ⟨0xa0010c + 0x40 * q, 15, 15, false⟩
def PRE_Q_NOTE_CNT (q : Nat) : Fld := ⟨0xa0010c + 0x40 * q, 12, 8, false⟩
def PRE_Q_NOTE_CORE (q : Nat) : Fld := ⟨0xa0010c + 0x40 * q, 7, 0, false⟩
-- PRE_Q_SQ: 07_ingest_video.md R237
def PRE_Q_SQ_ADDR (q : Nat) : Fld := ⟨0xa00110 + 0x40 * q, 47, 0, true⟩
-- PRE_Q_CQ: 07_ingest_video.md R237
def PRE_Q_CQ_ADDR (q : Nat) : Fld := ⟨0xa00118 + 0x40 * q, 47, 0, true⟩
-- PRE_Q_PWORD: 07_ingest_video.md R237
def PRE_Q_PWORD_ADDR (q : Nat) : Fld := ⟨0xa00120 + 0x40 * q, 47, 0, true⟩
-- PRE_Q_BKT: 07_ingest_video.md R248
def PRE_Q_BKT_ADDR (q : Nat) : Fld := ⟨0xa00128 + 0x40 * q, 47, 0, true⟩
-- PRE_CTX_CFG: 07_ingest_video.md R228
def PRE_CTX_CFG_EN (x : Nat) : Fld := ⟨0xa01000 + 0x10 * x, 31, 31, false⟩
def PRE_CTX_CFG_PIPE (x : Nat) : Fld := ⟨0xa01000 + 0x10 * x, 26, 24, false⟩
def PRE_CTX_CFG_OWNER (x : Nat) : Fld := ⟨0xa01000 + 0x10 * x, 23, 20, false⟩
-- PRE_CTX_DESC: 07_ingest_video.md R228
def PRE_CTX_DESC_ADDR (x : Nat) : Fld := ⟨0xa01008 + 0x10 * x, 47, 0, true⟩
-- SOL_EVENT: 08_solver.md R275
def SOL_EVENT_SAT : Fld := ⟨0xb00000, 7, 7, false⟩
def SOL_EVENT_NUMFAIL : Fld := ⟨0xb00000, 6, 6, false⟩
def SOL_EVENT_STALE_LIMIT : Fld := ⟨0xb00000, 5, 5, false⟩
def SOL_EVENT_STALE : Fld := ⟨0xb00000, 4, 4, false⟩
def SOL_EVENT_POISON : Fld := ⟨0xb00000, 3, 3, false⟩
def SOL_EVENT_ISO : Fld := ⟨0xb00000, 2, 2, false⟩
def SOL_EVENT_DESC : Fld := ⟨0xb00000, 1, 1, false⟩
def SOL_EVENT_CFG_ERR : Fld := ⟨0xb00000, 0, 0, false⟩
-- SOL_CFG: 08_solver.md R273
def SOL_CFG_STALE_LIMIT : Fld := ⟨0xb00004, 7, 0, false⟩
-- SOL_STATUS: 08_solver.md R267
def SOL_STATUS_BUSY : Fld := ⟨0xb00008, 31, 31, false⟩
def SOL_STATUS_RUNQ : Fld := ⟨0xb00008, 27, 24, false⟩
def SOL_STATUS_SUSP : Fld := ⟨0xb00008, 17, 16, false⟩
-- SOL_STALE_COUNT: 08_solver.md R272
def SOL_STALE_COUNT_COUNT : Fld := ⟨0xb0000c, 31, 0, false⟩
-- SOL_JOBS: 08_solver.md R274
def SOL_JOBS_COUNT : Fld := ⟨0xb00010, 63, 0, true⟩
-- SOL_Q_CFG: 08_solver.md R266
def SOL_Q_CFG_EN (q : Nat) : Fld := ⟨0xb00100 + 0x40 * q, 31, 31, false⟩
def SOL_Q_CFG_PSRC (q : Nat) : Fld := ⟨0xb00100 + 0x40 * q, 30, 30, false⟩
def SOL_Q_CFG_PRIO (q : Nat) : Fld := ⟨0xb00100 + 0x40 * q, 25, 24, false⟩
def SOL_Q_CFG_OWNER (q : Nat) : Fld := ⟨0xb00100 + 0x40 * q, 23, 20, false⟩
def SOL_Q_CFG_POLL (q : Nat) : Fld := ⟨0xb00100 + 0x40 * q, 19, 15, false⟩
def SOL_Q_CFG_LOG2SIZE (q : Nat) : Fld := ⟨0xb00100 + 0x40 * q, 3, 0, false⟩
-- SOL_Q_PIDX: 08_solver.md R266
def SOL_Q_PIDX_INDEX (q : Nat) : Fld := ⟨0xb00104 + 0x40 * q, 31, 0, false⟩
-- SOL_Q_CIDX: 08_solver.md R266
def SOL_Q_CIDX_INDEX (q : Nat) : Fld := ⟨0xb00108 + 0x40 * q, 31, 0, false⟩
-- SOL_Q_NOTE: 08_solver.md R266
def SOL_Q_NOTE_EN (q : Nat) : Fld := ⟨0xb0010c + 0x40 * q, 15, 15, false⟩
def SOL_Q_NOTE_CNT (q : Nat) : Fld := ⟨0xb0010c + 0x40 * q, 12, 8, false⟩
def SOL_Q_NOTE_CORE (q : Nat) : Fld := ⟨0xb0010c + 0x40 * q, 7, 0, false⟩
-- SOL_Q_SQ: 08_solver.md R266
def SOL_Q_SQ_ADDR (q : Nat) : Fld := ⟨0xb00110 + 0x40 * q, 47, 0, true⟩
-- SOL_Q_CQ: 08_solver.md R266
def SOL_Q_CQ_ADDR (q : Nat) : Fld := ⟨0xb00118 + 0x40 * q, 47, 0, true⟩
-- SOL_Q_PWORD: 08_solver.md R266
def SOL_Q_PWORD_ADDR (q : Nat) : Fld := ⟨0xb00120 + 0x40 * q, 47, 0, true⟩
-- SOL_CHAIN: 08_solver.md R273
def SOL_CHAIN_HIT (c : Nat) : Fld := ⟨0xb01000 + 0x4 * c, 8, 8, false⟩
def SOL_CHAIN_RUN (c : Nat) : Fld := ⟨0xb01000 + 0x4 * c, 7, 0, false⟩
-- CTL_EVENT: 09_control_engine.md R318
def CTL_EVENT_SKIPPED : Fld := ⟨0xc00000, 11, 11, false⟩
def CTL_EVENT_CAP_DONE : Fld := ⟨0xc00000, 10, 10, false⟩
def CTL_EVENT_STALL : Fld := ⟨0xc00000, 9, 9, false⟩
def CTL_EVENT_POISON : Fld := ⟨0xc00000, 8, 8, false⟩
def CTL_EVENT_TRAJ_UNDER : Fld := ⟨0xc00000, 7, 7, false⟩
def CTL_EVENT_FBF : Fld := ⟨0xc00000, 6, 6, false⟩
def CTL_EVENT_DUP : Fld := ⟨0xc00000, 5, 5, false⟩
def CTL_EVENT_OVERRUN : Fld := ⟨0xc00000, 4, 4, false⟩
def CTL_EVENT_WARN : Fld := ⟨0xc00000, 3, 3, false⟩
def CTL_EVENT_TRIP : Fld := ⟨0xc00000, 2, 2, false⟩
def CTL_EVENT_ISO : Fld := ⟨0xc00000, 1, 1, false⟩
def CTL_EVENT_CFG_ERR : Fld := ⟨0xc00000, 0, 0, false⟩
-- CTL_LU_STAT: 09_control_engine.md R284
def CTL_LU_STAT_MAXWAIT (n : Nat) : Fld := ⟨0xc00010 + 0x4 * n, 18, 10, false⟩
def CTL_LU_STAT_BOUND (n : Nat) : Fld := ⟨0xc00010 + 0x4 * n, 6, 0, false⟩
-- CTL_CYC_CFG: 09_control_engine.md R281
def CTL_CYC_CFG_EN (k : Nat) : Fld := ⟨0xc00100 + 0x20 * k, 31, 31, false⟩
def CTL_CYC_CFG_TS (k : Nat) : Fld := ⟨0xc00100 + 0x20 * k, 29, 27, false⟩
-- CTL_CYC_PERIOD: 09_control_engine.md R281
def CTL_CYC_PERIOD_PERIOD (k : Nat) : Fld := ⟨0xc00104 + 0x20 * k, 31, 0, false⟩
-- CTL_CYC_START: 09_control_engine.md R281
def CTL_CYC_START_START (k : Nat) : Fld := ⟨0xc00108 + 0x20 * k, 63, 0, true⟩
-- CTL_CYC_STAT: 09_control_engine.md R281
def CTL_CYC_STAT_SKIPPED (k : Nat) : Fld := ⟨0xc00110 + 0x20 * k, 31, 0, false⟩
-- CTL_CH_CFG: 09_control_engine.md R318
def CTL_CH_CFG_EN (h : Nat) : Fld := ⟨0xc01000 + 0x200 * h, 31, 31, false⟩
def CTL_CH_CFG_INJ_PERMIT (h : Nat) : Fld := ⟨0xc01000 + 0x200 * h, 30, 30, false⟩
def CTL_CH_CFG_OWNER (h : Nat) : Fld := ⟨0xc01000 + 0x200 * h, 29, 26, false⟩
def CTL_CH_CFG_LU (h : Nat) : Fld := ⟨0xc01000 + 0x200 * h, 25, 24, false⟩
def CTL_CH_CFG_NSEC (h : Nat) : Fld := ⟨0xc01000 + 0x200 * h, 23, 21, false⟩
def CTL_CH_CFG_WRAP (h : Nat) : Fld := ⟨0xc01000 + 0x200 * h, 20, 20, false⟩
def CTL_CH_CFG_TRIPACT (h : Nat) : Fld := ⟨0xc01000 + 0x200 * h, 19, 18, false⟩
def CTL_CH_CFG_FS_EN (h : Nat) : Fld := ⟨0xc01000 + 0x200 * h, 17, 17, false⟩
def CTL_CH_CFG_MODEL (h : Nat) : Fld := ⟨0xc01000 + 0x200 * h, 16, 16, false⟩
def CTL_CH_CFG_ORDER (h : Nat) : Fld := ⟨0xc01000 + 0x200 * h, 15, 15, false⟩
def CTL_CH_CFG_FBF_ACT (h : Nat) : Fld := ⟨0xc01000 + 0x200 * h, 14, 14, false⟩
def CTL_CH_CFG_TRAJ_ACT (h : Nat) : Fld := ⟨0xc01000 + 0x200 * h, 13, 13, false⟩
def CTL_CH_CFG_OVR_ACT (h : Nat) : Fld := ⟨0xc01000 + 0x200 * h, 12, 12, false⟩
def CTL_CH_CFG_TRIG (h : Nat) : Fld := ⟨0xc01000 + 0x200 * h, 11, 8, false⟩
-- CTL_CH_SRC: 09_control_engine.md R291
def CTL_CH_SRC_SPSRC (h : Nat) : Fld := ⟨0xc01004 + 0x200 * h, 31, 29, false⟩
def CTL_CH_SRC_SPIDX (h : Nat) : Fld := ⟨0xc01004 + 0x200 * h, 28, 24, false⟩
def CTL_CH_SRC_FBSRC (h : Nat) : Fld := ⟨0xc01004 + 0x200 * h, 23, 21, false⟩
def CTL_CH_SRC_FBIDX (h : Nat) : Fld := ⟨0xc01004 + 0x200 * h, 20, 16, false⟩
def CTL_CH_SRC_OMAP (h : Nat) : Fld := ⟨0xc01004 + 0x200 * h, 15, 14, false⟩
def CTL_CH_SRC_PAIR (h : Nat) : Fld := ⟨0xc01004 + 0x200 * h, 13, 9, false⟩
-- CTL_CH_CMD: 09_control_engine.md R306
def CTL_CH_CMD_COMMIT (h : Nat) : Fld := ⟨0xc01008 + 0x200 * h, 2, 2, false⟩
def CTL_CH_CMD_OP (h : Nat) : Fld := ⟨0xc01008 + 0x200 * h, 1, 0, false⟩
-- CTL_CH_STATUS: 09_control_engine.md R306
def CTL_CH_STATUS_STATE (h : Nat) : Fld := ⟨0xc0100c + 0x200 * h, 31, 30, false⟩
def CTL_CH_STATUS_START_AGAINST (h : Nat) : Fld := ⟨0xc0100c + 0x200 * h, 29, 29, false⟩
def CTL_CH_STATUS_WARN (h : Nat) : Fld := ⟨0xc0100c + 0x200 * h, 28, 28, false⟩
def CTL_CH_STATUS_CAUSE (h : Nat) : Fld := ⟨0xc0100c + 0x200 * h, 25, 16, false⟩
def CTL_CH_STATUS_LIMITED (h : Nat) : Fld := ⟨0xc0100c + 0x200 * h, 15, 15, false⟩
def CTL_CH_STATUS_SAT (h : Nat) : Fld := ⟨0xc0100c + 0x200 * h, 14, 14, false⟩
def CTL_CH_STATUS_UNDER (h : Nat) : Fld := ⟨0xc0100c + 0x200 * h, 13, 13, false⟩
def CTL_CH_STATUS_FBFLAG (h : Nat) : Fld := ⟨0xc0100c + 0x200 * h, 12, 12, false⟩
-- CTL_CH_SP: 09_control_engine.md R291
def CTL_CH_SP_VALUE (h : Nat) : Fld := ⟨0xc01010 + 0x200 * h, 31, 0, false⟩
-- CTL_CH_OUT: 09_control_engine.md R288
def CTL_CH_OUT_VALUE (h : Nat) : Fld := ⟨0xc01014 + 0x200 * h, 31, 0, false⟩
-- CTL_CH_RESID: 09_control_engine.md R313
def CTL_CH_RESID_YH (h : Nat) : Fld := ⟨0xc01018 + 0x200 * h, 31, 16, false⟩
def CTL_CH_RESID_RF (h : Nat) : Fld := ⟨0xc01018 + 0x200 * h, 15, 0, false⟩
-- CTL_CH_CNT: 09_control_engine.md R282
def CTL_CH_CNT_OVERRUN (h : Nat) : Fld := ⟨0xc0101c + 0x200 * h, 31, 16, false⟩
def CTL_CH_CNT_SAT (h : Nat) : Fld := ⟨0xc0101c + 0x200 * h, 15, 0, false⟩
-- CTL_CH_TRAJ: 09_control_engine.md R292
def CTL_CH_TRAJ_TS (h : Nat) : Fld := ⟨0xc01024 + 0x200 * h, 26, 24, false⟩
def CTL_CH_TRAJ_LOG2N (h : Nat) : Fld := ⟨0xc01024 + 0x200 * h, 20, 16, false⟩
def CTL_CH_TRAJ_ADDR (h : Nat) : Fld := ⟨0xc01020 + 0x200 * h, 47, 0, true⟩
-- CTL_CH_NOTE: 09_control_engine.md R307
def CTL_CH_NOTE_TDIV (h : Nat) : Fld := ⟨0xc01028 + 0x200 * h, 31, 16, false⟩
def CTL_CH_NOTE_EN (h : Nat) : Fld := ⟨0xc01028 + 0x200 * h, 15, 15, false⟩
def CTL_CH_NOTE_CNT (h : Nat) : Fld := ⟨0xc01028 + 0x200 * h, 12, 8, false⟩
def CTL_CH_NOTE_CORE (h : Nat) : Fld := ⟨0xc01028 + 0x200 * h, 7, 0, false⟩
-- CTL_CH_FSPOS: 09_control_engine.md R309
def CTL_CH_FSPOS_VALUE (h : Nat) : Fld := ⟨0xc0102c + 0x200 * h, 31, 0, false⟩
-- CTL_CH_FSVEL: 09_control_engine.md R309
def CTL_CH_FSVEL_VALUE (h : Nat) : Fld := ⟨0xc01030 + 0x200 * h, 31, 0, false⟩
-- CTL_CH_PARAM: 09_control_engine.md R290
def CTL_CH_PARAM_VALUE (h i : Nat) : Fld := ⟨0xc01100 + 0x200 * h + 0x4 * i, 31, 0, false⟩
-- CTL_QEI_CFG: 09_control_engine.md R294
def CTL_QEI_CFG_EN (n : Nat) : Fld := ⟨0xc09000 + 0x40 * n, 31, 31, false⟩
def CTL_QEI_CFG_DIR (n : Nat) : Fld := ⟨0xc09000 + 0x40 * n, 30, 30, false⟩
def CTL_QEI_CFG_OWNER (n : Nat) : Fld := ⟨0xc09000 + 0x40 * n, 29, 26, false⟩
def CTL_QEI_CFG_FILT (n : Nat) : Fld := ⟨0xc09000 + 0x40 * n, 25, 22, false⟩
def CTL_QEI_CFG_IDXRST (n : Nat) : Fld := ⟨0xc09000 + 0x40 * n, 21, 20, false⟩
def CTL_QEI_CFG_IDXPOL (n : Nat) : Fld := ⟨0xc09000 + 0x40 * n, 19, 19, false⟩
def CTL_QEI_CFG_IDXGATE (n : Nat) : Fld := ⟨0xc09000 + 0x40 * n, 18, 18, false⟩
def CTL_QEI_CFG_VW (n : Nat) : Fld := ⟨0xc09000 + 0x40 * n, 17, 13, false⟩
def CTL_QEI_CFG_STALL (n : Nat) : Fld := ⟨0xc09000 + 0x40 * n, 12, 0, false⟩
-- CTL_QEI_POS: 09_control_engine.md R294
def CTL_QEI_POS_VALUE (n : Nat) : Fld := ⟨0xc09004 + 0x40 * n, 31, 0, false⟩
-- CTL_QEI_VEL: 09_control_engine.md R294
def CTL_QEI_VEL_VALUE (n : Nat) : Fld := ⟨0xc09008 + 0x40 * n, 31, 0, false⟩
-- CTL_QEI_IDXPOS: 09_control_engine.md R295
def CTL_QEI_IDXPOS_VALUE (n : Nat) : Fld := ⟨0xc0900c + 0x40 * n, 31, 0, false⟩
-- CTL_QEI_STAT: 09_control_engine.md R294
def CTL_QEI_STAT_PHASE_CNT (n : Nat) : Fld := ⟨0xc09010 + 0x40 * n, 31, 16, false⟩
def CTL_QEI_STAT_STALLED (n : Nat) : Fld := ⟨0xc09010 + 0x40 * n, 3, 3, false⟩
def CTL_QEI_STAT_STALL (n : Nat) : Fld := ⟨0xc09010 + 0x40 * n, 2, 2, false⟩
def CTL_QEI_STAT_PHASE_ERR (n : Nat) : Fld := ⟨0xc09010 + 0x40 * n, 1, 1, false⟩
def CTL_QEI_STAT_IDX (n : Nat) : Fld := ⟨0xc09010 + 0x40 * n, 0, 0, false⟩
-- CTL_QEI_CMP: 09_control_engine.md R300
def CTL_QEI_CMP_ARMED (n m : Nat) : Fld := ⟨0xc09020 + 0x40 * n + 0x8 * m, 31, 31, false⟩
def CTL_QEI_CMP_DIR (n m : Nat) : Fld := ⟨0xc09020 + 0x40 * n + 0x8 * m, 30, 30, false⟩
def CTL_QEI_CMP_FIRED (n m : Nat) : Fld := ⟨0xc09020 + 0x40 * n + 0x8 * m, 29, 29, false⟩
-- CTL_QEI_TGT: 09_control_engine.md R300
def CTL_QEI_TGT_TGT (n m : Nat) : Fld := ⟨0xc09024 + 0x40 * n + 0x8 * m, 31, 0, false⟩
-- CTL_SDM_CFG: 09_control_engine.md R296
def CTL_SDM_CFG_EN (n : Nat) : Fld := ⟨0xc0a000 + 0x10 * n, 31, 31, false⟩
def CTL_SDM_CFG_CLKOUT (n : Nat) : Fld := ⟨0xc0a000 + 0x10 * n, 30, 30, false⟩
def CTL_SDM_CFG_CKPOL (n : Nat) : Fld := ⟨0xc0a000 + 0x10 * n, 29, 29, false⟩
def CTL_SDM_CFG_OWNER (n : Nat) : Fld := ⟨0xc0a000 + 0x10 * n, 28, 25, false⟩
def CTL_SDM_CFG_OSR (n : Nat) : Fld := ⟨0xc0a000 + 0x10 * n, 24, 22, false⟩
def CTL_SDM_CFG_SYNC (n : Nat) : Fld := ⟨0xc0a000 + 0x10 * n, 21, 18, false⟩
def CTL_SDM_CFG_DIV (n : Nat) : Fld := ⟨0xc0a000 + 0x10 * n, 17, 11, false⟩
def CTL_SDM_CFG_COSR (n : Nat) : Fld := ⟨0xc0a000 + 0x10 * n, 10, 6, false⟩
def CTL_SDM_CFG_TRIPCH (n : Nat) : Fld := ⟨0xc0a000 + 0x10 * n, 5, 0, false⟩
-- CTL_SDM_VAL: 09_control_engine.md R296
def CTL_SDM_VAL_VAL (n : Nat) : Fld := ⟨0xc0a004 + 0x10 * n, 31, 0, false⟩
-- CTL_SDM_CMP: 09_control_engine.md R297
def CTL_SDM_CMP_CEN (n : Nat) : Fld := ⟨0xc0a008 + 0x10 * n, 31, 31, false⟩
def CTL_SDM_CMP_CTRIP (n : Nat) : Fld := ⟨0xc0a008 + 0x10 * n, 30, 30, false⟩
def CTL_SDM_CMP_CHI (n : Nat) : Fld := ⟨0xc0a008 + 0x10 * n, 12, 8, false⟩
def CTL_SDM_CMP_CLO (n : Nat) : Fld := ⟨0xc0a008 + 0x10 * n, 4, 0, false⟩
-- CTL_SDM_STAT: 09_control_engine.md R296
def CTL_SDM_STAT_STUCK (n : Nat) : Fld := ⟨0xc0a00c + 0x10 * n, 3, 3, false⟩
def CTL_SDM_STAT_CLK_LOST (n : Nat) : Fld := ⟨0xc0a00c + 0x10 * n, 2, 2, false⟩
def CTL_SDM_STAT_LO (n : Nat) : Fld := ⟨0xc0a00c + 0x10 * n, 1, 1, false⟩
def CTL_SDM_STAT_HI (n : Nat) : Fld := ⟨0xc0a00c + 0x10 * n, 0, 0, false⟩
-- CTL_PCAP_CFG: 09_control_engine.md R298
def CTL_PCAP_CFG_EN (n : Nat) : Fld := ⟨0xc0a400 + 0x10 * n, 31, 31, false⟩
def CTL_PCAP_CFG_POL (n : Nat) : Fld := ⟨0xc0a400 + 0x10 * n, 30, 30, false⟩
def CTL_PCAP_CFG_OWNER (n : Nat) : Fld := ⟨0xc0a400 + 0x10 * n, 29, 26, false⟩
def CTL_PCAP_CFG_MODE (n : Nat) : Fld := ⟨0xc0a400 + 0x10 * n, 25, 24, false⟩
def CTL_PCAP_CFG_FILT (n : Nat) : Fld := ⟨0xc0a400 + 0x10 * n, 23, 20, false⟩
def CTL_PCAP_CFG_TOUT (n : Nat) : Fld := ⟨0xc0a400 + 0x10 * n, 19, 0, false⟩
-- CTL_PCAP_VAL: 09_control_engine.md R298
def CTL_PCAP_VAL_VAL (n : Nat) : Fld := ⟨0xc0a404 + 0x10 * n, 31, 0, false⟩
-- CTL_PCAP_STAT: 09_control_engine.md R298
def CTL_PCAP_STAT_NOEDGE (n : Nat) : Fld := ⟨0xc0a408 + 0x10 * n, 0, 0, false⟩
-- CTL_ENC_CFG: 09_control_engine.md R299
def CTL_ENC_CFG_EN (n : Nat) : Fld := ⟨0xc0a600 + 0x20 * n, 31, 31, false⟩
def CTL_ENC_CFG_GRAY (n : Nat) : Fld := ⟨0xc0a600 + 0x20 * n, 30, 30, false⟩
def CTL_ENC_CFG_OWNER (n : Nat) : Fld := ⟨0xc0a600 + 0x20 * n, 29, 26, false⟩
def CTL_ENC_CFG_PAR (n : Nat) : Fld := ⟨0xc0a600 + 0x20 * n, 25, 24, false⟩
def CTL_ENC_CFG_SB (n : Nat) : Fld := ⟨0xc0a600 + 0x20 * n, 23, 20, false⟩
def CTL_ENC_CFG_PW (n : Nat) : Fld := ⟨0xc0a600 + 0x20 * n, 19, 14, false⟩
def CTL_ENC_CFG_TRIG (n : Nat) : Fld := ⟨0xc0a600 + 0x20 * n, 13, 10, false⟩
-- CTL_ENC_TIM: 09_control_engine.md R299
def CTL_ENC_TIM_DIV (n : Nat) : Fld := ⟨0xc0a604 + 0x20 * n, 31, 20, false⟩
def CTL_ENC_TIM_SDLY (n : Nat) : Fld := ⟨0xc0a604 + 0x20 * n, 19, 10, false⟩
def CTL_ENC_TIM_TM (n : Nat) : Fld := ⟨0xc0a604 + 0x20 * n, 9, 0, false⟩
-- CTL_ENC_POS: 09_control_engine.md R299
def CTL_ENC_POS_POS (n : Nat) : Fld := ⟨0xc0a608 + 0x20 * n, 39, 0, true⟩
-- CTL_ENC_STAT: 09_control_engine.md R299
def CTL_ENC_STAT_SBITS (n : Nat) : Fld := ⟨0xc0a610 + 0x20 * n, 15, 8, false⟩
def CTL_ENC_STAT_SBERR (n : Nat) : Fld := ⟨0xc0a610 + 0x20 * n, 2, 2, false⟩
def CTL_ENC_STAT_LINE (n : Nat) : Fld := ⟨0xc0a610 + 0x20 * n, 1, 1, false⟩
def CTL_ENC_STAT_PAR (n : Nat) : Fld := ⟨0xc0a610 + 0x20 * n, 0, 0, false⟩
-- CTL_PWM_CFG: 09_control_engine.md R304
def CTL_PWM_CFG_OE (p : Nat) : Fld := ⟨0xc0b000 + 0x20 * p, 31, 31, false⟩
def CTL_PWM_CFG_MODE (p : Nat) : Fld := ⟨0xc0b000 + 0x20 * p, 30, 30, false⟩
def CTL_PWM_CFG_LOAD (p : Nat) : Fld := ⟨0xc0b000 + 0x20 * p, 29, 29, false⟩
def CTL_PWM_CFG_OWNER (p : Nat) : Fld := ⟨0xc0b000 + 0x20 * p, 28, 25, false⟩
def CTL_PWM_CFG_POLH (p : Nat) : Fld := ⟨0xc0b000 + 0x20 * p, 24, 24, false⟩
def CTL_PWM_CFG_POLL (p : Nat) : Fld := ⟨0xc0b000 + 0x20 * p, 23, 23, false⟩
def CTL_PWM_CFG_IDLEPAT (p : Nat) : Fld := ⟨0xc0b000 + 0x20 * p, 22, 21, false⟩
def CTL_PWM_CFG_SAFEPAT (p : Nat) : Fld := ⟨0xc0b000 + 0x20 * p, 20, 19, false⟩
def CTL_PWM_CFG_TRIPIN (p : Nat) : Fld := ⟨0xc0b000 + 0x20 * p, 18, 17, false⟩
def CTL_PWM_CFG_PERIOD (p : Nat) : Fld := ⟨0xc0b000 + 0x20 * p, 15, 0, false⟩
-- CTL_PWM_DT: 09_control_engine.md R302
def CTL_PWM_DT_DTL (p : Nat) : Fld := ⟨0xc0b004 + 0x20 * p, 31, 16, false⟩
def CTL_PWM_DT_DTH (p : Nat) : Fld := ⟨0xc0b004 + 0x20 * p, 15, 0, false⟩
-- CTL_PWM_MIN: 09_control_engine.md R302
def CTL_PWM_MIN_MIN (p : Nat) : Fld := ⟨0xc0b008 + 0x20 * p, 15, 0, false⟩
-- CTL_PWM_CMP: 09_control_engine.md R303
def CTL_PWM_CMP_CMP (p : Nat) : Fld := ⟨0xc0b00c + 0x20 * p, 19, 0, false⟩
-- CTL_PWM_STAT: 09_control_engine.md R305
def CTL_PWM_STAT_PULSE_DROP (p : Nat) : Fld := ⟨0xc0b010 + 0x20 * p, 2, 2, false⟩
def CTL_PWM_STAT_SAFE (p : Nat) : Fld := ⟨0xc0b010 + 0x20 * p, 1, 1, false⟩
def CTL_PWM_STAT_TRIPIN_LATCH (p : Nat) : Fld := ⟨0xc0b010 + 0x20 * p, 0, 0, false⟩
-- CTL_INJ_CFG: 09_control_engine.md R316
def CTL_INJ_CFG_EN (g : Nat) : Fld := ⟨0xc0c000 + 0x20 * g, 31, 31, false⟩
def CTL_INJ_CFG_KIND (g : Nat) : Fld := ⟨0xc0c000 + 0x20 * g, 30, 29, false⟩
def CTL_INJ_CFG_POINT (g : Nat) : Fld := ⟨0xc0c000 + 0x20 * g, 28, 28, false⟩
def CTL_INJ_CFG_CH (g : Nat) : Fld := ⟨0xc0c000 + 0x20 * g, 27, 22, false⟩
def CTL_INJ_CFG_HOLD (g : Nat) : Fld := ⟨0xc0c000 + 0x20 * g, 15, 0, false⟩
-- CTL_INJ_AMP: 09_control_engine.md R316
def CTL_INJ_AMP_VALUE (g : Nat) : Fld := ⟨0xc0c004 + 0x20 * g, 31, 0, false⟩
-- CTL_INJ_F0: 09_control_engine.md R316
def CTL_INJ_F0_VALUE (g : Nat) : Fld := ⟨0xc0c008 + 0x20 * g, 31, 0, false⟩
-- CTL_INJ_F1: 09_control_engine.md R316
def CTL_INJ_F1_VALUE (g : Nat) : Fld := ⟨0xc0c00c + 0x20 * g, 31, 0, false⟩
-- CTL_INJ_LEN: 09_control_engine.md R316
def CTL_INJ_LEN_VALUE (g : Nat) : Fld := ⟨0xc0c010 + 0x20 * g, 31, 0, false⟩
-- CTL_INJ_SEED: 09_control_engine.md R316
def CTL_INJ_SEED_SEED (g : Nat) : Fld := ⟨0xc0c014 + 0x20 * g, 14, 0, false⟩
-- CTL_CAP_CFG: 09_control_engine.md R317
def CTL_CAP_CFG_GO (g : Nat) : Fld := ⟨0xc0c100 + 0x20 * g, 31, 31, false⟩
def CTL_CAP_CFG_TRIG (g : Nat) : Fld := ⟨0xc0c100 + 0x20 * g, 30, 29, false⟩
def CTL_CAP_CFG_CH (g : Nat) : Fld := ⟨0xc0c100 + 0x20 * g, 28, 23, false⟩
def CTL_CAP_CFG_CMPSRC (g : Nat) : Fld := ⟨0xc0c100 + 0x20 * g, 21, 16, false⟩
def CTL_CAP_CFG_SEL3 (g : Nat) : Fld := ⟨0xc0c100 + 0x20 * g, 15, 12, false⟩
def CTL_CAP_CFG_SEL2 (g : Nat) : Fld := ⟨0xc0c100 + 0x20 * g, 11, 8, false⟩
def CTL_CAP_CFG_SEL1 (g : Nat) : Fld := ⟨0xc0c100 + 0x20 * g, 7, 4, false⟩
def CTL_CAP_CFG_SEL0 (g : Nat) : Fld := ⟨0xc0c100 + 0x20 * g, 3, 0, false⟩
-- CTL_CAP_DEC: 09_control_engine.md R317
def CTL_CAP_DEC_PRE (g : Nat) : Fld := ⟨0xc0c104 + 0x20 * g, 31, 16, false⟩
def CTL_CAP_DEC_DEC (g : Nat) : Fld := ⟨0xc0c104 + 0x20 * g, 15, 0, false⟩
-- CTL_CAP_BASE: 09_control_engine.md R317
def CTL_CAP_BASE_BASE (g : Nat) : Fld := ⟨0xc0c108 + 0x20 * g, 47, 0, true⟩
-- CTL_CAP_NSAMP: 09_control_engine.md R317
def CTL_CAP_NSAMP_NSAMP (g : Nat) : Fld := ⟨0xc0c110 + 0x20 * g, 16, 0, false⟩
-- CTL_CAP_STAT: 09_control_engine.md R317
def CTL_CAP_STAT_DONE (g : Nat) : Fld := ⟨0xc0c114 + 0x20 * g, 31, 31, false⟩
def CTL_CAP_STAT_FIRST (g : Nat) : Fld := ⟨0xc0c114 + 0x20 * g, 15, 0, false⟩
-- CTL_CAP_NOTE: 09_control_engine.md R317
def CTL_CAP_NOTE_EN (g : Nat) : Fld := ⟨0xc0c118 + 0x20 * g, 15, 15, false⟩
def CTL_CAP_NOTE_CNT (g : Nat) : Fld := ⟨0xc0c118 + 0x20 * g, 12, 8, false⟩
def CTL_CAP_NOTE_CORE (g : Nat) : Fld := ⟨0xc0c118 + 0x20 * g, 7, 0, false⟩
-- TIM_COUNT: 10_time_events.md R319
def TIM_COUNT_VALUE : Fld := ⟨0x200000, 63, 0, true⟩
-- TIM_EVENT: 10_time_events.md R343
def TIM_EVENT_ALARM_EN : Fld := ⟨0x200008, 5, 5, false⟩
def TIM_EVENT_ALARM : Fld := ⟨0x200008, 4, 4, false⟩
def TIM_EVENT_PPSO_SKIP : Fld := ⟨0x200008, 3, 3, false⟩
def TIM_EVENT_SRV_STEP : Fld := ⟨0x200008, 2, 2, false⟩
def TIM_EVENT_SRV_UNLOCK : Fld := ⟨0x200008, 1, 1, false⟩
def TIM_EVENT_CFG_ERR : Fld := ⟨0x200008, 0, 0, false⟩
-- TIM_SNAP_CTL: 10_time_events.md R343
def TIM_SNAP_CTL_GO : Fld := ⟨0x20000c, 0, 0, false⟩
-- TIM_SNAP_COUNT: 10_time_events.md R343
def TIM_SNAP_COUNT_VALUE : Fld := ⟨0x200010, 63, 0, true⟩
-- TIM_ALARM: 10_time_events.md R343
def TIM_ALARM_VALUE : Fld := ⟨0x200018, 63, 0, true⟩
-- TIM_SNAP_READ: 10_time_events.md R343
def TIM_SNAP_READ_VALUE (n : Nat) : Fld := ⟨0x200020 + 0x8 * n, 63, 0, true⟩
-- TIM_OFFSET: 10_time_events.md R324
def TIM_OFFSET_VALUE (n : Nat) : Fld := ⟨0x200100 + 0x80 * n, 63, 0, true⟩
-- TIM_RATE: 10_time_events.md R323
def TIM_RATE_VALUE (n : Nat) : Fld := ⟨0x200108 + 0x80 * n, 47, 0, true⟩
-- TIM_AT: 10_time_events.md R325
def TIM_AT_VALUE (n : Nat) : Fld := ⟨0x200110 + 0x80 * n, 63, 0, true⟩
-- TIM_TS_CTL: 10_time_events.md R325
def TIM_TS_CTL_COMMIT (n : Nat) : Fld := ⟨0x200118 + 0x80 * n, 31, 31, false⟩
def TIM_TS_CTL_MODE (n : Nat) : Fld := ⟨0x200118 + 0x80 * n, 30, 29, false⟩
def TIM_TS_CTL_AT_EN (n : Nat) : Fld := ⟨0x200118 + 0x80 * n, 28, 28, false⟩
def TIM_TS_CTL_OWNER (n : Nat) : Fld := ⟨0x200118 + 0x80 * n, 27, 24, false⟩
def TIM_TS_CTL_SERVO (n : Nat) : Fld := ⟨0x200118 + 0x80 * n, 23, 23, false⟩
def TIM_TS_CTL_ERR (n : Nat) : Fld := ⟨0x200118 + 0x80 * n, 22, 22, false⟩
-- TIM_TS_STAT: 10_time_events.md R325
def TIM_TS_STAT_LATE (n : Nat) : Fld := ⟨0x20011c + 0x80 * n, 31, 31, false⟩
def TIM_TS_STAT_COMMITS (n : Nat) : Fld := ⟨0x20011c + 0x80 * n, 15, 0, false⟩
-- TIM_READ: 10_time_events.md R322
def TIM_READ_VALUE (n : Nat) : Fld := ⟨0x200120 + 0x80 * n, 63, 0, true⟩
-- TIM_ABASE: 10_time_events.md R322
def TIM_ABASE_VALUE (n : Nat) : Fld := ⟨0x200128 + 0x80 * n, 63, 0, true⟩
-- TIM_AOFF: 10_time_events.md R322
def TIM_AOFF_VALUE (n : Nat) : Fld := ⟨0x200130 + 0x80 * n, 63, 0, true⟩
-- TIM_AFRAC: 10_time_events.md R322
def TIM_AFRAC_VALUE (n : Nat) : Fld := ⟨0x200138 + 0x80 * n, 47, 0, true⟩
-- TIM_ARATE: 10_time_events.md R322
def TIM_ARATE_VALUE (n : Nat) : Fld := ⟨0x200140 + 0x80 * n, 47, 0, true⟩
-- TIM_HIST_BASE: 10_time_events.md R327
def TIM_HIST_BASE_VALUE (n k : Nat) : Fld := ⟨0x200400 + 0x100 * n + 0x20 * k, 63, 0, true⟩
-- TIM_HIST_OFFSET: 10_time_events.md R327
def TIM_HIST_OFFSET_VALUE (n k : Nat) : Fld := ⟨0x200408 + 0x100 * n + 0x20 * k, 63, 0, true⟩
-- TIM_HIST_FRAC: 10_time_events.md R327
def TIM_HIST_FRAC_VALUE (n k : Nat) : Fld := ⟨0x200410 + 0x100 * n + 0x20 * k, 63, 0, true⟩
-- TIM_HIST_RATE: 10_time_events.md R327
def TIM_HIST_RATE_VALUE (n k : Nat) : Fld := ⟨0x200418 + 0x100 * n + 0x20 * k, 63, 0, true⟩
-- TIM_SRV_CFG: 10_time_events.md R329
def TIM_SRV_CFG_EN : Fld := ⟨0x200800, 31, 31, false⟩
def TIM_SRV_CFG_SRC : Fld := ⟨0x200800, 30, 29, false⟩
def TIM_SRV_CFG_TS : Fld := ⟨0x200800, 28, 27, false⟩
def TIM_SRV_CFG_PORT : Fld := ⟨0x200800, 26, 21, false⟩
-- TIM_SRV_GAIN: 10_time_events.md R330
def TIM_SRV_GAIN_ISH : Fld := ⟨0x200804, 12, 8, false⟩
def TIM_SRV_GAIN_PSH : Fld := ⟨0x200804, 4, 0, false⟩
-- TIM_SRV_STAT: 10_time_events.md R330
def TIM_SRV_STAT_LOCKED : Fld := ⟨0x200808, 31, 31, false⟩
def TIM_SRV_STAT_STALE_PAIRS : Fld := ⟨0x200808, 30, 16, false⟩
def TIM_SRV_STAT_STEPS : Fld := ⟨0x200808, 15, 0, false⟩
-- TIM_SRV_LIM: 10_time_events.md R330
def TIM_SRV_LIM_LIM : Fld := ⟨0x20080c, 31, 0, false⟩
-- TIM_SRV_NOM: 10_time_events.md R330
def TIM_SRV_NOM_VALUE : Fld := ⟨0x200810, 47, 0, true⟩
-- TIM_SRV_ERR: 10_time_events.md R330
def TIM_SRV_ERR_E : Fld := ⟨0x200818, 63, 0, true⟩
-- TIM_SRV_STEP_THR: 10_time_events.md R330
def TIM_SRV_STEP_THR_THR : Fld := ⟨0x200820, 31, 0, false⟩
-- TIM_SRV_LOCK_THR: 10_time_events.md R330
def TIM_SRV_LOCK_THR_THR : Fld := ⟨0x200824, 31, 0, false⟩
-- TIM_PPSO_CFG: 10_time_events.md R331
def TIM_PPSO_CFG_EN : Fld := ⟨0x200900, 31, 31, false⟩
def TIM_PPSO_CFG_POL : Fld := ⟨0x200900, 30, 30, false⟩
def TIM_PPSO_CFG_TS : Fld := ⟨0x200900, 29, 27, false⟩
def TIM_PPSO_CFG_WIDTH : Fld := ⟨0x200900, 15, 0, false⟩
-- TIM_PPSI_CFG: 10_time_events.md R333
def TIM_PPSI_CFG_EN : Fld := ⟨0x200904, 31, 31, false⟩
def TIM_PPSI_CFG_POL : Fld := ⟨0x200904, 30, 30, false⟩
def TIM_PPSI_CFG_FILT : Fld := ⟨0x200904, 19, 16, false⟩
-- EVT_EVENT: 10_time_events.md R341
def EVT_EVENT_STAGE_OVF : Fld := ⟨0x300000, 3, 3, false⟩
def EVT_EVENT_LOST : Fld := ⟨0x300000, 2, 2, false⟩
def EVT_EVENT_ISO : Fld := ⟨0x300000, 1, 1, false⟩
def EVT_EVENT_CFG_ERR : Fld := ⟨0x300000, 0, 0, false⟩
-- EVT_STATUS: 10_time_events.md R341
def EVT_STATUS_DEPTH : Fld := ⟨0x300004, 9, 0, false⟩
-- EVT_SRC_CFG: 10_time_events.md R340
def EVT_SRC_CFG_EN (s : Nat) : Fld := ⟨0x301000 + 0x4 * s, 31, 31, false⟩
def EVT_SRC_CFG_EDGE (s : Nat) : Fld := ⟨0x301000 + 0x4 * s, 30, 29, false⟩
def EVT_SRC_CFG_PART (s : Nat) : Fld := ⟨0x301000 + 0x4 * s, 28, 25, false⟩
-- EVT_RING_BASE: 10_time_events.md R340
def EVT_RING_BASE_ADDR (p : Nat) : Fld := ⟨0x302000 + 0x20 * p, 47, 0, true⟩
-- EVT_RING_CFG: 10_time_events.md R340
def EVT_RING_CFG_EN (p : Nat) : Fld := ⟨0x302008 + 0x20 * p, 31, 31, false⟩
def EVT_RING_CFG_LOG2SIZE (p : Nat) : Fld := ⟨0x302008 + 0x20 * p, 20, 16, false⟩
def EVT_RING_CFG_NEN (p : Nat) : Fld := ⟨0x302008 + 0x20 * p, 15, 15, false⟩
def EVT_RING_CFG_CNT (p : Nat) : Fld := ⟨0x302008 + 0x20 * p, 12, 8, false⟩
def EVT_RING_CFG_CORE (p : Nat) : Fld := ⟨0x302008 + 0x20 * p, 7, 0, false⟩
-- EVT_RING_WIDX: 10_time_events.md R340
def EVT_RING_WIDX_COUNT (p : Nat) : Fld := ⟨0x30200c + 0x20 * p, 31, 0, false⟩
-- EVT_RING_RADDR: 10_time_events.md R340
def EVT_RING_RADDR_ADDR (p : Nat) : Fld := ⟨0x302010 + 0x20 * p, 47, 0, true⟩
-- EVT_RING_LOST: 10_time_events.md R340
def EVT_RING_LOST_COUNT (p : Nat) : Fld := ⟨0x302018 + 0x20 * p, 31, 0, false⟩
-- SAF_STATE: 13_safety.md R411
def SAF_STATE_SAFE : Fld := ⟨0x400000, 31, 31, false⟩
def SAF_STATE_ARMED : Fld := ⟨0x400000, 30, 30, false⟩
def SAF_STATE_TRIPLATCH : Fld := ⟨0x400000, 29, 29, false⟩
def SAF_STATE_SWEEP_DONE : Fld := ⟨0x400000, 28, 28, false⟩
def SAF_STATE_MINIMAL : Fld := ⟨0x400000, 27, 27, false⟩
def SAF_STATE_PIN_A : Fld := ⟨0x400000, 26, 26, false⟩
def SAF_STATE_PIN_B : Fld := ⟨0x400000, 25, 25, false⟩
def SAF_STATE_PIN_F : Fld := ⟨0x400000, 24, 24, false⟩
def SAF_STATE_ACTIVE : Fld := ⟨0x400000, 23, 23, false⟩
-- SAF_CTL: 13_safety.md R413
def SAF_CTL_KEY : Fld := ⟨0x400004, 31, 16, false⟩
def SAF_CTL_ENTER : Fld := ⟨0x400004, 1, 1, false⟩
def SAF_CTL_ARM : Fld := ⟨0x400004, 0, 0, false⟩
-- SAF_CAUSE: 13_safety.md R407
def SAF_CAUSE_CAUSE : Fld := ⟨0x400008, 15, 0, false⟩
-- SAF_CAUSE_EN: 13_safety.md R407
def SAF_CAUSE_EN_EN : Fld := ⟨0x40000c, 15, 0, false⟩
-- SAF_WARN: 13_safety.md R408
def SAF_WARN_BADREP : Fld := ⟨0x400010, 11, 11, false⟩
def SAF_WARN_CFG_ERR : Fld := ⟨0x400010, 10, 10, false⟩
def SAF_WARN_FRAME_FLAG : Fld := ⟨0x400010, 9, 9, false⟩
def SAF_WARN_MASKED : Fld := ⟨0x400010, 8, 8, false⟩
def SAF_WARN_FT_RETIRE : Fld := ⟨0x400010, 7, 7, false⟩
def SAF_WARN_FT_LATE : Fld := ⟨0x400010, 6, 6, false⟩
def SAF_WARN_FT_NOSPARE : Fld := ⟨0x400010, 5, 5, false⟩
def SAF_WARN_FT_SKIP : Fld := ⟨0x400010, 4, 4, false⟩
def SAF_WARN_GRAV_NONS : Fld := ⟨0x400010, 3, 3, false⟩
def SAF_WARN_UE : Fld := ⟨0x400010, 2, 2, false⟩
def SAF_WARN_HARD_CE : Fld := ⟨0x400010, 1, 1, false⟩
def SAF_WARN_CE_THR : Fld := ⟨0x400010, 0, 0, false⟩
-- SAF_FREC_TIME: 13_safety.md R410
def SAF_FREC_TIME_TIME : Fld := ⟨0x400018, 63, 0, true⟩
-- SAF_FREC: 13_safety.md R410
def SAF_FREC_VALID : Fld := ⟨0x400020, 31, 31, false⟩
def SAF_FREC_CAUSE : Fld := ⟨0x400020, 27, 24, false⟩
def SAF_FREC_PART : Fld := ⟨0x400020, 23, 20, false⟩
def SAF_FREC_SOURCE : Fld := ⟨0x400020, 8, 0, false⟩
-- SAF_FREC_DATA: 13_safety.md R410
def SAF_FREC_DATA_DATA : Fld := ⟨0x400024, 31, 0, false⟩
-- SAF_EPOCH: 13_safety.md R398
def SAF_EPOCH_EPOCH : Fld := ⟨0x400028, 63, 0, true⟩
-- SAF_FRM_CFG: 13_safety.md R398
def SAF_FRM_CFG_EN : Fld := ⟨0x400030, 31, 31, false⟩
def SAF_FRM_CFG_TS : Fld := ⟨0x400030, 29, 27, false⟩
-- SAF_FRM_PERIOD: 13_safety.md R398
def SAF_FRM_PERIOD_PERIOD : Fld := ⟨0x400034, 31, 0, false⟩
-- SAF_FRM_START: 13_safety.md R398
def SAF_FRM_START_START : Fld := ⟨0x400038, 63, 0, true⟩
-- SAF_GRAV_CFG: 13_safety.md R398
def SAF_GRAV_CFG_EN : Fld := ⟨0x400040, 31, 31, false⟩
def SAF_GRAV_CFG_PARTMASK : Fld := ⟨0x400040, 15, 0, false⟩
-- SAF_GRAV_STAT: 13_safety.md R401
def SAF_GRAV_STAT_FAILS : Fld := ⟨0x400044, 31, 16, false⟩
def SAF_GRAV_STAT_FVALID : Fld := ⟨0x400044, 15, 15, false⟩
def SAF_GRAV_STAT_MISSED : Fld := ⟨0x400044, 8, 8, false⟩
def SAF_GRAV_STAT_CORE : Fld := ⟨0x400044, 7, 0, false⟩
-- SAF_GRAV_SEED: 13_safety.md R399
def SAF_GRAV_SEED_SEED (k : Nat) : Fld := ⟨0x400080 + 0x8 * k, 31, 0, false⟩
-- SAF_GRAV_CRC: 13_safety.md R401
def SAF_GRAV_CRC_CRC (k : Nat) : Fld := ⟨0x400084 + 0x8 * k, 31, 0, false⟩
-- SAF_FT_CFG: 13_safety.md R404
def SAF_FT_CFG_EN : Fld := ⟨0x400100, 31, 31, false⟩
def SAF_FT_CFG_PERIOD : Fld := ⟨0x400100, 26, 16, false⟩
def SAF_FT_CFG_HWIN : Fld := ⟨0x400100, 9, 0, false⟩
-- SAF_FT_STAT: 13_safety.md R403
def SAF_FT_STAT_ROTATIONS : Fld := ⟨0x400104, 31, 16, false⟩
def SAF_FT_STAT_RETIRED : Fld := ⟨0x400104, 15, 8, false⟩
def SAF_FT_STAT_SKIPS : Fld := ⟨0x400104, 7, 0, false⟩
-- SAF_FT_REQ: 13_safety.md R406
def SAF_FT_REQ_GO : Fld := ⟨0x400108, 31, 31, false⟩
def SAF_FT_REQ_TYPE : Fld := ⟨0x400108, 29, 28, false⟩
def SAF_FT_REQ_TARGET : Fld := ⟨0x400108, 8, 0, false⟩
-- SAF_FT_RES: 13_safety.md R406
def SAF_FT_RES_STATUS : Fld := ⟨0x40010c, 31, 29, false⟩
def SAF_FT_RES_TARGET : Fld := ⟨0x40010c, 8, 0, false⟩
-- SAF_FT_QUAD: 13_safety.md R402
def SAF_FT_QUAD_SPARES (q : Nat) : Fld := ⟨0x400110 + 0x4 * q, 31, 28, false⟩
def SAF_FT_QUAD_VICTIM (q : Nat) : Fld := ⟨0x400110 + 0x4 * q, 27, 21, false⟩
def SAF_FT_QUAD_BUSY (q : Nat) : Fld := ⟨0x400110 + 0x4 * q, 20, 20, false⟩
def SAF_FT_QUAD_AGE (q : Nat) : Fld := ⟨0x400110 + 0x4 * q, 19, 0, false⟩
-- SAF_FO_CFG: 13_safety.md R414
def SAF_FO_CFG_EN : Fld := ⟨0x400140, 31, 31, false⟩
def SAF_FO_CFG_STANDBY : Fld := ⟨0x400140, 30, 30, false⟩
def SAF_FO_CFG_DEPUTY : Fld := ⟨0x400140, 29, 27, false⟩
def SAF_FO_CFG_PARTNER : Fld := ⟨0x400140, 26, 24, false⟩
-- SAF_FO_STAT: 13_safety.md R415
def SAF_FO_STAT_ACTIVE : Fld := ⟨0x400144, 31, 31, false⟩
def SAF_FO_STAT_LOST_SEEN : Fld := ⟨0x400144, 30, 30, false⟩
def SAF_FO_STAT_FROM : Fld := ⟨0x400144, 29, 27, false⟩
def SAF_FO_STAT_FAILOVERS : Fld := ⟨0x400144, 15, 0, false⟩
-- SAF_FRZ_CFG: 13_safety.md R409
def SAF_FRZ_CFG_LIMIT : Fld := ⟨0x400150, 7, 0, false⟩
-- SAF_FRZ_MASK: 13_safety.md R409
def SAF_FRZ_MASK_MASK : Fld := ⟨0x400158, 63, 0, true⟩
-- SAF_CMP_CFG: 13_safety.md R391
def SAF_CMP_CFG_EN (k : Nat) : Fld := ⟨0x401000 + 0x40 * k, 31, 31, false⟩
def SAF_CMP_CFG_MODE (k : Nat) : Fld := ⟨0x401000 + 0x40 * k, 30, 29, false⟩
def SAF_CMP_CFG_APART (k : Nat) : Fld := ⟨0x401000 + 0x40 * k, 27, 24, false⟩
def SAF_CMP_CFG_BPART (k : Nat) : Fld := ⟨0x401000 + 0x40 * k, 23, 20, false⟩
def SAF_CMP_CFG_NREC (k : Nat) : Fld := ⟨0x401000 + 0x40 * k, 19, 12, false⟩
def SAF_CMP_CFG_LEN64 (k : Nat) : Fld := ⟨0x401000 + 0x40 * k, 11, 0, false⟩
-- SAF_CMP_THR: 13_safety.md R394
def SAF_CMP_THR_RATIO (k : Nat) : Fld := ⟨0x401004 + 0x40 * k, 31, 16, false⟩
def SAF_CMP_THR_OCC_THR (k : Nat) : Fld := ⟨0x401004 + 0x40 * k, 15, 8, false⟩
-- SAF_CMP_LIM: 13_safety.md R394
def SAF_CMP_LIM_MISS_MAX (k : Nat) : Fld := ⟨0x401008 + 0x40 * k, 31, 16, false⟩
def SAF_CMP_LIM_OBJ_MISS_MAX (k : Nat) : Fld := ⟨0x401008 + 0x40 * k, 15, 8, false⟩
def SAF_CMP_LIM_OBJ_EXTRA_MAX (k : Nat) : Fld := ⟨0x401008 + 0x40 * k, 7, 0, false⟩
-- SAF_CMP_STAT: 13_safety.md R392
def SAF_CMP_STAT_LAST_OK (k : Nat) : Fld := ⟨0x40100c + 0x40 * k, 31, 31, false⟩
def SAF_CMP_STAT_LAST_REASON (k : Nat) : Fld := ⟨0x40100c + 0x40 * k, 30, 28, false⟩
def SAF_CMP_STAT_DISAGREES (k : Nat) : Fld := ⟨0x40100c + 0x40 * k, 15, 0, false⟩
-- SAF_CMP_ABASE: 13_safety.md R391
def SAF_CMP_ABASE_ADDR (k : Nat) : Fld := ⟨0x401010 + 0x40 * k, 47, 0, true⟩
-- SAF_CMP_BBASE: 13_safety.md R391
def SAF_CMP_BBASE_ADDR (k : Nat) : Fld := ⟨0x401018 + 0x40 * k, 47, 0, true⟩
-- SAF_CMP_LAST: 13_safety.md R396
def SAF_CMP_LAST_FRAME (k : Nat) : Fld := ⟨0x401020 + 0x40 * k, 31, 0, false⟩
-- SAF_CMP_RATIO: 13_safety.md R396
def SAF_CMP_RATIO_HI (k : Nat) : Fld := ⟨0x401024 + 0x40 * k, 31, 16, false⟩
def SAF_CMP_RATIO_LO (k : Nat) : Fld := ⟨0x401024 + 0x40 * k, 15, 0, false⟩
-- SAF_CMP_TMO: 13_safety.md R392
def SAF_CMP_TMO_TMO (k : Nat) : Fld := ⟨0x401028 + 0x40 * k, 15, 0, false⟩
-- SAF_STR_BASE: 13_safety.md R412
def SAF_STR_BASE_ADDR (s : Nat) : Fld := ⟨0x402000 + 0x10 * s, 47, 0, true⟩
-- SAF_STR_CFG: 13_safety.md R412
def SAF_STR_CFG_EN (s : Nat) : Fld := ⟨0x402008 + 0x10 * s, 31, 31, false⟩
def SAF_STR_CFG_SLOT (s : Nat) : Fld := ⟨0x402008 + 0x10 * s, 30, 27, false⟩
def SAF_STR_CFG_NREC (s : Nat) : Fld := ⟨0x402008 + 0x10 * s, 26, 19, false⟩
def SAF_STR_CFG_STRIDE (s : Nat) : Fld := ⟨0x402008 + 0x10 * s, 18, 8, false⟩
def SAF_STR_CFG_VOFF (s : Nat) : Fld := ⟨0x402008 + 0x10 * s, 7, 0, false⟩
-- VMS_EVENT: 14_host_vm.md R443
def VMS_EVENT_FLR : Fld := ⟨0x700000, 6, 6, false⟩
def VMS_EVENT_LINKDOWN : Fld := ⟨0x700000, 5, 5, false⟩
def VMS_EVENT_CTO : Fld := ⟨0x700000, 4, 4, false⟩
def VMS_EVENT_EP_RX : Fld := ⟨0x700000, 3, 3, false⟩
def VMS_EVENT_ISO : Fld := ⟨0x700000, 2, 2, false⟩
def VMS_EVENT_UR : Fld := ⟨0x700000, 1, 1, false⟩
def VMS_EVENT_CFG_ERR : Fld := ⟨0x700000, 0, 0, false⟩
-- VMS_PORT_CFG: 14_host_vm.md R419
def VMS_PORT_CFG_EN0 : Fld := ⟨0x700004, 31, 31, false⟩
def VMS_PORT_CFG_EN1 : Fld := ⟨0x700004, 30, 30, false⟩
def VMS_PORT_CFG_BIFUR : Fld := ⟨0x700004, 29, 29, false⟩
def VMS_PORT_CFG_MAXSPD : Fld := ⟨0x700004, 26, 24, false⟩
def VMS_PORT_CFG_OB_TMO : Fld := ⟨0x700004, 7, 0, false⟩
-- VMS_PORT_STAT: 14_host_vm.md R441
def VMS_PORT_STAT_UP (n : Nat) : Fld := ⟨0x700008 + 0x4 * n, 31, 31, false⟩
def VMS_PORT_STAT_SPEED (n : Nat) : Fld := ⟨0x700008 + 0x4 * n, 30, 28, false⟩
def VMS_PORT_STAT_WIDTH (n : Nat) : Fld := ⟨0x700008 + 0x4 * n, 27, 23, false⟩
def VMS_PORT_STAT_LINKDOWNS (n : Nat) : Fld := ⟨0x700008 + 0x4 * n, 15, 0, false⟩
-- VMS_FRZ_STAT: 14_host_vm.md R435
def VMS_FRZ_STAT_STATE : Fld := ⟨0x700010, 31, 0, false⟩
-- VMS_FRZ_TMO: 14_host_vm.md R435
def VMS_FRZ_TMO_TMO : Fld := ⟨0x700014, 7, 0, false⟩
-- VMS_QVEC: 14_host_vm.md R434
def VMS_QVEC_EN (i : Nat) : Fld := ⟨0x700100 + 0x4 * i, 31, 31, false⟩
def VMS_QVEC_SLICE (i : Nat) : Fld := ⟨0x700100 + 0x4 * i, 21, 16, false⟩
def VMS_QVEC_VEC (i : Nat) : Fld := ⟨0x700100 + 0x4 * i, 4, 0, false⟩
-- VMS_SL_CFG: 14_host_vm.md R421
def VMS_SL_CFG_EN (c : Nat) : Fld := ⟨0x701000 + 0x40 * c, 31, 31, false⟩
def VMS_SL_CFG_PORT (c : Nat) : Fld := ⟨0x701000 + 0x40 * c, 30, 30, false⟩
def VMS_SL_CFG_ADMIN (c : Nat) : Fld := ⟨0x701000 + 0x40 * c, 29, 29, false⟩
def VMS_SL_CFG_PEN (c : Nat) : Fld := ⟨0x701000 + 0x40 * c, 28, 28, false⟩
def VMS_SL_CFG_PART (c : Nat) : Fld := ⟨0x701000 + 0x40 * c, 27, 24, false⟩
def VMS_SL_CFG_PASID (c : Nat) : Fld := ⟨0x701000 + 0x40 * c, 19, 0, false⟩
-- VMS_SL_STAT: 14_host_vm.md R423
def VMS_SL_STAT_ISO (c : Nat) : Fld := ⟨0x701004 + 0x40 * c, 31, 16, false⟩
def VMS_SL_STAT_DBDROP (c : Nat) : Fld := ⟨0x701004 + 0x40 * c, 15, 0, false⟩
-- VMS_SL_OBASE: 14_host_vm.md R428
def VMS_SL_OBASE_ADDR (c : Nat) : Fld := ⟨0x701008 + 0x40 * c, 63, 0, true⟩
-- VMS_SL_OLIM: 14_host_vm.md R428
def VMS_SL_OLIM_PAGES (c : Nat) : Fld := ⟨0x701010 + 0x40 * c, 21, 0, false⟩
-- VMS_SL_ACFG: 14_host_vm.md R431
def VMS_SL_ACFG_EN (c : Nat) : Fld := ⟨0x701014 + 0x40 * c, 31, 31, false⟩
def VMS_SL_ACFG_LOG2SIZE (c : Nat) : Fld := ⟨0x701014 + 0x40 * c, 3, 0, false⟩
-- VMS_SL_ARING: 14_host_vm.md R431
def VMS_SL_ARING_ADDR (c : Nat) : Fld := ⟨0x701018 + 0x40 * c, 63, 0, true⟩
-- VMS_SL_ACQ: 14_host_vm.md R431
def VMS_SL_ACQ_ADDR (c : Nat) : Fld := ⟨0x701020 + 0x40 * c, 63, 0, true⟩
-- VMS_SL_ACIDX: 14_host_vm.md R431
def VMS_SL_ACIDX_INDEX (c : Nat) : Fld := ⟨0x701028 + 0x40 * c, 31, 0, false⟩
-- VMS_SL_VEC: 14_host_vm.md R434
def VMS_SL_VEC_FEN (c : Nat) : Fld := ⟨0x70102c + 0x40 * c, 31, 31, false⟩
def VMS_SL_VEC_AEN (c : Nat) : Fld := ⟨0x70102c + 0x40 * c, 30, 30, false⟩
def VMS_SL_VEC_ACMP_VEC (c : Nat) : Fld := ⟨0x70102c + 0x40 * c, 12, 8, false⟩
def VMS_SL_VEC_FAULT_VEC (c : Nat) : Fld := ⟨0x70102c + 0x40 * c, 4, 0, false⟩
-- VMS_DB: 14_host_vm.md R433
def VMS_DB_DB (c : Nat) : Fld := ⟨0x740000 + 0x1000 * c, 31, 0, false⟩
-- VMS_APIDX: 14_host_vm.md R431
def VMS_APIDX_INDEX (c : Nat) : Fld := ⟨0x740004 + 0x1000 * c, 31, 0, false⟩
-- VMS_ACIDX_MIRROR: 14_host_vm.md R431
def VMS_ACIDX_MIRROR_INDEX (c : Nat) : Fld := ⟨0x740008 + 0x1000 * c, 31, 0, false⟩
-- VMS_MSIX_LO: 14_host_vm.md R434
def VMS_MSIX_LO_ADDR (e : Nat) : Fld := ⟨0x780000 + 0x10 * e, 31, 0, false⟩
-- VMS_MSIX_HI: 14_host_vm.md R434
def VMS_MSIX_HI_ADDR (e : Nat) : Fld := ⟨0x780004 + 0x10 * e, 31, 0, false⟩
-- VMS_MSIX_DATA: 14_host_vm.md R434
def VMS_MSIX_DATA_DATA (e : Nat) : Fld := ⟨0x780008 + 0x10 * e, 31, 0, false⟩
-- VMS_MSIX_CTL: 14_host_vm.md R434
def VMS_MSIX_CTL_MASK (e : Nat) : Fld := ⟨0x78000c + 0x10 * e, 0, 0, false⟩
-- VMS_MSIX_PBA: 14_host_vm.md R434
def VMS_MSIX_PBA_PEND (i : Nat) : Fld := ⟨0x788000 + 0x4 * i, 31, 0, false⟩
-- LNK_CFG: 15_ring_datacentre.md R447
def LNK_CFG_EN : Fld := ⟨0xf00000, 31, 31, false⟩
def LNK_CFG_ROLE : Fld := ⟨0xf00000, 30, 30, false⟩
def LNK_CFG_CHIP : Fld := ⟨0xf00000, 29, 27, false⟩
def LNK_CFG_AUTORATE : Fld := ⟨0xf00000, 26, 26, false⟩
def LNK_CFG_EXPECT : Fld := ⟨0xf00000, 23, 16, false⟩
def LNK_CFG_TMO : Fld := ⟨0xf00000, 15, 8, false⟩
-- LNK_STATE: 15_ring_datacentre.md R447
def LNK_STATE_STATE : Fld := ⟨0xf00004, 31, 30, false⟩
def LNK_STATE_RATE : Fld := ⟨0xf00004, 29, 29, false⟩
def LNK_STATE_RETRAIN : Fld := ⟨0xf00004, 28, 28, false⟩
def LNK_STATE_MANAGER : Fld := ⟨0xf00004, 26, 24, false⟩
-- LNK_MAP: 15_ring_datacentre.md R453
def LNK_MAP_FWD : Fld := ⟨0xf00008, 15, 8, false⟩
def LNK_MAP_MEMBERS : Fld := ⟨0xf00008, 7, 0, false⟩
-- LNK_EVENT: 15_ring_datacentre.md R446
def LNK_EVENT_RATE_FAIL : Fld := ⟨0xf0000c, 7, 7, false⟩
def LNK_EVENT_MAPCHG : Fld := ⟨0xf0000c, 6, 6, false⟩
def LNK_EVENT_LINKDOWN : Fld := ⟨0xf0000c, 5, 5, false⟩
def LNK_EVENT_TRAIN_FAIL : Fld := ⟨0xf0000c, 4, 4, false⟩
def LNK_EVENT_ORDER : Fld := ⟨0xf0000c, 3, 3, false⟩
def LNK_EVENT_DUPID : Fld := ⟨0xf0000c, 2, 2, false⟩
def LNK_EVENT_ROLE : Fld := ⟨0xf0000c, 1, 1, false⟩
def LNK_EVENT_CFG_ERR : Fld := ⟨0xf0000c, 0, 0, false⟩
-- LNK_STAT: 15_ring_datacentre.md R452
def LNK_STAT_RETRAINS : Fld := ⟨0xf00010, 31, 16, false⟩
def LNK_STAT_LATE : Fld := ⟨0xf00010, 15, 0, false⟩
-- LNK_TIME_CFG: 15_ring_datacentre.md R459
def LNK_TIME_CFG_EN : Fld := ⟨0xf00014, 31, 31, false⟩
def LNK_TIME_CFG_PORT : Fld := ⟨0xf00014, 30, 30, false⟩
def LNK_TIME_CFG_TS : Fld := ⟨0xf00014, 29, 27, false⟩
def LNK_TIME_CFG_INTERVAL : Fld := ⟨0xf00014, 9, 0, false⟩
-- LNK_PORT_STAT: 15_ring_datacentre.md R451
def LNK_PORT_STAT_UP (n : Nat) : Fld := ⟨0xf00020 + 0x10 * n, 31, 31, false⟩
def LNK_PORT_STAT_LOCK (n : Nat) : Fld := ⟨0xf00020 + 0x10 * n, 23, 16, false⟩
def LNK_PORT_STAT_LINKDOWNS (n : Nat) : Fld := ⟨0xf00020 + 0x10 * n, 15, 0, false⟩
-- LNK_PORT_ERR: 15_ring_datacentre.md R451
def LNK_PORT_ERR_RETRIES (n : Nat) : Fld := ⟨0xf00024 + 0x10 * n, 31, 16, false⟩
def LNK_PORT_ERR_CRC (n : Nat) : Fld := ⟨0xf00024 + 0x10 * n, 15, 0, false⟩
-- LNK_PORT_DELAY: 15_ring_datacentre.md R459
def LNK_PORT_DELAY_NS (n : Nat) : Fld := ⟨0xf00028 + 0x10 * n, 15, 0, false⟩
-- NET_E100_CFG: 15_ring_datacentre.md R460
def NET_E100_CFG_EN (n : Nat) : Fld := ⟨0xe80000 + 0x40 * n, 31, 31, false⟩
def NET_E100_CFG_KR (n : Nat) : Fld := ⟨0xe80000 + 0x40 * n, 30, 30, false⟩
def NET_E100_CFG_OWNER (n : Nat) : Fld := ⟨0xe80000 + 0x40 * n, 29, 26, false⟩
def NET_E100_CFG_V6 (n : Nat) : Fld := ⟨0xe80000 + 0x40 * n, 25, 25, false⟩
def NET_E100_CFG_PFC (n : Nat) : Fld := ⟨0xe80000 + 0x40 * n, 7, 0, false⟩
-- NET_E100_MAC: 15_ring_datacentre.md R460
def NET_E100_MAC_MAC (n : Nat) : Fld := ⟨0xe80008 + 0x40 * n, 47, 0, true⟩
-- NET_E100_IP: 15_ring_datacentre.md R460
-- NET_MKEY_BASE: 15_ring_datacentre.md R462
def NET_MKEY_BASE_ADDR (k : Nat) : Fld := ⟨0xe81000 + 0x8 * k, 47, 0, true⟩
-- NET_MKEY_CFG: 15_ring_datacentre.md R462
def NET_MKEY_CFG_EN (k : Nat) : Fld := ⟨0xe82000 + 0x8 * k, 31, 31, false⟩
def NET_MKEY_CFG_PART (k : Nat) : Fld := ⟨0xe82000 + 0x8 * k, 30, 27, false⟩
def NET_MKEY_CFG_WR (k : Nat) : Fld := ⟨0xe82000 + 0x8 * k, 26, 26, false⟩
def NET_MKEY_CFG_TAG (k : Nat) : Fld := ⟨0xe82000 + 0x8 * k, 23, 0, false⟩
-- NET_MKEY_LEN: 15_ring_datacentre.md R462
def NET_MKEY_LEN_LEN (k : Nat) : Fld := ⟨0xe82004 + 0x8 * k, 31, 0, false⟩
-- NET_QP_CFG: 15_ring_datacentre.md R461
def NET_QP_CFG_EN (q : Nat) : Fld := ⟨0xe90000 + 0x40 * q, 31, 31, false⟩
def NET_QP_CFG_PORT (q : Nat) : Fld := ⟨0xe90000 + 0x40 * q, 30, 30, false⟩
def NET_QP_CFG_OWNER (q : Nat) : Fld := ⟨0xe90000 + 0x40 * q, 29, 26, false⟩
def NET_QP_CFG_MTU (q : Nat) : Fld := ⟨0xe90000 + 0x40 * q, 25, 24, false⟩
def NET_QP_CFG_PRIO (q : Nat) : Fld := ⟨0xe90000 + 0x40 * q, 23, 21, false⟩
def NET_QP_CFG_LOG2SIZE (q : Nat) : Fld := ⟨0xe90000 + 0x40 * q, 3, 0, false⟩
-- NET_QP_DQPN: 15_ring_datacentre.md R461
def NET_QP_DQPN_DQPN (q : Nat) : Fld := ⟨0xe90004 + 0x40 * q, 23, 0, false⟩
-- NET_QP_PSN: 15_ring_datacentre.md R461
def NET_QP_PSN_PSN (q : Nat) : Fld := ⟨0xe90008 + 0x40 * q, 23, 0, false⟩
-- NET_QP_STAT: 15_ring_datacentre.md R461
def NET_QP_STAT_STATE (q : Nat) : Fld := ⟨0xe9000c + 0x40 * q, 31, 30, false⟩
def NET_QP_STAT_RETRY (q : Nat) : Fld := ⟨0xe9000c + 0x40 * q, 15, 0, false⟩
-- NET_QP_SQ: 15_ring_datacentre.md R463
def NET_QP_SQ_ADDR (q : Nat) : Fld := ⟨0xe90010 + 0x40 * q, 47, 0, true⟩
-- NET_QP_CQ: 15_ring_datacentre.md R463
def NET_QP_CQ_ADDR (q : Nat) : Fld := ⟨0xe90018 + 0x40 * q, 47, 0, true⟩
-- NET_QP_DIP: 15_ring_datacentre.md R461
-- NET_QP_NOTE: 15_ring_datacentre.md R463
def NET_QP_NOTE_EN (q : Nat) : Fld := ⟨0xe90030 + 0x40 * q, 15, 15, false⟩
def NET_QP_NOTE_CNT (q : Nat) : Fld := ⟨0xe90030 + 0x40 * q, 12, 8, false⟩
def NET_QP_NOTE_CORE (q : Nat) : Fld := ⟨0xe90030 + 0x40 * q, 7, 0, false⟩
-- CAN_EVENT: 16_vehicle_networks.md R490
def CAN_EVENT_ACFSKIP : Fld := ⟨0xd00000, 9, 9, false⟩
def CAN_EVENT_UE : Fld := ⟨0xd00000, 8, 8, false⟩
def CAN_EVENT_POISON : Fld := ⟨0xd00000, 7, 7, false⟩
def CAN_EVENT_RXLOST : Fld := ⟨0xd00000, 6, 6, false⟩
def CAN_EVENT_GWDROP : Fld := ⟨0xd00000, 5, 5, false⟩
def CAN_EVENT_BUSOFF : Fld := ⟨0xd00000, 4, 4, false⟩
def CAN_EVENT_PASSIVE : Fld := ⟨0xd00000, 3, 3, false⟩
def CAN_EVENT_WARN : Fld := ⟨0xd00000, 2, 2, false⟩
def CAN_EVENT_ISO : Fld := ⟨0xd00000, 1, 1, false⟩
def CAN_EVENT_CFG_ERR : Fld := ⟨0xd00000, 0, 0, false⟩
-- CAN_GW_CFG: 16_vehicle_networks.md R479
def CAN_GW_CFG_EN : Fld := ⟨0xd00004, 31, 31, false⟩
def CAN_GW_CFG_OWNER : Fld := ⟨0xd00004, 30, 27, false⟩
-- CAN_GW_DROP: 16_vehicle_networks.md R478
def CAN_GW_DROP_EGRESS : Fld := ⟨0xd00008, 31, 16, false⟩
def CAN_GW_DROP_FORMAT : Fld := ⟨0xd00008, 15, 8, false⟩
def CAN_GW_DROP_ACF : Fld := ⟨0xd00008, 7, 0, false⟩
-- CAN_CFG: 16_vehicle_networks.md R466
def CAN_CFG_EN (n : Nat) : Fld := ⟨0xd01000 + 0x100 * n, 31, 31, false⟩
def CAN_CFG_MODE (n : Nat) : Fld := ⟨0xd01000 + 0x100 * n, 30, 29, false⟩
def CAN_CFG_OWNER (n : Nat) : Fld := ⟨0xd01000 + 0x100 * n, 28, 25, false⟩
def CAN_CFG_BO_AUTO (n : Nat) : Fld := ⟨0xd01000 + 0x100 * n, 24, 24, false⟩
def CAN_CFG_TRIPLE (n : Nat) : Fld := ⟨0xd01000 + 0x100 * n, 23, 23, false⟩
def CAN_CFG_TDC_EN (n : Nat) : Fld := ⟨0xd01000 + 0x100 * n, 22, 22, false⟩
def CAN_CFG_TDCO (n : Nat) : Fld := ⟨0xd01000 + 0x100 * n, 21, 15, false⟩
def CAN_CFG_DEFRX (n : Nat) : Fld := ⟨0xd01000 + 0x100 * n, 14, 14, false⟩
def CAN_CFG_DEFRING (n : Nat) : Fld := ⟨0xd01000 + 0x100 * n, 13, 8, false⟩
def CAN_CFG_TS (n : Nat) : Fld := ⟨0xd01000 + 0x100 * n, 7, 5, false⟩
-- CAN_NBT: 16_vehicle_networks.md R467
def CAN_NBT_NSJW (n : Nat) : Fld := ⟨0xd01004 + 0x100 * n, 29, 23, false⟩
def CAN_NBT_NTSEG2 (n : Nat) : Fld := ⟨0xd01004 + 0x100 * n, 22, 16, false⟩
def CAN_NBT_NTSEG1 (n : Nat) : Fld := ⟨0xd01004 + 0x100 * n, 15, 8, false⟩
def CAN_NBT_NBRP (n : Nat) : Fld := ⟨0xd01004 + 0x100 * n, 7, 0, false⟩
-- CAN_DBT: 16_vehicle_networks.md R467
def CAN_DBT_DSJW (n : Nat) : Fld := ⟨0xd01008 + 0x100 * n, 27, 24, false⟩
def CAN_DBT_DTSEG2 (n : Nat) : Fld := ⟨0xd01008 + 0x100 * n, 19, 16, false⟩
def CAN_DBT_DTSEG1 (n : Nat) : Fld := ⟨0xd01008 + 0x100 * n, 12, 8, false⟩
def CAN_DBT_DBRP (n : Nat) : Fld := ⟨0xd01008 + 0x100 * n, 4, 0, false⟩
-- CAN_STAT: 16_vehicle_networks.md R470
def CAN_STAT_STATE (n : Nat) : Fld := ⟨0xd0100c + 0x100 * n, 31, 30, false⟩
def CAN_STAT_WARN (n : Nat) : Fld := ⟨0xd0100c + 0x100 * n, 29, 29, false⟩
def CAN_STAT_LEC (n : Nat) : Fld := ⟨0xd0100c + 0x100 * n, 18, 16, false⟩
def CAN_STAT_TDCV (n : Nat) : Fld := ⟨0xd0100c + 0x100 * n, 14, 8, false⟩
-- CAN_ERR: 16_vehicle_networks.md R470
def CAN_ERR_REC (n : Nat) : Fld := ⟨0xd01010 + 0x100 * n, 24, 16, false⟩
def CAN_ERR_TEC (n : Nat) : Fld := ⟨0xd01010 + 0x100 * n, 8, 0, false⟩
-- CAN_CMD: 16_vehicle_networks.md R473
def CAN_CMD_FLUSH_GW (n : Nat) : Fld := ⟨0xd01014 + 0x100 * n, 4, 4, false⟩
def CAN_CMD_FLUSH (n : Nat) : Fld := ⟨0xd01014 + 0x100 * n, 3, 1, false⟩
def CAN_CMD_RECOVER (n : Nat) : Fld := ⟨0xd01014 + 0x100 * n, 0, 0, false⟩
-- CAN_TX_CFG: 16_vehicle_networks.md R471
def CAN_TX_CFG_EN (n q : Nat) : Fld := ⟨0xd01040 + 0x100 * n + 0x40 * q, 31, 31, false⟩
def CAN_TX_CFG_PSRC (n q : Nat) : Fld := ⟨0xd01040 + 0x100 * n + 0x40 * q, 30, 30, false⟩
def CAN_TX_CFG_TS (n q : Nat) : Fld := ⟨0xd01040 + 0x100 * n + 0x40 * q, 26, 24, false⟩
def CAN_TX_CFG_OWNER (n q : Nat) : Fld := ⟨0xd01040 + 0x100 * n + 0x40 * q, 23, 20, false⟩
def CAN_TX_CFG_POLL (n q : Nat) : Fld := ⟨0xd01040 + 0x100 * n + 0x40 * q, 19, 15, false⟩
def CAN_TX_CFG_LOG2SIZE (n q : Nat) : Fld := ⟨0xd01040 + 0x100 * n + 0x40 * q, 3, 0, false⟩
-- CAN_TX_PIDX: 16_vehicle_networks.md R471
def CAN_TX_PIDX_INDEX (n q : Nat) : Fld := ⟨0xd01044 + 0x100 * n + 0x40 * q, 31, 0, false⟩
-- CAN_TX_CIDX: 16_vehicle_networks.md R471
def CAN_TX_CIDX_INDEX (n q : Nat) : Fld := ⟨0xd01048 + 0x100 * n + 0x40 * q, 31, 0, false⟩
-- CAN_TX_NOTE: 16_vehicle_networks.md R471
def CAN_TX_NOTE_EN (n q : Nat) : Fld := ⟨0xd0104c + 0x100 * n + 0x40 * q, 15, 15, false⟩
def CAN_TX_NOTE_CNT (n q : Nat) : Fld := ⟨0xd0104c + 0x100 * n + 0x40 * q, 12, 8, false⟩
def CAN_TX_NOTE_CORE (n q : Nat) : Fld := ⟨0xd0104c + 0x100 * n + 0x40 * q, 7, 0, false⟩
-- CAN_TX_SQ: 16_vehicle_networks.md R471
def CAN_TX_SQ_ADDR (n q : Nat) : Fld := ⟨0xd01050 + 0x100 * n + 0x40 * q, 47, 0, true⟩
-- CAN_TX_CQ: 16_vehicle_networks.md R471
def CAN_TX_CQ_ADDR (n q : Nat) : Fld := ⟨0xd01058 + 0x100 * n + 0x40 * q, 47, 0, true⟩
-- CAN_TX_PWORD: 16_vehicle_networks.md R471
def CAN_TX_PWORD_ADDR (n q : Nat) : Fld := ⟨0xd01060 + 0x100 * n + 0x40 * q, 47, 0, true⟩
-- CAN_RX_BASE: 16_vehicle_networks.md R474
def CAN_RX_BASE_ADDR (r : Nat) : Fld := ⟨0xd03000 + 0x20 * r, 47, 0, true⟩
-- CAN_RX_CFG: 16_vehicle_networks.md R474
def CAN_RX_CFG_EN (r : Nat) : Fld := ⟨0xd03008 + 0x20 * r, 31, 31, false⟩
def CAN_RX_CFG_OWNER (r : Nat) : Fld := ⟨0xd03008 + 0x20 * r, 29, 26, false⟩
def CAN_RX_CFG_LOG2SIZE (r : Nat) : Fld := ⟨0xd03008 + 0x20 * r, 20, 16, false⟩
def CAN_RX_CFG_NEN (r : Nat) : Fld := ⟨0xd03008 + 0x20 * r, 15, 15, false⟩
def CAN_RX_CFG_CNT (r : Nat) : Fld := ⟨0xd03008 + 0x20 * r, 12, 8, false⟩
def CAN_RX_CFG_CORE (r : Nat) : Fld := ⟨0xd03008 + 0x20 * r, 7, 0, false⟩
-- CAN_RX_WIDX: 16_vehicle_networks.md R474
def CAN_RX_WIDX_COUNT (r : Nat) : Fld := ⟨0xd0300c + 0x20 * r, 31, 0, false⟩
-- CAN_RX_RADDR: 16_vehicle_networks.md R474
def CAN_RX_RADDR_ADDR (r : Nat) : Fld := ⟨0xd03010 + 0x20 * r, 47, 0, true⟩
-- CAN_RX_LOST: 16_vehicle_networks.md R474
def CAN_RX_LOST_COUNT (r : Nat) : Fld := ⟨0xd03018 + 0x20 * r, 31, 0, false⟩
-- CAN_ENC_ID: 16_vehicle_networks.md R477
def CAN_ENC_ID_STREAM_ID (s : Nat) : Fld := ⟨0xd04000 + 0x20 * s, 63, 0, true⟩
-- CAN_ENC_DMAC: 16_vehicle_networks.md R477
def CAN_ENC_DMAC_DMAC (s : Nat) : Fld := ⟨0xd04008 + 0x20 * s, 47, 0, true⟩
-- CAN_ENC_CFG: 16_vehicle_networks.md R477
def CAN_ENC_CFG_EN (s : Nat) : Fld := ⟨0xd04010 + 0x20 * s, 31, 31, false⟩
def CAN_ENC_CFG_DIR (s : Nat) : Fld := ⟨0xd04010 + 0x20 * s, 30, 30, false⟩
def CAN_ENC_CFG_PORT (s : Nat) : Fld := ⟨0xd04010 + 0x20 * s, 29, 26, false⟩
def CAN_ENC_CFG_BATCH (s : Nat) : Fld := ⟨0xd04010 + 0x20 * s, 25, 22, false⟩
def CAN_ENC_CFG_PCP (s : Nat) : Fld := ⟨0xd04010 + 0x20 * s, 21, 19, false⟩
def CAN_ENC_CFG_TS (s : Nat) : Fld := ⟨0xd04010 + 0x20 * s, 18, 16, false⟩
def CAN_ENC_CFG_VID (s : Nat) : Fld := ⟨0xd04010 + 0x20 * s, 11, 0, false⟩
-- CAN_ENC_HOLD: 16_vehicle_networks.md R477
def CAN_ENC_HOLD_HOLD (s : Nat) : Fld := ⟨0xd04014 + 0x20 * s, 9, 0, false⟩
-- CAN_RULE: 16_vehicle_networks.md R476
def CAN_RULE_WORD (i w : Nat) : Fld := ⟨0xd10000 + 0x20 * i + 0x4 * w, 31, 0, false⟩
-- CAN_RCNT: 16_vehicle_networks.md R476
def CAN_RCNT_HITS (i : Nat) : Fld := ⟨0xd30000 + 0x4 * i, 31, 0, false⟩
-- NET_EVENT: 16_vehicle_networks.md R490
def NET_EVENT_GATE_LONG : Fld := ⟨0xe00000, 8, 8, false⟩
def NET_EVENT_POISON : Fld := ⟨0xe00000, 7, 7, false⟩
def NET_EVENT_RXLOST : Fld := ⟨0xe00000, 6, 6, false⟩
def NET_EVENT_PSFP_DROP : Fld := ⟨0xe00000, 5, 5, false⟩
def NET_EVENT_TAS_LATE : Fld := ⟨0xe00000, 4, 4, false⟩
def NET_EVENT_SYNC_TMO : Fld := ⟨0xe00000, 3, 3, false⟩
def NET_EVENT_LINK : Fld := ⟨0xe00000, 2, 2, false⟩
def NET_EVENT_ISO : Fld := ⟨0xe00000, 1, 1, false⟩
def NET_EVENT_CFG_ERR : Fld := ⟨0xe00000, 0, 0, false⟩
-- NET_MDIO: 16_vehicle_networks.md R490
def NET_MDIO_GO : Fld := ⟨0xe00004, 31, 31, false⟩
def NET_MDIO_C45 : Fld := ⟨0xe00004, 30, 30, false⟩
def NET_MDIO_OP : Fld := ⟨0xe00004, 29, 28, false⟩
def NET_MDIO_BUS : Fld := ⟨0xe00004, 27, 27, false⟩
def NET_MDIO_PHYAD : Fld := ⟨0xe00004, 25, 21, false⟩
def NET_MDIO_REG : Fld := ⟨0xe00004, 20, 16, false⟩
def NET_MDIO_DATA : Fld := ⟨0xe00004, 15, 0, false⟩
-- NET_PSFP_CTL: 16_vehicle_networks.md R485
def NET_PSFP_CTL_COMMIT : Fld := ⟨0xe00008, 31, 31, false⟩
def NET_PSFP_CTL_TS : Fld := ⟨0xe00008, 2, 0, false⟩
-- NET_PSFP_TAB: 16_vehicle_networks.md R485
def NET_PSFP_TAB_ADDR : Fld := ⟨0xe00010, 47, 0, true⟩
-- NET_P_CFG: 16_vehicle_networks.md R480
def NET_P_CFG_EN (n : Nat) : Fld := ⟨0xe01000 + 0x400 * n, 31, 31, false⟩
def NET_P_CFG_GW (n : Nat) : Fld := ⟨0xe01000 + 0x400 * n, 30, 30, false⟩
def NET_P_CFG_OWNER (n : Nat) : Fld := ⟨0xe01000 + 0x400 * n, 29, 26, false⟩
def NET_P_CFG_IF (n : Nat) : Fld := ⟨0xe01000 + 0x400 * n, 25, 23, false⟩
def NET_P_CFG_TXDLY (n : Nat) : Fld := ⟨0xe01000 + 0x400 * n, 22, 22, false⟩
def NET_P_CFG_RXDLY (n : Nat) : Fld := ⟨0xe01000 + 0x400 * n, 21, 21, false⟩
def NET_P_CFG_PAUSE (n : Nat) : Fld := ⟨0xe01000 + 0x400 * n, 20, 20, false⟩
def NET_P_CFG_MAXLEN (n : Nat) : Fld := ⟨0xe01000 + 0x400 * n, 13, 0, false⟩
-- NET_P_MAC: 16_vehicle_networks.md R480
def NET_P_MAC_MAC (n : Nat) : Fld := ⟨0xe01008 + 0x400 * n, 47, 0, true⟩
-- NET_P_STAT: 16_vehicle_networks.md R481
def NET_P_STAT_UP (n : Nat) : Fld := ⟨0xe01010 + 0x400 * n, 31, 31, false⟩
def NET_P_STAT_SPEED (n : Nat) : Fld := ⟨0xe01010 + 0x400 * n, 30, 28, false⟩
def NET_P_STAT_LINKDOWNS (n : Nat) : Fld := ⟨0xe01010 + 0x400 * n, 15, 0, false⟩
-- NET_P_RXMAP: 16_vehicle_networks.md R481
def NET_P_RXMAP_MAP (n : Nat) : Fld := ⟨0xe01014 + 0x400 * n, 23, 0, false⟩
-- NET_P_PTP: 16_vehicle_networks.md R483
def NET_P_PTP_ROLE (n : Nat) : Fld := ⟨0xe01018 + 0x400 * n, 31, 30, false⟩
def NET_P_PTP_LOGSYNC (n : Nat) : Fld := ⟨0xe01018 + 0x400 * n, 27, 24, false⟩
def NET_P_PTP_LOGPD (n : Nat) : Fld := ⟨0xe01018 + 0x400 * n, 23, 20, false⟩
def NET_P_PTP_TS (n : Nat) : Fld := ⟨0xe01018 + 0x400 * n, 2, 0, false⟩
-- NET_P_TAS_CTL: 16_vehicle_networks.md R484
def NET_P_TAS_CTL_COMMIT (n : Nat) : Fld := ⟨0xe0101c + 0x400 * n, 31, 31, false⟩
def NET_P_TAS_CTL_EN (n : Nat) : Fld := ⟨0xe0101c + 0x400 * n, 30, 30, false⟩
def NET_P_TAS_CTL_TS (n : Nat) : Fld := ⟨0xe0101c + 0x400 * n, 29, 27, false⟩
def NET_P_TAS_CTL_NENT (n : Nat) : Fld := ⟨0xe0101c + 0x400 * n, 8, 0, false⟩
-- NET_P_TAS_BASE: 16_vehicle_networks.md R484
def NET_P_TAS_BASE_BASE (n : Nat) : Fld := ⟨0xe01020 + 0x400 * n, 63, 0, true⟩
-- NET_P_TAS_LIST: 16_vehicle_networks.md R484
def NET_P_TAS_LIST_ADDR (n : Nat) : Fld := ⟨0xe01028 + 0x400 * n, 47, 0, true⟩
-- NET_TX_CFG: 16_vehicle_networks.md R481
def NET_TX_CFG_EN (n q : Nat) : Fld := ⟨0xe01100 + 0x400 * n + 0x40 * q, 31, 31, false⟩
def NET_TX_CFG_PSRC (n q : Nat) : Fld := ⟨0xe01100 + 0x400 * n + 0x40 * q, 30, 30, false⟩
def NET_TX_CFG_TS (n q : Nat) : Fld := ⟨0xe01100 + 0x400 * n + 0x40 * q, 26, 24, false⟩
def NET_TX_CFG_OWNER (n q : Nat) : Fld := ⟨0xe01100 + 0x400 * n + 0x40 * q, 23, 20, false⟩
def NET_TX_CFG_POLL (n q : Nat) : Fld := ⟨0xe01100 + 0x400 * n + 0x40 * q, 19, 15, false⟩
def NET_TX_CFG_LOG2SIZE (n q : Nat) : Fld := ⟨0xe01100 + 0x400 * n + 0x40 * q, 3, 0, false⟩
-- NET_TX_PIDX: 16_vehicle_networks.md R481
def NET_TX_PIDX_INDEX (n q : Nat) : Fld := ⟨0xe01104 + 0x400 * n + 0x40 * q, 31, 0, false⟩
-- NET_TX_CIDX: 16_vehicle_networks.md R481
def NET_TX_CIDX_INDEX (n q : Nat) : Fld := ⟨0xe01108 + 0x400 * n + 0x40 * q, 31, 0, false⟩
-- NET_TX_NOTE: 16_vehicle_networks.md R481
def NET_TX_NOTE_EN (n q : Nat) : Fld := ⟨0xe0110c + 0x400 * n + 0x40 * q, 15, 15, false⟩
def NET_TX_NOTE_CNT (n q : Nat) : Fld := ⟨0xe0110c + 0x400 * n + 0x40 * q, 12, 8, false⟩
def NET_TX_NOTE_CORE (n q : Nat) : Fld := ⟨0xe0110c + 0x400 * n + 0x40 * q, 7, 0, false⟩
-- NET_TX_SQ: 16_vehicle_networks.md R481
def NET_TX_SQ_ADDR (n q : Nat) : Fld := ⟨0xe01110 + 0x400 * n + 0x40 * q, 47, 0, true⟩
-- NET_TX_CQ: 16_vehicle_networks.md R481
def NET_TX_CQ_ADDR (n q : Nat) : Fld := ⟨0xe01118 + 0x400 * n + 0x40 * q, 47, 0, true⟩
-- NET_TX_PWORD: 16_vehicle_networks.md R481
def NET_TX_PWORD_ADDR (n q : Nat) : Fld := ⟨0xe01120 + 0x400 * n + 0x40 * q, 47, 0, true⟩
-- NET_RX_BASE: 16_vehicle_networks.md R481
def NET_RX_BASE_ADDR (n q : Nat) : Fld := ⟨0xe01300 + 0x400 * n + 0x20 * q, 47, 0, true⟩
-- NET_RX_CFG: 16_vehicle_networks.md R481
def NET_RX_CFG_EN (n q : Nat) : Fld := ⟨0xe01308 + 0x400 * n + 0x20 * q, 31, 31, false⟩
def NET_RX_CFG_OWNER (n q : Nat) : Fld := ⟨0xe01308 + 0x400 * n + 0x20 * q, 29, 26, false⟩
def NET_RX_CFG_SLOT (n q : Nat) : Fld := ⟨0xe01308 + 0x400 * n + 0x20 * q, 25, 22, false⟩
def NET_RX_CFG_LOG2SIZE (n q : Nat) : Fld := ⟨0xe01308 + 0x400 * n + 0x20 * q, 20, 16, false⟩
def NET_RX_CFG_NEN (n q : Nat) : Fld := ⟨0xe01308 + 0x400 * n + 0x20 * q, 15, 15, false⟩
def NET_RX_CFG_CNT (n q : Nat) : Fld := ⟨0xe01308 + 0x400 * n + 0x20 * q, 12, 8, false⟩
def NET_RX_CFG_CORE (n q : Nat) : Fld := ⟨0xe01308 + 0x400 * n + 0x20 * q, 7, 0, false⟩
-- NET_RX_WIDX: 16_vehicle_networks.md R481
def NET_RX_WIDX_COUNT (n q : Nat) : Fld := ⟨0xe0130c + 0x400 * n + 0x20 * q, 31, 0, false⟩
-- NET_RX_RADDR: 16_vehicle_networks.md R481
def NET_RX_RADDR_ADDR (n q : Nat) : Fld := ⟨0xe01310 + 0x400 * n + 0x20 * q, 47, 0, true⟩
-- NET_RX_LOST: 16_vehicle_networks.md R481
def NET_RX_LOST_COUNT (n q : Nat) : Fld := ⟨0xe01318 + 0x400 * n + 0x20 * q, 31, 0, false⟩
-- SER_EVENT: 16_vehicle_networks.md R490
def SER_EVENT_RXLOST : Fld := ⟨0x1000000, 4, 4, false⟩
def SER_EVENT_PARITY : Fld := ⟨0x1000000, 3, 3, false⟩
def SER_EVENT_FRAMING : Fld := ⟨0x1000000, 2, 2, false⟩
def SER_EVENT_ISO : Fld := ⟨0x1000000, 1, 1, false⟩
def SER_EVENT_CFG_ERR : Fld := ⟨0x1000000, 0, 0, false⟩
-- SER_U_CFG: 16_vehicle_networks.md R486
def SER_U_CFG_EN (u : Nat) : Fld := ⟨0x1001000 + 0x100 * u, 31, 31, false⟩
def SER_U_CFG_OWNER (u : Nat) : Fld := ⟨0x1001000 + 0x100 * u, 30, 27, false⟩
def SER_U_CFG_BITS (u : Nat) : Fld := ⟨0x1001000 + 0x100 * u, 26, 25, false⟩
def SER_U_CFG_PAR (u : Nat) : Fld := ⟨0x1001000 + 0x100 * u, 24, 23, false⟩
def SER_U_CFG_STOP2 (u : Nat) : Fld := ⟨0x1001000 + 0x100 * u, 22, 22, false⟩
def SER_U_CFG_CTSEN (u : Nat) : Fld := ⟨0x1001000 + 0x100 * u, 21, 21, false⟩
def SER_U_CFG_THRESH (u : Nat) : Fld := ⟨0x1001000 + 0x100 * u, 15, 0, false⟩
-- SER_U_BAUD: 16_vehicle_networks.md R486
def SER_U_BAUD_DIV (u : Nat) : Fld := ⟨0x1001004 + 0x100 * u, 19, 4, false⟩
def SER_U_BAUD_FRAC (u : Nat) : Fld := ⟨0x1001004 + 0x100 * u, 3, 0, false⟩
-- SER_U_STAT: 16_vehicle_networks.md R487
def SER_U_STAT_FALSE (u : Nat) : Fld := ⟨0x1001008 + 0x100 * u, 31, 16, false⟩
def SER_U_STAT_ERRS (u : Nat) : Fld := ⟨0x1001008 + 0x100 * u, 15, 0, false⟩
-- SER_TX_CFG: 16_vehicle_networks.md R486
def SER_TX_CFG_EN (u : Nat) : Fld := ⟨0x1001040 + 0x100 * u, 31, 31, false⟩
def SER_TX_CFG_PSRC (u : Nat) : Fld := ⟨0x1001040 + 0x100 * u, 30, 30, false⟩
def SER_TX_CFG_OWNER (u : Nat) : Fld := ⟨0x1001040 + 0x100 * u, 23, 20, false⟩
def SER_TX_CFG_POLL (u : Nat) : Fld := ⟨0x1001040 + 0x100 * u, 19, 15, false⟩
def SER_TX_CFG_LOG2SIZE (u : Nat) : Fld := ⟨0x1001040 + 0x100 * u, 3, 0, false⟩
-- SER_TX_PIDX: 16_vehicle_networks.md R486
def SER_TX_PIDX_INDEX (u : Nat) : Fld := ⟨0x1001044 + 0x100 * u, 31, 0, false⟩
-- SER_TX_CIDX: 16_vehicle_networks.md R486
def SER_TX_CIDX_INDEX (u : Nat) : Fld := ⟨0x1001048 + 0x100 * u, 31, 0, false⟩
-- SER_TX_NOTE: 16_vehicle_networks.md R486
def SER_TX_NOTE_EN (u : Nat) : Fld := ⟨0x100104c + 0x100 * u, 15, 15, false⟩
def SER_TX_NOTE_CNT (u : Nat) : Fld := ⟨0x100104c + 0x100 * u, 12, 8, false⟩
def SER_TX_NOTE_CORE (u : Nat) : Fld := ⟨0x100104c + 0x100 * u, 7, 0, false⟩
-- SER_TX_SQ: 16_vehicle_networks.md R486
def SER_TX_SQ_ADDR (u : Nat) : Fld := ⟨0x1001050 + 0x100 * u, 47, 0, true⟩
-- SER_TX_CQ: 16_vehicle_networks.md R486
def SER_TX_CQ_ADDR (u : Nat) : Fld := ⟨0x1001058 + 0x100 * u, 47, 0, true⟩
-- SER_TX_PWORD: 16_vehicle_networks.md R486
def SER_TX_PWORD_ADDR (u : Nat) : Fld := ⟨0x1001060 + 0x100 * u, 47, 0, true⟩
-- SER_RX_BASE: 16_vehicle_networks.md R486
def SER_RX_BASE_ADDR (u : Nat) : Fld := ⟨0x1001080 + 0x100 * u, 47, 0, true⟩
-- SER_RX_CFG: 16_vehicle_networks.md R486
def SER_RX_CFG_EN (u : Nat) : Fld := ⟨0x1001088 + 0x100 * u, 31, 31, false⟩
def SER_RX_CFG_OWNER (u : Nat) : Fld := ⟨0x1001088 + 0x100 * u, 29, 26, false⟩
def SER_RX_CFG_LOG2SIZE (u : Nat) : Fld := ⟨0x1001088 + 0x100 * u, 20, 16, false⟩
def SER_RX_CFG_NEN (u : Nat) : Fld := ⟨0x1001088 + 0x100 * u, 15, 15, false⟩
def SER_RX_CFG_CNT (u : Nat) : Fld := ⟨0x1001088 + 0x100 * u, 12, 8, false⟩
def SER_RX_CFG_CORE (u : Nat) : Fld := ⟨0x1001088 + 0x100 * u, 7, 0, false⟩
-- SER_RX_WIDX: 16_vehicle_networks.md R486
def SER_RX_WIDX_COUNT (u : Nat) : Fld := ⟨0x100108c + 0x100 * u, 31, 0, false⟩
-- SER_RX_RADDR: 16_vehicle_networks.md R486
def SER_RX_RADDR_ADDR (u : Nat) : Fld := ⟨0x1001090 + 0x100 * u, 47, 0, true⟩
-- SER_RX_LOST: 16_vehicle_networks.md R486
def SER_RX_LOST_COUNT (u : Nat) : Fld := ⟨0x1001098 + 0x100 * u, 31, 0, false⟩
-- SER_GPIO_CFG: 16_vehicle_networks.md R489
def SER_GPIO_CFG_OUT_EN (n : Nat) : Fld := ⟨0x1002000 + 0x4 * n, 31, 31, false⟩
def SER_GPIO_CFG_OWNER (n : Nat) : Fld := ⟨0x1002000 + 0x4 * n, 30, 27, false⟩
def SER_GPIO_CFG_MODE (n : Nat) : Fld := ⟨0x1002000 + 0x4 * n, 26, 25, false⟩
def SER_GPIO_CFG_FILT (n : Nat) : Fld := ⟨0x1002000 + 0x4 * n, 24, 21, false⟩
-- SER_GPIO_IN: 16_vehicle_networks.md R489
def SER_GPIO_IN_IN : Fld := ⟨0x1002080, 31, 0, false⟩
-- SER_GPIO_SET: 16_vehicle_networks.md R489
def SER_GPIO_SET_SET : Fld := ⟨0x1002084, 31, 0, false⟩
-- SER_GPIO_CLR: 16_vehicle_networks.md R489
def SER_GPIO_CLR_CLR : Fld := ⟨0x1002088, 31, 0, false⟩
-- SER_GPIO_OUT: 16_vehicle_networks.md R489
def SER_GPIO_OUT_OUT : Fld := ⟨0x100208c, 31, 0, false⟩
-- CKP_EVENT: 17_cockpit.md R502
def CKP_EVENT_AMP : Fld := ⟨0x1100000, 5, 5, false⟩
def CKP_EVENT_TT_FAIL : Fld := ⟨0x1100000, 4, 4, false⟩
def CKP_EVENT_TT_CRC : Fld := ⟨0x1100000, 3, 3, false⟩
def CKP_EVENT_UNDERRUN : Fld := ⟨0x1100000, 2, 2, false⟩
def CKP_EVENT_LINK : Fld := ⟨0x1100000, 1, 1, false⟩
def CKP_EVENT_CFG_ERR : Fld := ⟨0x1100000, 0, 0, false⟩
-- CKP_CFG: 17_cockpit.md R501
def CKP_CFG_EN : Fld := ⟨0x1100004, 31, 31, false⟩
def CKP_CFG_OWNER : Fld := ⟨0x1100004, 30, 27, false⟩
def CKP_CFG_POLL : Fld := ⟨0x1100004, 26, 22, false⟩
def CKP_CFG_NEN : Fld := ⟨0x1100004, 15, 15, false⟩
def CKP_CFG_CNT : Fld := ⟨0x1100004, 12, 8, false⟩
def CKP_CFG_CORE : Fld := ⟨0x1100004, 7, 0, false⟩
-- CKP_CMD: 17_cockpit.md R501
def CKP_CMD_ADDR : Fld := ⟨0x1100008, 47, 0, true⟩
-- CKP_D_CFG: 17_cockpit.md R491
def CKP_D_CFG_EN (o : Nat) : Fld := ⟨0x1101000 + 0x400 * o, 31, 31, false⟩
def CKP_D_CFG_LANES (o : Nat) : Fld := ⟨0x1101000 + 0x400 * o, 30, 29, false⟩
def CKP_D_CFG_RATE (o : Nat) : Fld := ⟨0x1101000 + 0x400 * o, 28, 27, false⟩
def CKP_D_CFG_BPC10 (o : Nat) : Fld := ⟨0x1101000 + 0x400 * o, 26, 26, false⟩
def CKP_D_CFG_BG (o : Nat) : Fld := ⟨0x1101000 + 0x400 * o, 23, 0, false⟩
-- CKP_D_CTL: 17_cockpit.md R494
def CKP_D_CTL_COMMIT (o : Nat) : Fld := ⟨0x1101004 + 0x400 * o, 31, 31, false⟩
-- CKP_D_STAT: 17_cockpit.md R495
def CKP_D_STAT_UP (o : Nat) : Fld := ⟨0x1101008 + 0x400 * o, 31, 31, false⟩
def CKP_D_STAT_UNDERRUN (o : Nat) : Fld := ⟨0x1101008 + 0x400 * o, 15, 0, false⟩
-- CKP_D_TT: 17_cockpit.md R496
def CKP_D_TT_EN (o : Nat) : Fld := ⟨0x110100c + 0x400 * o, 31, 31, false⟩
def CKP_D_TT_TT_ACT (o : Nat) : Fld := ⟨0x110100c + 0x400 * o, 30, 30, false⟩
def CKP_D_TT_TT_FAIL (o : Nat) : Fld := ⟨0x110100c + 0x400 * o, 29, 29, false⟩
def CKP_D_TT_TT_LIMIT (o : Nat) : Fld := ⟨0x110100c + 0x400 * o, 23, 16, false⟩
def CKP_D_TT_TT_STALE (o : Nat) : Fld := ⟨0x110100c + 0x400 * o, 15, 8, false⟩
def CKP_D_TT_TTMIS (o : Nat) : Fld := ⟨0x110100c + 0x400 * o, 7, 0, false⟩
-- CKP_D_HT: 17_cockpit.md R491
def CKP_D_HT_TOTAL (o : Nat) : Fld := ⟨0x1101010 + 0x400 * o, 31, 16, false⟩
def CKP_D_HT_ACTIVE (o : Nat) : Fld := ⟨0x1101010 + 0x400 * o, 15, 0, false⟩
-- CKP_D_VT: 17_cockpit.md R491
def CKP_D_VT_TOTAL (o : Nat) : Fld := ⟨0x1101014 + 0x400 * o, 31, 16, false⟩
def CKP_D_VT_ACTIVE (o : Nat) : Fld := ⟨0x1101014 + 0x400 * o, 15, 0, false⟩
-- CKP_D_SYNC: 17_cockpit.md R491
def CKP_D_SYNC_VSYNC (o : Nat) : Fld := ⟨0x1101018 + 0x400 * o, 31, 16, false⟩
def CKP_D_SYNC_HSYNC (o : Nat) : Fld := ⟨0x1101018 + 0x400 * o, 15, 0, false⟩
-- CKP_D_PCLK: 17_cockpit.md R491
def CKP_D_PCLK_KHZ (o : Nat) : Fld := ⟨0x110101c + 0x400 * o, 19, 0, false⟩
-- CKP_D_NOTE: 17_cockpit.md R497
def CKP_D_NOTE_EN (o : Nat) : Fld := ⟨0x1101020 + 0x400 * o, 15, 15, false⟩
def CKP_D_NOTE_CNT (o : Nat) : Fld := ⟨0x1101020 + 0x400 * o, 12, 8, false⟩
def CKP_D_NOTE_CORE (o : Nat) : Fld := ⟨0x1101020 + 0x400 * o, 7, 0, false⟩
-- CKP_L_ADDR: 17_cockpit.md R494
def CKP_L_ADDR_ADDR (o l : Nat) : Fld := ⟨0x1101100 + 0x400 * o + 0x20 * l, 47, 0, true⟩
-- CKP_L_SIZE: 17_cockpit.md R494
def CKP_L_SIZE_H (o l : Nat) : Fld := ⟨0x1101108 + 0x400 * o + 0x20 * l, 31, 16, false⟩
def CKP_L_SIZE_W (o l : Nat) : Fld := ⟨0x1101108 + 0x400 * o + 0x20 * l, 15, 0, false⟩
-- CKP_L_POS: 17_cockpit.md R494
def CKP_L_POS_Y (o l : Nat) : Fld := ⟨0x110110c + 0x400 * o + 0x20 * l, 31, 16, false⟩
def CKP_L_POS_X (o l : Nat) : Fld := ⟨0x110110c + 0x400 * o + 0x20 * l, 15, 0, false⟩
-- CKP_L_CFG: 17_cockpit.md R494
def CKP_L_CFG_EN (o l : Nat) : Fld := ⟨0x1101110 + 0x400 * o + 0x20 * l, 31, 31, false⟩
def CKP_L_CFG_FMT (o l : Nat) : Fld := ⟨0x1101110 + 0x400 * o + 0x20 * l, 30, 29, false⟩
def CKP_L_CFG_GALPHA (o l : Nat) : Fld := ⟨0x1101110 + 0x400 * o + 0x20 * l, 28, 21, false⟩
def CKP_L_CFG_PITCH (o l : Nat) : Fld := ⟨0x1101110 + 0x400 * o + 0x20 * l, 17, 0, false⟩
-- CKP_T_CFG: 17_cockpit.md R498
def CKP_T_CFG_EN (n : Nat) : Fld := ⟨0x1102000 + 0x100 * n, 31, 31, false⟩
def CKP_T_CFG_MASTER (n : Nat) : Fld := ⟨0x1102000 + 0x100 * n, 30, 30, false⟩
def CKP_T_CFG_FS96 (n : Nat) : Fld := ⟨0x1102000 + 0x100 * n, 29, 29, false⟩
def CKP_T_CFG_SLOTS (n : Nat) : Fld := ⟨0x1102000 + 0x100 * n, 28, 27, false⟩
def CKP_T_CFG_W32 (n : Nat) : Fld := ⟨0x1102000 + 0x100 * n, 26, 26, false⟩
def CKP_T_CFG_I2S (n : Nat) : Fld := ⟨0x1102000 + 0x100 * n, 25, 25, false⟩
def CKP_T_CFG_S24 (n : Nat) : Fld := ⟨0x1102000 + 0x100 * n, 24, 24, false⟩
-- CKP_TX_CFG: 17_cockpit.md R499
def CKP_TX_CFG_EN (n : Nat) : Fld := ⟨0x1102040 + 0x100 * n, 31, 31, false⟩
def CKP_TX_CFG_PSRC (n : Nat) : Fld := ⟨0x1102040 + 0x100 * n, 30, 30, false⟩
def CKP_TX_CFG_OWNER (n : Nat) : Fld := ⟨0x1102040 + 0x100 * n, 23, 20, false⟩
def CKP_TX_CFG_POLL (n : Nat) : Fld := ⟨0x1102040 + 0x100 * n, 19, 15, false⟩
def CKP_TX_CFG_LOG2SIZE (n : Nat) : Fld := ⟨0x1102040 + 0x100 * n, 3, 0, false⟩
-- CKP_TX_PIDX: 17_cockpit.md R499
def CKP_TX_PIDX_INDEX (n : Nat) : Fld := ⟨0x1102044 + 0x100 * n, 31, 0, false⟩
-- CKP_TX_CIDX: 17_cockpit.md R499
def CKP_TX_CIDX_INDEX (n : Nat) : Fld := ⟨0x1102048 + 0x100 * n, 31, 0, false⟩
-- CKP_TX_NOTE: 17_cockpit.md R499
def CKP_TX_NOTE_EN (n : Nat) : Fld := ⟨0x110204c + 0x100 * n, 15, 15, false⟩
def CKP_TX_NOTE_CNT (n : Nat) : Fld := ⟨0x110204c + 0x100 * n, 12, 8, false⟩
def CKP_TX_NOTE_CORE (n : Nat) : Fld := ⟨0x110204c + 0x100 * n, 7, 0, false⟩
-- CKP_TX_SQ: 17_cockpit.md R499
def CKP_TX_SQ_ADDR (n : Nat) : Fld := ⟨0x1102050 + 0x100 * n, 47, 0, true⟩
-- CKP_TX_CQ: 17_cockpit.md R499
def CKP_TX_CQ_ADDR (n : Nat) : Fld := ⟨0x1102058 + 0x100 * n, 47, 0, true⟩
-- CKP_TX_PWORD: 17_cockpit.md R499
def CKP_TX_PWORD_ADDR (n : Nat) : Fld := ⟨0x1102060 + 0x100 * n, 47, 0, true⟩
-- CKP_RX_BASE: 17_cockpit.md R499
def CKP_RX_BASE_ADDR (n : Nat) : Fld := ⟨0x1102080 + 0x100 * n, 47, 0, true⟩
-- CKP_RX_CFG: 17_cockpit.md R499
def CKP_RX_CFG_EN (n : Nat) : Fld := ⟨0x1102088 + 0x100 * n, 31, 31, false⟩
def CKP_RX_CFG_LOG2SIZE (n : Nat) : Fld := ⟨0x1102088 + 0x100 * n, 20, 16, false⟩
def CKP_RX_CFG_NEN (n : Nat) : Fld := ⟨0x1102088 + 0x100 * n, 15, 15, false⟩
def CKP_RX_CFG_CNT (n : Nat) : Fld := ⟨0x1102088 + 0x100 * n, 12, 8, false⟩
def CKP_RX_CFG_CORE (n : Nat) : Fld := ⟨0x1102088 + 0x100 * n, 7, 0, false⟩
-- CKP_RX_WIDX: 17_cockpit.md R499
def CKP_RX_WIDX_COUNT (n : Nat) : Fld := ⟨0x110208c + 0x100 * n, 31, 0, false⟩
-- CKP_RX_RADDR: 17_cockpit.md R499
def CKP_RX_RADDR_ADDR (n : Nat) : Fld := ⟨0x1102090 + 0x100 * n, 47, 0, true⟩
-- CKP_RX_LOST: 17_cockpit.md R499
def CKP_RX_LOST_COUNT (n : Nat) : Fld := ⟨0x1102098 + 0x100 * n, 31, 0, false⟩
-- CKP_CH: 17_cockpit.md R498
def CKP_CH_EN (j : Nat) : Fld := ⟨0x1103000 + 0x4 * j, 31, 31, false⟩
def CKP_CH_PORT (j : Nat) : Fld := ⟨0x1103000 + 0x4 * j, 30, 29, false⟩
def CKP_CH_SLOT (j : Nat) : Fld := ⟨0x1103000 + 0x4 * j, 28, 25, false⟩
def CKP_CH_AMP (j : Nat) : Fld := ⟨0x1103000 + 0x4 * j, 24, 21, false⟩
def CKP_CH_RAMP (j : Nat) : Fld := ⟨0x1103000 + 0x4 * j, 1, 1, false⟩
def CKP_CH_MUTE (j : Nat) : Fld := ⟨0x1103000 + 0x4 * j, 0, 0, false⟩
-- CKP_AMP_LOG: 17_cockpit.md R500
def CKP_AMP_LOG_STAMP (k : Nat) : Fld := ⟨0x1103100 + 0x10 * k, 63, 0, true⟩
-- CKP_AMP_CFG: 17_cockpit.md R500
def CKP_AMP_CFG_FILT (k : Nat) : Fld := ⟨0x1103108 + 0x10 * k, 3, 0, false⟩
-- CKP_AMP_MASK: 17_cockpit.md R500
def CKP_AMP_MASK_MASK (k : Nat) : Fld := ⟨0x110310c + 0x10 * k, 31, 0, false⟩
-- PWR_EVENT: 18_clocks_power.md R528
def PWR_EVENT_PMIC_FAIL : Fld := ⟨0x100000, 9, 9, false⟩
def PWR_EVENT_CELLAR_REF : Fld := ⟨0x100000, 8, 8, false⟩
def PWR_EVENT_WAKE : Fld := ⟨0x100000, 7, 7, false⟩
def PWR_EVENT_SAG_END : Fld := ⟨0x100000, 6, 6, false⟩
def PWR_EVENT_SAG : Fld := ⟨0x100000, 5, 5, false⟩
def PWR_EVENT_CLKFAULT : Fld := ⟨0x100000, 4, 4, false⟩
def PWR_EVENT_SUPFAULT : Fld := ⟨0x100000, 3, 3, false⟩
def PWR_EVENT_SUPWARN : Fld := ⟨0x100000, 2, 2, false⟩
def PWR_EVENT_REG_DONE : Fld := ⟨0x100000, 1, 1, false⟩
def PWR_EVENT_CFG_ERR : Fld := ⟨0x100000, 0, 0, false⟩
-- PWR_CFG: 18_clocks_power.md R512
def PWR_CFG_AUTO : Fld := ⟨0x100004, 31, 31, false⟩
def PWR_CFG_STEEP_HOLD : Fld := ⟨0x100004, 25, 16, false⟩
def PWR_CFG_REST_HOLD : Fld := ⟨0x100004, 7, 0, false⟩
-- PWR_RAMP_STAT: 18_clocks_power.md R518
def PWR_RAMP_STAT_MAXQ : Fld := ⟨0x100008, 15, 8, false⟩
def PWR_RAMP_STAT_QUEUED : Fld := ⟨0x100008, 6, 0, false⟩
-- PWR_SAG: 18_clocks_power.md R520
def PWR_SAG_AO : Fld := ⟨0x10000c, 31, 31, false⟩
def PWR_SAG_NVM : Fld := ⟨0x10000c, 30, 30, false⟩
def PWR_SAG_HOLD : Fld := ⟨0x10000c, 29, 29, false⟩
def PWR_SAG_PEND : Fld := ⟨0x10000c, 21, 16, false⟩
def PWR_SAG_LOST : Fld := ⟨0x10000c, 15, 0, false⟩
-- PWR_CLKMON: 18_clocks_power.md R505
def PWR_CLKMON_AO : Fld := ⟨0x100010, 12, 12, false⟩
def PWR_CLKMON_REG : Fld := ⟨0x100010, 11, 4, false⟩
def PWR_CLKMON_TIME : Fld := ⟨0x100010, 3, 3, false⟩
def PWR_CLKMON_CTL : Fld := ⟨0x100010, 2, 2, false⟩
def PWR_CLKMON_FAB : Fld := ⟨0x100010, 1, 1, false⟩
def PWR_CLKMON_REF : Fld := ⟨0x100010, 0, 0, false⟩
-- PWR_DOM_MODE: 18_clocks_power.md R510
def PWR_DOM_MODE_MODE (w : Nat) : Fld := ⟨0x100020 + 0x4 * w, 31, 0, false⟩
-- PWR_DOM_STAT: 18_clocks_power.md R509
def PWR_DOM_STAT_STATE (w : Nat) : Fld := ⟨0x100040 + 0x4 * w, 31, 0, false⟩
-- PWR_REG_CFG: 18_clocks_power.md R508
def PWR_REG_CFG_TARGET (r : Nat) : Fld := ⟨0x100100 + 0x8 * r, 10, 0, false⟩
-- PWR_REG_STAT: 18_clocks_power.md R508
def PWR_REG_STAT_BUSY (r : Nat) : Fld := ⟨0x100104 + 0x8 * r, 31, 31, false⟩
def PWR_REG_STAT_FALLBACK (r : Nat) : Fld := ⟨0x100104 + 0x8 * r, 30, 30, false⟩
def PWR_REG_STAT_VOLT (r : Nat) : Fld := ⟨0x100104 + 0x8 * r, 29, 20, false⟩
def PWR_REG_STAT_FREQ (r : Nat) : Fld := ⟨0x100104 + 0x8 * r, 10, 0, false⟩
-- PWR_MON_CFG: 18_clocks_power.md R519
def PWR_MON_CFG_EN (m : Nat) : Fld := ⟨0x100200 + 0x8 * m, 31, 31, false⟩
def PWR_MON_CFG_UVW (m : Nat) : Fld := ⟨0x100200 + 0x8 * m, 23, 16, false⟩
def PWR_MON_CFG_UVF (m : Nat) : Fld := ⟨0x100200 + 0x8 * m, 15, 8, false⟩
def PWR_MON_CFG_OVF (m : Nat) : Fld := ⟨0x100200 + 0x8 * m, 7, 0, false⟩
-- PWR_MON_STAT: 18_clocks_power.md R519
def PWR_MON_STAT_OV (m : Nat) : Fld := ⟨0x100204 + 0x8 * m, 2, 2, false⟩
def PWR_MON_STAT_UVF (m : Nat) : Fld := ⟨0x100204 + 0x8 * m, 1, 1, false⟩
def PWR_MON_STAT_UVW (m : Nat) : Fld := ⟨0x100204 + 0x8 * m, 0, 0, false⟩
-- PWR_CELLAR_CFG: 18_clocks_power.md R521
def PWR_CELLAR_CFG_REQ_EN : Fld := ⟨0x100300, 31, 31, false⟩
def PWR_CELLAR_CFG_REQPART : Fld := ⟨0x100300, 27, 24, false⟩
-- PWR_CELLAR_CTL: 18_clocks_power.md R521
def PWR_CELLAR_CTL_KEY : Fld := ⟨0x100304, 31, 16, false⟩
def PWR_CELLAR_CTL_ENTER : Fld := ⟨0x100304, 0, 0, false⟩
-- PWR_WAKE_REC: 18_clocks_power.md R523
def PWR_WAKE_REC_STAMP : Fld := ⟨0x100308, 63, 0, true⟩
-- PWR_WAKE_SRC: 18_clocks_power.md R523
def PWR_WAKE_SRC_SRC : Fld := ⟨0x100310, 7, 0, false⟩
-- PWR_WAKE_ID: 18_clocks_power.md R524
def PWR_WAKE_ID_IDE : Fld := ⟨0x100314, 29, 29, false⟩
def PWR_WAKE_ID_ID : Fld := ⟨0x100314, 28, 0, false⟩
-- PWR_ETHWAKE_CFG: 18_clocks_power.md R525
def PWR_ETHWAKE_CFG_EN0 : Fld := ⟨0x100318, 31, 31, false⟩
def PWR_ETHWAKE_CFG_EN1 : Fld := ⟨0x100318, 30, 30, false⟩
-- PWR_CANWAKE_CFG: 18_clocks_power.md R524
def PWR_CANWAKE_CFG_EN (k : Nat) : Fld := ⟨0x100320 + 0x10 * k, 31, 31, false⟩
def PWR_CANWAKE_CFG_MODE (k : Nat) : Fld := ⟨0x100320 + 0x10 * k, 30, 30, false⟩
def PWR_CANWAKE_CFG_RATE (k : Nat) : Fld := ⟨0x100320 + 0x10 * k, 29, 28, false⟩
def PWR_CANWAKE_CFG_WFILT (k : Nat) : Fld := ⟨0x100320 + 0x10 * k, 7, 0, false⟩
-- PWR_CANWAKE_ID: 18_clocks_power.md R524
def PWR_CANWAKE_ID_IDE (k : Nat) : Fld := ⟨0x100324 + 0x10 * k, 29, 29, false⟩
def PWR_CANWAKE_ID_ID (k : Nat) : Fld := ⟨0x100324 + 0x10 * k, 28, 0, false⟩
-- PWR_CANWAKE_MASK: 18_clocks_power.md R524
def PWR_CANWAKE_MASK_IDE (k : Nat) : Fld := ⟨0x100328 + 0x10 * k, 29, 29, false⟩
def PWR_CANWAKE_MASK_ID (k : Nat) : Fld := ⟨0x100328 + 0x10 * k, 28, 0, false⟩
-- SYS_ID: 19_startup.md R7
def SYS_ID_PART : Fld := ⟨0x0, 31, 16, false⟩
def SYS_ID_GRADE : Fld := ⟨0x0, 15, 14, false⟩
def SYS_ID_STEP_MAJ : Fld := ⟨0x0, 7, 4, false⟩
def SYS_ID_STEP_MIN : Fld := ⟨0x0, 3, 0, false⟩
-- SYS_BOOT_STATUS: 19_startup.md R537
def SYS_BOOT_STATUS_STAGE : Fld := ⟨0x4, 31, 28, false⟩
def SYS_BOOT_STATUS_COPY : Fld := ⟨0x4, 27, 27, false⟩
def SYS_BOOT_STATUS_OPT_FALLBACK : Fld := ⟨0x4, 26, 26, false⟩
def SYS_BOOT_STATUS_OPT_FAIL : Fld := ⟨0x4, 25, 25, false⟩
def SYS_BOOT_STATUS_RETIRE_SHORT : Fld := ⟨0x4, 24, 24, false⟩
def SYS_BOOT_STATUS_EXCL : Fld := ⟨0x4, 23, 23, false⟩
def SYS_BOOT_STATUS_UNKEYED : Fld := ⟨0x4, 22, 22, false⟩
def SYS_BOOT_STATUS_XSPI_REL : Fld := ⟨0x4, 21, 21, false⟩
def SYS_BOOT_STATUS_NOFLASH : Fld := ⟨0x4, 20, 20, false⟩
def SYS_BOOT_STATUS_MCIF : Fld := ⟨0x4, 19, 8, false⟩
def SYS_BOOT_STATUS_REASON : Fld := ⟨0x4, 7, 0, false⟩
-- SYS_BOOT_FAIL: 19_startup.md R550
def SYS_BOOT_FAIL_ID : Fld := ⟨0x8, 31, 16, false⟩
def SYS_BOOT_FAIL_REASON0 : Fld := ⟨0x8, 15, 8, false⟩
def SYS_BOOT_FAIL_REASON1 : Fld := ⟨0x8, 7, 0, false⟩
-- SYS_LOCK: 19_startup.md R547
def SYS_LOCK_LOCK : Fld := ⟨0xc, 31, 31, false⟩
def SYS_LOCK_LASTVIOL : Fld := ⟨0xc, 25, 0, false⟩
-- SYS_LOCK_VIOL: 19_startup.md R547
def SYS_LOCK_VIOL_COUNT : Fld := ⟨0x10, 31, 0, false⟩
-- SYS_RST_CTL: 19_startup.md R554
def SYS_RST_CTL_KEY : Fld := ⟨0x14, 31, 16, false⟩
def SYS_RST_CTL_CRST : Fld := ⟨0x14, 0, 0, false⟩
-- SYS_RST_STAT: 19_startup.md R554
def SYS_RST_STAT_COUNT : Fld := ⟨0x18, 31, 16, false⟩
def SYS_RST_STAT_LAST : Fld := ⟨0x18, 1, 0, false⟩
-- SYS_SVN: 19_startup.md R559
def SYS_SVN_IMG : Fld := ⟨0x1c, 13, 8, false⟩
def SYS_SVN_FUSE : Fld := ⟨0x1c, 5, 0, false⟩
-- SYS_IMAGE_ID: 19_startup.md R531
def SYS_IMAGE_ID_ID : Fld := ⟨0x20, 63, 0, true⟩
-- SYS_TRAIN_STAT: 19_startup.md R544
def SYS_TRAIN_STAT_LP_FAIL : Fld := ⟨0x28, 31, 16, false⟩
def SYS_TRAIN_STAT_LP_OK : Fld := ⟨0x28, 15, 0, false⟩
-- SYS_DBG: 19_startup.md R581
def SYS_DBG_CLOSED : Fld := ⟨0x2c, 1, 1, false⟩
def SYS_DBG_OPEN : Fld := ⟨0x2c, 0, 0, false⟩
-- SYS_REMAP: 19_startup.md R541
def SYS_REMAP_SKIP5 (w : Nat) : Fld := ⟨0x30 + 0x4 * w, 29, 25, false⟩
def SYS_REMAP_SKIP4 (w : Nat) : Fld := ⟨0x30 + 0x4 * w, 24, 20, false⟩
def SYS_REMAP_SKIP3 (w : Nat) : Fld := ⟨0x30 + 0x4 * w, 19, 15, false⟩
def SYS_REMAP_SKIP2 (w : Nat) : Fld := ⟨0x30 + 0x4 * w, 14, 10, false⟩
def SYS_REMAP_SKIP1 (w : Nat) : Fld := ⟨0x30 + 0x4 * w, 9, 5, false⟩
def SYS_REMAP_SKIP0 (w : Nat) : Fld := ⟨0x30 + 0x4 * w, 4, 0, false⟩
-- SYS_REMAP2: 19_startup.md R541
def SYS_REMAP2_SKIP3 : Fld := ⟨0x38, 19, 15, false⟩
def SYS_REMAP2_SKIP2 : Fld := ⟨0x38, 14, 10, false⟩
def SYS_REMAP2_SKIP1 : Fld := ⟨0x38, 9, 5, false⟩
def SYS_REMAP2_SKIP0 : Fld := ⟨0x38, 4, 0, false⟩
-- SYS_BOOT_TIME: 19_startup.md R537
def SYS_BOOT_TIME_COUNT (m : Nat) : Fld := ⟨0x40 + 0x8 * m, 63, 0, true⟩
-- SYS_LOG_CTL: 19_startup.md R558
def SYS_LOG_CTL_GO : Fld := ⟨0x80, 31, 31, false⟩
def SYS_LOG_CTL_LOG : Fld := ⟨0x80, 30, 30, false⟩
def SYS_LOG_CTL_DONE : Fld := ⟨0x80, 29, 29, false⟩
def SYS_LOG_CTL_VALID : Fld := ⟨0x80, 28, 28, false⟩
def SYS_LOG_CTL_INDEX : Fld := ⟨0x80, 23, 0, false⟩
-- SYS_LOG_SEQ: 19_startup.md R558
def SYS_LOG_SEQ_SEQ : Fld := ⟨0x84, 31, 0, false⟩
-- SYS_LOG_DATA: 19_startup.md R558
def SYS_LOG_DATA_DATA (i : Nat) : Fld := ⟨0xc0 + 0x4 * i, 31, 0, false⟩

end Sys2Proof.Machine
end

