-- ==== Sys2Proof/Machine/RegTable.lean ====
section
/-! DEFINITION. The register tables of the spec, row by row: base offset, array dimensions (count and stride), width in
words, whether R554 keeps the register over a compute reset, and each field with its bits, access code, reset value and
legal settings (R18, R20).  A reset written as image or fuse stands here as its value before start-up has loaded it
(0 unless notes/assumptions says otherwise). -/

namespace Sys2Proof.Machine

/-- Access codes of R18. -/
inductive Acc where
  | ro | rw | rw1c | wo | rwl | rws
  deriving DecidableEq, Repr

/-- One field of a register table: bits, access code, reset value, legal settings as closed ranges (none listed: all). -/
structure FieldRow where
  hi : Nat
  lo : Nat
  acc : Acc
  reset : Nat
  legal : List (Nat × Nat)
  deriving DecidableEq, Repr

/-- One register table row. -/
structure RegRow where
  name : String
  base : Nat
  dims : List (Nat × Nat)
  words : Nat
  keep : Bool
  fields : List FieldRow
  deriving DecidableEq, Repr

def regRowsSYS0 : List RegRow := [
  ⟨"SYS_ID", 0x0, [], 1, true,
    [⟨31, 16, .ro, 0x9256, []⟩, ⟨15, 14, .ro, 0, []⟩, ⟨7, 4, .ro, 2, []⟩, ⟨3, 0, .ro, 1, []⟩]⟩,
  ⟨"SYS_BOOT_STATUS", 0x4, [], 1, false,
    [⟨31, 28, .ro, 0, []⟩, ⟨27, 27, .ro, 0, []⟩, ⟨26, 26, .ro, 0, []⟩, ⟨25, 25, .ro, 0, []⟩, ⟨24, 24, .ro, 0, []⟩, ⟨23, 23, .ro, 0, []⟩, ⟨22, 22, .ro, 0, []⟩, ⟨21, 21, .ro, 0, []⟩, ⟨20, 20, .ro, 0, []⟩, ⟨19, 8, .ro, 0, []⟩, ⟨7, 0, .ro, 0, []⟩]⟩,
  ⟨"SYS_BOOT_FAIL", 0x8, [], 1, false,
    [⟨31, 16, .ro, 0, []⟩, ⟨15, 8, .ro, 0, []⟩, ⟨7, 0, .ro, 0, []⟩]⟩,
  ⟨"SYS_LOCK", 0xc, [], 1, false,
    [⟨31, 31, .rwl, 0, []⟩, ⟨25, 0, .ro, 0, []⟩]⟩,
  ⟨"SYS_LOCK_VIOL", 0x10, [], 1, false,
    [⟨31, 0, .rw, 0, []⟩]⟩,
  ⟨"SYS_RST_CTL", 0x14, [], 1, false,
    [⟨31, 16, .wo, 0, []⟩, ⟨0, 0, .wo, 0, []⟩]⟩,
  ⟨"SYS_RST_STAT", 0x18, [], 1, true,
    [⟨31, 16, .rws, 0, []⟩, ⟨1, 0, .rws, 0, []⟩]⟩,
  ⟨"SYS_SVN", 0x1c, [], 1, false,
    [⟨13, 8, .ro, 0, []⟩, ⟨5, 0, .ro, 0, []⟩]⟩,
  ⟨"SYS_IMAGE_ID", 0x20, [], 2, false,
    [⟨63, 0, .ro, 0, []⟩]⟩,
  ⟨"SYS_TRAIN_STAT", 0x28, [], 1, true,
    [⟨31, 16, .ro, 0, []⟩, ⟨15, 0, .ro, 0, []⟩]⟩,
  ⟨"SYS_DBG", 0x2c, [], 1, true,
    [⟨1, 1, .ro, 0, []⟩, ⟨0, 0, .ro, 0, []⟩]⟩,
  ⟨"SYS_REMAP", 0x30, [(2, 0x4)], 1, true,
    [⟨29, 25, .ro, 0x1f, []⟩, ⟨24, 20, .ro, 0x1f, []⟩, ⟨19, 15, .ro, 0x1f, []⟩, ⟨14, 10, .ro, 0x1f, []⟩, ⟨9, 5, .ro, 0x1f, []⟩, ⟨4, 0, .ro, 0x1f, []⟩]⟩]

def regRowsSYS1 : List RegRow := [
  ⟨"SYS_REMAP2", 0x38, [], 1, true,
    [⟨19, 15, .ro, 0x1f, []⟩, ⟨14, 10, .ro, 0x1f, []⟩, ⟨9, 5, .ro, 0x1f, []⟩, ⟨4, 0, .ro, 0x1f, []⟩]⟩,
  ⟨"SYS_BOOT_TIME", 0x40, [(8, 0x8)], 2, false,
    [⟨63, 0, .ro, 0, []⟩]⟩,
  ⟨"SYS_LOG_CTL", 0x80, [], 1, false,
    [⟨31, 31, .rw, 0, []⟩, ⟨30, 30, .rw, 0, []⟩, ⟨29, 29, .rw1c, 0, []⟩, ⟨28, 28, .ro, 0, []⟩, ⟨23, 0, .rw, 0, []⟩]⟩,
  ⟨"SYS_LOG_SEQ", 0x84, [], 1, false,
    [⟨31, 0, .ro, 0, []⟩]⟩,
  ⟨"SYS_LOG_DATA", 0xc0, [(16, 0x4)], 1, false,
    [⟨31, 0, .ro, 0, []⟩]⟩]

/-- The rows of block SYS. -/
def regRowsSYS : List RegRow := regRowsSYS0 ++ regRowsSYS1

def regRowsPWR0 : List RegRow := [
  ⟨"PWR_EVENT", 0x100000, [], 1, true,
    [⟨9, 9, .rw1c, 0, []⟩, ⟨8, 8, .rw1c, 0, []⟩, ⟨7, 7, .rw1c, 0, []⟩, ⟨6, 6, .rw1c, 0, []⟩, ⟨5, 5, .rw1c, 0, []⟩, ⟨4, 4, .rw1c, 0, []⟩, ⟨3, 3, .rw1c, 0, []⟩, ⟨2, 2, .rw1c, 0, []⟩, ⟨1, 1, .rw1c, 0, []⟩, ⟨0, 0, .rw1c, 0, []⟩]⟩,
  ⟨"PWR_CFG", 0x100004, [], 1, true,
    [⟨31, 31, .rwl, 0, []⟩, ⟨25, 16, .rwl, 0, [(1, 1023)]⟩, ⟨7, 0, .rwl, 0, [(16, 255)]⟩]⟩,
  ⟨"PWR_RAMP_STAT", 0x100008, [], 1, true,
    [⟨15, 8, .rw, 0, []⟩, ⟨6, 0, .ro, 0, []⟩]⟩,
  ⟨"PWR_SAG", 0x10000c, [], 1, true,
    [⟨31, 31, .ro, 0, []⟩, ⟨30, 30, .ro, 0, []⟩, ⟨29, 29, .ro, 0, []⟩, ⟨21, 16, .ro, 0, []⟩, ⟨15, 0, .rw, 0, []⟩]⟩,
  ⟨"PWR_CLKMON", 0x100010, [], 1, true,
    [⟨12, 12, .rw1c, 0, []⟩, ⟨11, 4, .rw1c, 0, []⟩, ⟨3, 3, .rw1c, 0, []⟩, ⟨2, 2, .rw1c, 0, []⟩, ⟨1, 1, .rw1c, 0, []⟩, ⟨0, 0, .rw1c, 0, []⟩]⟩,
  ⟨"PWR_DOM_MODE", 0x100020, [(7, 0x4)], 1, true,
    [⟨31, 0, .rwl, 0, []⟩]⟩,
  ⟨"PWR_DOM_STAT", 0x100040, [(7, 0x4)], 1, true,
    [⟨31, 0, .ro, 0, []⟩]⟩,
  ⟨"PWR_REG_CFG", 0x100100, [(8, 0x8)], 1, true,
    [⟨10, 0, .rw, 0x258, []⟩]⟩,
  ⟨"PWR_REG_STAT", 0x100104, [(8, 0x8)], 1, true,
    [⟨31, 31, .ro, 0, []⟩, ⟨30, 30, .ro, 0, []⟩, ⟨29, 20, .ro, 0x258, []⟩, ⟨10, 0, .ro, 0x258, []⟩]⟩,
  ⟨"PWR_MON_CFG", 0x100200, [(8, 0x8)], 1, true,
    [⟨31, 31, .rwl, 0, []⟩, ⟨23, 16, .rwl, 0, [(1, 255)]⟩, ⟨15, 8, .rwl, 0, []⟩, ⟨7, 0, .rwl, 0, [(1, 255)]⟩]⟩,
  ⟨"PWR_MON_STAT", 0x100204, [(8, 0x8)], 1, true,
    [⟨2, 2, .rw1c, 0, []⟩, ⟨1, 1, .rw1c, 0, []⟩, ⟨0, 0, .rw1c, 0, []⟩]⟩,
  ⟨"PWR_CELLAR_CFG", 0x100300, [], 1, true,
    [⟨31, 31, .rwl, 0, []⟩, ⟨27, 24, .rwl, 0, []⟩]⟩]

def regRowsPWR1 : List RegRow := [
  ⟨"PWR_CELLAR_CTL", 0x100304, [], 1, true,
    [⟨31, 16, .wo, 0, []⟩, ⟨0, 0, .wo, 0, []⟩]⟩,
  ⟨"PWR_WAKE_REC", 0x100308, [], 2, true,
    [⟨63, 0, .ro, 0, []⟩]⟩,
  ⟨"PWR_WAKE_SRC", 0x100310, [], 1, true,
    [⟨7, 0, .ro, 0, []⟩]⟩,
  ⟨"PWR_WAKE_ID", 0x100314, [], 1, true,
    [⟨29, 29, .ro, 0, []⟩, ⟨28, 0, .ro, 0, []⟩]⟩,
  ⟨"PWR_ETHWAKE_CFG", 0x100318, [], 1, true,
    [⟨31, 31, .rwl, 0, []⟩, ⟨30, 30, .rwl, 0, []⟩]⟩,
  ⟨"PWR_CANWAKE_CFG", 0x100320, [(4, 0x10)], 1, true,
    [⟨31, 31, .rwl, 0, []⟩, ⟨30, 30, .rwl, 0, []⟩, ⟨29, 28, .rwl, 0, [(0, 2)]⟩, ⟨7, 0, .rwl, 0, [(8, 255)]⟩]⟩,
  ⟨"PWR_CANWAKE_ID", 0x100324, [(4, 0x10)], 1, true,
    [⟨29, 29, .rwl, 0, []⟩, ⟨28, 0, .rwl, 0, []⟩]⟩,
  ⟨"PWR_CANWAKE_MASK", 0x100328, [(4, 0x10)], 1, true,
    [⟨29, 29, .rwl, 0, []⟩, ⟨28, 0, .rwl, 0, []⟩]⟩]

/-- The rows of block PWR. -/
def regRowsPWR : List RegRow := regRowsPWR0 ++ regRowsPWR1

def regRowsTIM0 : List RegRow := [
  ⟨"TIM_COUNT", 0x200000, [], 2, true,
    [⟨63, 0, .ro, 0, []⟩]⟩,
  ⟨"TIM_EVENT", 0x200008, [], 1, true,
    [⟨5, 5, .rw, 0, []⟩, ⟨4, 4, .rw1c, 0, []⟩, ⟨3, 3, .rw1c, 0, []⟩, ⟨2, 2, .rw1c, 0, []⟩, ⟨1, 1, .rw1c, 0, []⟩, ⟨0, 0, .rw1c, 0, []⟩]⟩,
  ⟨"TIM_SNAP_CTL", 0x20000c, [], 1, true,
    [⟨0, 0, .wo, 0, []⟩]⟩,
  ⟨"TIM_SNAP_COUNT", 0x200010, [], 2, true,
    [⟨63, 0, .ro, 0, []⟩]⟩,
  ⟨"TIM_ALARM", 0x200018, [], 2, true,
    [⟨63, 0, .rw, 0, []⟩]⟩,
  ⟨"TIM_SNAP_READ", 0x200020, [(4, 0x8)], 2, true,
    [⟨63, 0, .ro, 0, []⟩]⟩,
  ⟨"TIM_OFFSET", 0x200100, [(4, 0x80)], 2, true,
    [⟨63, 0, .rw, 0, []⟩]⟩,
  ⟨"TIM_RATE", 0x200108, [(4, 0x80)], 2, true,
    [⟨47, 0, .rw, 0x400000000000, []⟩]⟩,
  ⟨"TIM_AT", 0x200110, [(4, 0x80)], 2, true,
    [⟨63, 0, .rw, 0, []⟩]⟩,
  ⟨"TIM_TS_CTL", 0x200118, [(4, 0x80)], 1, true,
    [⟨31, 31, .rw, 0, []⟩, ⟨30, 29, .rw, 0, [(0, 2)]⟩, ⟨28, 28, .rw, 0, []⟩, ⟨27, 24, .rwl, 0, []⟩, ⟨23, 23, .ro, 0, []⟩, ⟨22, 22, .rw1c, 0, []⟩]⟩,
  ⟨"TIM_TS_STAT", 0x20011c, [(4, 0x80)], 1, true,
    [⟨31, 31, .rw1c, 0, []⟩, ⟨15, 0, .ro, 0, []⟩]⟩,
  ⟨"TIM_READ", 0x200120, [(4, 0x80)], 2, true,
    [⟨63, 0, .ro, 0, []⟩]⟩]

def regRowsTIM1 : List RegRow := [
  ⟨"TIM_ABASE", 0x200128, [(4, 0x80)], 2, true,
    [⟨63, 0, .ro, 0, []⟩]⟩,
  ⟨"TIM_AOFF", 0x200130, [(4, 0x80)], 2, true,
    [⟨63, 0, .ro, 0, []⟩]⟩,
  ⟨"TIM_AFRAC", 0x200138, [(4, 0x80)], 2, true,
    [⟨47, 0, .ro, 0, []⟩]⟩,
  ⟨"TIM_ARATE", 0x200140, [(4, 0x80)], 2, true,
    [⟨47, 0, .ro, 0x400000000000, []⟩]⟩,
  ⟨"TIM_HIST_BASE", 0x200400, [(4, 0x100), (8, 0x20)], 2, true,
    [⟨63, 0, .ro, 0, []⟩]⟩,
  ⟨"TIM_HIST_OFFSET", 0x200408, [(4, 0x100), (8, 0x20)], 2, true,
    [⟨63, 0, .ro, 0, []⟩]⟩,
  ⟨"TIM_HIST_FRAC", 0x200410, [(4, 0x100), (8, 0x20)], 2, true,
    [⟨63, 0, .ro, 0, []⟩]⟩,
  ⟨"TIM_HIST_RATE", 0x200418, [(4, 0x100), (8, 0x20)], 2, true,
    [⟨63, 0, .ro, 0, []⟩]⟩,
  ⟨"TIM_SRV_CFG", 0x200800, [], 1, true,
    [⟨31, 31, .rwl, 0, []⟩, ⟨30, 29, .rwl, 0, [(0, 2)]⟩, ⟨28, 27, .rwl, 0, []⟩, ⟨26, 21, .rwl, 0, [(0, 9)]⟩]⟩,
  ⟨"TIM_SRV_GAIN", 0x200804, [], 1, true,
    [⟨12, 8, .rw, 0, [(0, 30)]⟩, ⟨4, 0, .rw, 0, [(0, 30)]⟩]⟩,
  ⟨"TIM_SRV_STAT", 0x200808, [], 1, true,
    [⟨31, 31, .ro, 0, []⟩, ⟨30, 16, .rw, 0, []⟩, ⟨15, 0, .rw, 0, []⟩]⟩,
  ⟨"TIM_SRV_LIM", 0x20080c, [], 1, true,
    [⟨31, 0, .rw, 0, []⟩]⟩]

def regRowsTIM2 : List RegRow := [
  ⟨"TIM_SRV_NOM", 0x200810, [], 2, true,
    [⟨47, 0, .rw, 0x400000000000, []⟩]⟩,
  ⟨"TIM_SRV_ERR", 0x200818, [], 2, true,
    [⟨63, 0, .ro, 0, []⟩]⟩,
  ⟨"TIM_SRV_STEP_THR", 0x200820, [], 1, true,
    [⟨31, 0, .rw, 0, []⟩]⟩,
  ⟨"TIM_SRV_LOCK_THR", 0x200824, [], 1, true,
    [⟨31, 0, .rw, 0, []⟩]⟩,
  ⟨"TIM_PPSO_CFG", 0x200900, [], 1, true,
    [⟨31, 31, .rw, 0, []⟩, ⟨30, 30, .rw, 0, []⟩, ⟨29, 27, .rw, 0, [(0, 4)]⟩, ⟨15, 0, .rw, 1, [(1, 65535)]⟩]⟩,
  ⟨"TIM_PPSI_CFG", 0x200904, [], 1, true,
    [⟨31, 31, .rw, 0, []⟩, ⟨30, 30, .rw, 0, []⟩, ⟨19, 16, .rw, 0, []⟩]⟩]

/-- The rows of block TIM. -/
def regRowsTIM : List RegRow := regRowsTIM0 ++ regRowsTIM1 ++ regRowsTIM2

def regRowsEVT0 : List RegRow := [
  ⟨"EVT_EVENT", 0x300000, [], 1, false,
    [⟨3, 3, .rw1c, 0, []⟩, ⟨2, 2, .rw1c, 0, []⟩, ⟨1, 1, .rw1c, 0, []⟩, ⟨0, 0, .rw1c, 0, []⟩]⟩,
  ⟨"EVT_STATUS", 0x300004, [], 1, false,
    [⟨9, 0, .ro, 0, []⟩]⟩,
  ⟨"EVT_SRC_CFG", 0x301000, [(272, 0x4)], 1, false,
    [⟨31, 31, .rwl, 0, []⟩, ⟨30, 29, .rwl, 0, [(0, 2)]⟩, ⟨28, 25, .rwl, 0, []⟩]⟩,
  ⟨"EVT_RING_BASE", 0x302000, [(16, 0x20)], 2, false,
    [⟨47, 0, .rw, 0, []⟩]⟩,
  ⟨"EVT_RING_CFG", 0x302008, [(16, 0x20)], 1, false,
    [⟨31, 31, .rw, 0, []⟩, ⟨20, 16, .rw, 4, [(4, 16)]⟩, ⟨15, 15, .rw, 0, []⟩, ⟨12, 8, .rw, 0, []⟩, ⟨7, 0, .rw, 0, []⟩]⟩,
  ⟨"EVT_RING_WIDX", 0x30200c, [(16, 0x20)], 1, false,
    [⟨31, 0, .ro, 0, []⟩]⟩,
  ⟨"EVT_RING_RADDR", 0x302010, [(16, 0x20)], 2, false,
    [⟨47, 0, .rw, 0, []⟩]⟩,
  ⟨"EVT_RING_LOST", 0x302018, [(16, 0x20)], 1, false,
    [⟨31, 0, .rw, 0, []⟩]⟩]

/-- The rows of block EVT. -/
def regRowsEVT : List RegRow := regRowsEVT0

def regRowsSAF0 : List RegRow := [
  ⟨"SAF_STATE", 0x400000, [], 1, false,
    [⟨31, 31, .ro, 1, []⟩, ⟨30, 30, .ro, 0, []⟩, ⟨29, 29, .ro, 0, []⟩, ⟨28, 28, .ro, 0, []⟩, ⟨27, 27, .ro, 0, []⟩, ⟨26, 26, .ro, 0, []⟩, ⟨25, 25, .ro, 1, []⟩, ⟨24, 24, .ro, 0, []⟩, ⟨23, 23, .ro, 1, []⟩]⟩,
  ⟨"SAF_CTL", 0x400004, [], 1, false,
    [⟨31, 16, .wo, 0, []⟩, ⟨1, 1, .wo, 0, []⟩, ⟨0, 0, .wo, 0, []⟩]⟩,
  ⟨"SAF_CAUSE", 0x400008, [], 1, false,
    [⟨15, 0, .rw1c, 0x2000, []⟩]⟩,
  ⟨"SAF_CAUSE_EN", 0x40000c, [], 1, false,
    [⟨15, 0, .rwl, 0xb409, []⟩]⟩,
  ⟨"SAF_WARN", 0x400010, [], 1, false,
    [⟨11, 11, .rw1c, 0, []⟩, ⟨10, 10, .rw1c, 0, []⟩, ⟨9, 9, .rw1c, 0, []⟩, ⟨8, 8, .rw1c, 0, []⟩, ⟨7, 7, .rw1c, 0, []⟩, ⟨6, 6, .rw1c, 0, []⟩, ⟨5, 5, .rw1c, 0, []⟩, ⟨4, 4, .rw1c, 0, []⟩, ⟨3, 3, .rw1c, 0, []⟩, ⟨2, 2, .rw1c, 0, []⟩, ⟨1, 1, .rw1c, 0, []⟩, ⟨0, 0, .rw1c, 0, []⟩]⟩,
  ⟨"SAF_FREC_TIME", 0x400018, [], 2, false,
    [⟨63, 0, .ro, 0, []⟩]⟩,
  ⟨"SAF_FREC", 0x400020, [], 1, false,
    [⟨31, 31, .ro, 0, []⟩, ⟨27, 24, .ro, 0, []⟩, ⟨23, 20, .ro, 0, []⟩, ⟨8, 0, .ro, 0, []⟩]⟩,
  ⟨"SAF_FREC_DATA", 0x400024, [], 1, false,
    [⟨31, 0, .ro, 0, []⟩]⟩,
  ⟨"SAF_EPOCH", 0x400028, [], 2, false,
    [⟨63, 0, .ro, 0, []⟩]⟩,
  ⟨"SAF_FRM_CFG", 0x400030, [], 1, false,
    [⟨31, 31, .rwl, 0, []⟩, ⟨29, 27, .rwl, 0, [(0, 4)]⟩]⟩,
  ⟨"SAF_FRM_PERIOD", 0x400034, [], 1, false,
    [⟨31, 0, .rwl, 0, [(1000000, 1000000000)]⟩]⟩,
  ⟨"SAF_FRM_START", 0x400038, [], 2, false,
    [⟨63, 0, .rwl, 0, []⟩]⟩]

def regRowsSAF1 : List RegRow := [
  ⟨"SAF_GRAV_CFG", 0x400040, [], 1, false,
    [⟨31, 31, .rwl, 0, []⟩, ⟨15, 0, .rwl, 0, []⟩]⟩,
  ⟨"SAF_GRAV_STAT", 0x400044, [], 1, false,
    [⟨31, 16, .rw, 0, []⟩, ⟨15, 15, .ro, 0, []⟩, ⟨8, 8, .ro, 0, []⟩, ⟨7, 0, .ro, 0, []⟩]⟩,
  ⟨"SAF_GRAV_SEED", 0x400080, [(16, 0x8)], 1, false,
    [⟨31, 0, .rwl, 0, []⟩]⟩,
  ⟨"SAF_GRAV_CRC", 0x400084, [(16, 0x8)], 1, false,
    [⟨31, 0, .rwl, 0, []⟩]⟩,
  ⟨"SAF_FT_CFG", 0x400100, [], 1, false,
    [⟨31, 31, .rwl, 0, []⟩, ⟨26, 16, .rwl, 0, [(500, 1300)]⟩, ⟨9, 0, .rwl, 0, []⟩]⟩,
  ⟨"SAF_FT_STAT", 0x400104, [], 1, false,
    [⟨31, 16, .ro, 0, []⟩, ⟨15, 8, .ro, 0, []⟩, ⟨7, 0, .rw, 0, []⟩]⟩,
  ⟨"SAF_FT_REQ", 0x400108, [], 1, false,
    [⟨31, 31, .rw, 0, []⟩, ⟨29, 28, .rw, 0, [(0, 2)]⟩, ⟨8, 0, .rw, 0, []⟩]⟩,
  ⟨"SAF_FT_RES", 0x40010c, [], 1, false,
    [⟨31, 29, .ro, 0, []⟩, ⟨8, 0, .ro, 0, []⟩]⟩,
  ⟨"SAF_FT_QUAD", 0x400110, [(4, 0x4)], 1, false,
    [⟨31, 28, .ro, 4, []⟩, ⟨27, 21, .ro, 0, []⟩, ⟨20, 20, .ro, 0, []⟩, ⟨19, 0, .ro, 0, []⟩]⟩,
  ⟨"SAF_FO_CFG", 0x400140, [], 1, false,
    [⟨31, 31, .rwl, 0, []⟩, ⟨30, 30, .rwl, 0, []⟩, ⟨29, 27, .rwl, 0, []⟩, ⟨26, 24, .rwl, 0, []⟩]⟩,
  ⟨"SAF_FO_STAT", 0x400144, [], 1, false,
    [⟨31, 31, .ro, 1, []⟩, ⟨30, 30, .rw1c, 0, []⟩, ⟨29, 27, .ro, 0, []⟩, ⟨15, 0, .rw, 0, []⟩]⟩,
  ⟨"SAF_FRZ_CFG", 0x400150, [], 1, false,
    [⟨7, 0, .rwl, 0, []⟩]⟩]

def regRowsSAF2 : List RegRow := [
  ⟨"SAF_FRZ_MASK", 0x400158, [], 2, false,
    [⟨63, 0, .rwl, 0, []⟩]⟩,
  ⟨"SAF_CMP_CFG", 0x401000, [(16, 0x40)], 1, false,
    [⟨31, 31, .rwl, 0, []⟩, ⟨30, 29, .rwl, 0, [(0, 2)]⟩, ⟨27, 24, .rwl, 0, []⟩, ⟨23, 20, .rwl, 0, []⟩, ⟨19, 12, .rwl, 0, []⟩, ⟨11, 0, .rwl, 0, [(1, 4095)]⟩]⟩,
  ⟨"SAF_CMP_THR", 0x401004, [(16, 0x40)], 1, false,
    [⟨31, 16, .rwl, 0, []⟩, ⟨15, 8, .rwl, 0, []⟩]⟩,
  ⟨"SAF_CMP_LIM", 0x401008, [(16, 0x40)], 1, false,
    [⟨31, 16, .rwl, 0, []⟩, ⟨15, 8, .rwl, 0, []⟩, ⟨7, 0, .rwl, 0, []⟩]⟩,
  ⟨"SAF_CMP_STAT", 0x40100c, [(16, 0x40)], 1, false,
    [⟨31, 31, .ro, 0, []⟩, ⟨30, 28, .ro, 0, []⟩, ⟨15, 0, .rw, 0, []⟩]⟩,
  ⟨"SAF_CMP_ABASE", 0x401010, [(16, 0x40)], 2, false,
    [⟨47, 0, .rwl, 0, []⟩]⟩,
  ⟨"SAF_CMP_BBASE", 0x401018, [(16, 0x40)], 2, false,
    [⟨47, 0, .rwl, 0, []⟩]⟩,
  ⟨"SAF_CMP_LAST", 0x401020, [(16, 0x40)], 1, false,
    [⟨31, 0, .ro, 0, []⟩]⟩,
  ⟨"SAF_CMP_RATIO", 0x401024, [(16, 0x40)], 1, false,
    [⟨31, 16, .ro, 0, []⟩, ⟨15, 0, .ro, 0, []⟩]⟩,
  ⟨"SAF_CMP_TMO", 0x401028, [(16, 0x40)], 1, false,
    [⟨15, 0, .rwl, 0, [(1, 65535)]⟩]⟩,
  ⟨"SAF_STR_BASE", 0x402000, [(32, 0x10)], 2, false,
    [⟨47, 0, .rwl, 0, []⟩]⟩,
  ⟨"SAF_STR_CFG", 0x402008, [(32, 0x10)], 1, false,
    [⟨31, 31, .rwl, 0, []⟩, ⟨30, 27, .rwl, 0, []⟩, ⟨26, 19, .rwl, 0, []⟩, ⟨18, 8, .rwl, 0, [(1, 2047)]⟩, ⟨7, 0, .rwl, 0, []⟩]⟩]

/-- The rows of block SAF. -/
def regRowsSAF : List RegRow := regRowsSAF0 ++ regRowsSAF1 ++ regRowsSAF2

def regRowsMEM0 : List RegRow := [
  ⟨"MEM_LP_CFG", 0x504000, [], 1, true,
    [⟨1, 0, .rwl, 0, []⟩]⟩,
  ⟨"MEM_LPW_ERR", 0x504004, [], 1, false,
    [⟨31, 31, .rw1c, 0, []⟩, ⟨7, 4, .ro, 0, []⟩, ⟨3, 0, .ro, 0, []⟩]⟩,
  ⟨"MEM_LPW_CFG", 0x504100, [(16, 0x8)], 1, true,
    [⟨31, 31, .rwl, 0, []⟩, ⟨27, 24, .rwl, 0, []⟩, ⟨23, 23, .rwl, 0, []⟩, ⟨21, 16, .rwl, 0, []⟩, ⟨13, 8, .rwl, 0, []⟩, ⟨1, 0, .rwl, 0, [(0, 2)]⟩]⟩,
  ⟨"MEM_LPW_MAP", 0x504104, [(16, 0x8)], 1, true,
    [⟨21, 16, .rwl, 0, []⟩, ⟨15, 0, .rwl, 0, []⟩]⟩,
  ⟨"MEM_EVENT", 0x500000, [], 1, false,
    [⟨8, 8, .rw1c, 0, []⟩, ⟨7, 7, .rw1c, 0, []⟩, ⟨6, 6, .rw1c, 0, []⟩, ⟨5, 5, .rw1c, 0, []⟩, ⟨4, 4, .rw1c, 0, []⟩, ⟨3, 3, .rw1c, 0, []⟩, ⟨2, 2, .rw1c, 0, []⟩, ⟨1, 1, .rw1c, 0, []⟩, ⟨0, 0, .rw1c, 0, []⟩]⟩,
  ⟨"MEM_SCRUB_RATE", 0x500004, [], 1, false,
    [⟨23, 16, .rw, 0, [(0, 0), (6, 24)]⟩, ⟨15, 8, .rw, 0, [(0, 0), (6, 24)]⟩, ⟨7, 0, .rw, 0, [(0, 0), (6, 24)]⟩]⟩,
  ⟨"MEM_CE_THR", 0x500008, [], 1, false,
    [⟨31, 16, .rw, 0, []⟩, ⟨15, 8, .rw, 0, []⟩, ⟨7, 0, .rw, 0, []⟩]⟩,
  ⟨"MEM_BIST_STATUS", 0x50000c, [], 1, true,
    [⟨31, 31, .ro, 0, []⟩, ⟨30, 30, .ro, 0, []⟩, ⟨29, 28, .ro, 0, []⟩, ⟨27, 18, .ro, 0, []⟩, ⟨8, 0, .ro, 0, []⟩]⟩,
  ⟨"MEM_LP_FILL", 0x500010, [], 1, true,
    [⟨31, 31, .ro, 0, []⟩, ⟨6, 0, .ro, 0, []⟩]⟩,
  ⟨"MEM_INJ_CTL", 0x500014, [], 1, false,
    [⟨31, 31, .rwl, 0, []⟩, ⟨30, 29, .rwl, 0, []⟩, ⟨22, 16, .rwl, 0, []⟩]⟩,
  ⟨"MEM_INJ_ADDR", 0x500018, [], 2, false,
    [⟨47, 0, .rwl, 0, []⟩]⟩,
  ⟨"MEM_UE_FIRST", 0x500020, [], 2, false,
    [⟨63, 63, .ro, 0, []⟩, ⟨62, 62, .ro, 0, []⟩, ⟨51, 48, .ro, 0, []⟩, ⟨47, 0, .ro, 0, []⟩]⟩]

def regRowsMEM1 : List RegRow := [
  ⟨"MEM_TS_BASE", 0x500100, [(4, 0x20)], 2, false,
    [⟨47, 0, .rw, 0, []⟩]⟩,
  ⟨"MEM_TS_LEN", 0x500108, [(4, 0x20)], 1, false,
    [⟨30, 0, .rw, 0, []⟩]⟩,
  ⟨"MEM_TS_CTL", 0x50010c, [(4, 0x20)], 1, false,
    [⟨31, 31, .rw, 0, []⟩, ⟨30, 30, .rw1c, 0, []⟩, ⟨29, 28, .rw, 0, [(0, 2)]⟩, ⟨27, 25, .ro, 0, []⟩, ⟨4, 0, .rw, 0, [(0, 24)]⟩]⟩,
  ⟨"MEM_TS_OUT", 0x500110, [(4, 0x20)], 2, false,
    [⟨47, 0, .rw, 0, []⟩]⟩,
  ⟨"MEM_TUN_CE", 0x501000, [(256, 0x10)], 1, false,
    [⟨31, 0, .rw, 0, []⟩]⟩,
  ⟨"MEM_TUN_UE", 0x501004, [(256, 0x10)], 1, false,
    [⟨31, 0, .rw, 0, []⟩]⟩,
  ⟨"MEM_TUN_PS", 0x501008, [(256, 0x10)], 1, false,
    [⟨31, 0, .rw, 0, []⟩]⟩,
  ⟨"MEM_TUN_ST", 0x50100c, [(256, 0x10)], 1, false,
    [⟨4, 4, .rw1c, 0, []⟩, ⟨3, 3, .rw1c, 0, []⟩, ⟨2, 2, .rw1c, 0, []⟩, ⟨1, 1, .rw1c, 0, []⟩, ⟨0, 0, .rw1c, 0, []⟩]⟩,
  ⟨"MEM_LP_CE", 0x502000, [(16, 0x10)], 1, false,
    [⟨31, 0, .rw, 0, []⟩]⟩,
  ⟨"MEM_LP_UE", 0x502004, [(16, 0x10)], 1, false,
    [⟨31, 0, .rw, 0, []⟩]⟩,
  ⟨"MEM_LP_PS", 0x502008, [(16, 0x10)], 1, false,
    [⟨31, 0, .rw, 0, []⟩]⟩,
  ⟨"MEM_LP_ST", 0x50200c, [(16, 0x10)], 1, false,
    [⟨4, 4, .rw1c, 0, []⟩, ⟨3, 3, .rw1c, 0, []⟩, ⟨2, 2, .rw1c, 0, []⟩, ⟨1, 1, .rw1c, 0, []⟩, ⟨0, 0, .rw1c, 0, []⟩]⟩]

/-- The rows of block MEM. -/
def regRowsMEM : List RegRow := regRowsMEM0 ++ regRowsMEM1

def regRowsPART0 : List RegRow := [
  ⟨"PART_RPT_BASE", 0x601048, [(16, 0x100)], 2, false,
    [⟨47, 0, .rw, 0, []⟩]⟩,
  ⟨"PART_RPT_CFG", 0x601050, [(16, 0x100)], 1, false,
    [⟨31, 31, .rw, 0, []⟩, ⟨20, 16, .rw, 4, [(4, 16)]⟩, ⟨15, 15, .rw, 0, []⟩, ⟨12, 8, .rw, 0, []⟩, ⟨7, 0, .rw, 0, []⟩]⟩,
  ⟨"PART_RPT_EVT", 0x601054, [(16, 0x100)], 1, false,
    [⟨15, 15, .rw, 0, []⟩, ⟨12, 8, .rw, 0, []⟩, ⟨7, 0, .rw, 0, []⟩]⟩,
  ⟨"PART_RPT_WIDX", 0x601058, [(16, 0x100)], 1, false,
    [⟨31, 0, .ro, 0, []⟩]⟩,
  ⟨"PART_RPT_STAT", 0x60105c, [(16, 0x100)], 1, false,
    [⟨31, 31, .rw1c, 0, []⟩, ⟨15, 0, .rw, 0, []⟩]⟩,
  ⟨"PART_RPT_RADDR", 0x601060, [(16, 0x100)], 2, false,
    [⟨47, 0, .rw, 0, []⟩]⟩,
  ⟨"PART_EVENT", 0x600000, [], 1, false,
    [⟨31, 16, .rw1c, 0, []⟩, ⟨3, 3, .rw1c, 0, []⟩, ⟨2, 2, .rw1c, 0, []⟩, ⟨1, 1, .rw1c, 0, []⟩, ⟨0, 0, .rw1c, 0, []⟩]⟩,
  ⟨"PART_SLOT_CFG", 0x600004, [], 1, false,
    [⟨31, 31, .rwl, 0, []⟩, ⟨30, 28, .rwl, 0, [(0, 4)]⟩, ⟨19, 0, .rwl, 0, [(125, 1048575)]⟩]⟩,
  ⟨"PART_SLOT_PHASE", 0x600008, [], 2, false,
    [⟨63, 0, .rwl, 0, []⟩]⟩,
  ⟨"PART_CORE_OWN", 0x600010, [(32, 0x4)], 1, true,
    [⟨31, 0, .rwl, 0, []⟩]⟩,
  ⟨"PART_CORE_EN", 0x600090, [(8, 0x4)], 1, true,
    [⟨31, 0, .rwl, 0, []⟩]⟩,
  ⟨"PART_TUN_OWN", 0x6000b0, [(2, 0x4)], 1, true,
    [⟨31, 0, .rwl, 0, []⟩]⟩]

def regRowsPART1 : List RegRow := [
  ⟨"PART_TUN_EN", 0x6000b8, [], 1, true,
    [⟨15, 0, .rwl, 0, []⟩]⟩,
  ⟨"PART_CFG", 0x601000, [(16, 0x100)], 1, true,
    [⟨31, 31, .rwl, 0, []⟩, ⟨30, 29, .rwl, 0, []⟩, ⟨28, 28, .rwl, 0, []⟩, ⟨27, 27, .rwl, 0, []⟩]⟩,
  ⟨"PART_CTL", 0x601004, [(16, 0x100)], 1, false,
    [⟨31, 31, .wo, 0, []⟩]⟩,
  ⟨"PART_STATUS", 0x601008, [(16, 0x100)], 1, false,
    [⟨31, 29, .ro, 0, []⟩, ⟨23, 16, .ro, 0, []⟩, ⟨8, 0, .ro, 0, []⟩]⟩,
  ⟨"PART_FAULT", 0x60100c, [(16, 0x100)], 1, false,
    [⟨31, 31, .ro, 0, []⟩, ⟨27, 24, .ro, 0, []⟩, ⟨8, 0, .ro, 0, []⟩]⟩,
  ⟨"PART_FAULT_ADDR", 0x601010, [(16, 0x100)], 2, false,
    [⟨50, 48, .ro, 0, []⟩, ⟨47, 0, .ro, 0, []⟩]⟩,
  ⟨"PART_LP_CHMASK", 0x601018, [(16, 0x100)], 1, true,
    [⟨15, 0, .rwl, 0, []⟩]⟩,
  ⟨"PART_TUN_RD", 0x60101c, [(16, 0x100)], 1, true,
    [⟨15, 0, .rwl, 0, []⟩]⟩,
  ⟨"PART_TB_REQ", 0x601020, [(16, 0x100)], 1, false,
    [⟨23, 16, .rwl, 0, [(1, 255)]⟩, ⟨8, 0, .rwl, 0, [(1, 256)]⟩]⟩,
  ⟨"PART_TB_CRD", 0x601024, [(16, 0x100)], 1, false,
    [⟨23, 16, .rwl, 0, [(1, 255)]⟩, ⟨8, 0, .rwl, 0, [(1, 256)]⟩]⟩,
  ⟨"PART_SLOTMASK", 0x601028, [(16, 0x100)], 2, false,
    [⟨63, 0, .rwl, 0, []⟩]⟩,
  ⟨"PART_WAKE_BUDGET", 0x601030, [(16, 0x100)], 1, false,
    [⟨19, 0, .rw, 0, [(0, 1000000)]⟩]⟩]

def regRowsPART2 : List RegRow := [
  ⟨"PART_FAULT_COUNT", 0x601034, [(16, 0x100)], 1, false,
    [⟨31, 16, .rw, 0, []⟩, ⟨15, 0, .rw, 0, []⟩]⟩,
  ⟨"PART_DET_CFG", 0x601038, [(16, 0x100)], 1, false,
    [⟨31, 31, .rwl, 0, []⟩]⟩,
  ⟨"PART_DET_STAT", 0x60103c, [(16, 0x100)], 1, false,
    [⟨2, 2, .rw1c, 0, []⟩, ⟨1, 1, .rw1c, 0, []⟩, ⟨0, 0, .rw1c, 0, []⟩]⟩,
  ⟨"DET_CHOICES", 0x601040, [(16, 0x100)], 2, false,
    [⟨63, 0, .ro, 0, []⟩]⟩]

/-- The rows of block PART. -/
def regRowsPART : List RegRow := regRowsPART0 ++ regRowsPART1 ++ regRowsPART2

def regRowsVMS0 : List RegRow := [
  ⟨"VMS_EVENT", 0x700000, [], 1, true,
    [⟨6, 6, .rw1c, 0, []⟩, ⟨5, 5, .rw1c, 0, []⟩, ⟨4, 4, .rw1c, 0, []⟩, ⟨3, 3, .rw1c, 0, []⟩, ⟨2, 2, .rw1c, 0, []⟩, ⟨1, 1, .rw1c, 0, []⟩, ⟨0, 0, .rw1c, 0, []⟩]⟩,
  ⟨"VMS_PORT_CFG", 0x700004, [], 1, true,
    [⟨31, 31, .rwl, 0, []⟩, ⟨30, 30, .rwl, 0, []⟩, ⟨29, 29, .rwl, 0, []⟩, ⟨26, 24, .rwl, 0, [(1, 5)]⟩, ⟨7, 0, .rw, 0x32, [(1, 255)]⟩]⟩,
  ⟨"VMS_PORT_STAT", 0x700008, [(2, 0x4)], 1, true,
    [⟨31, 31, .ro, 0, []⟩, ⟨30, 28, .ro, 0, []⟩, ⟨27, 23, .ro, 0, []⟩, ⟨15, 0, .rw, 0, []⟩]⟩,
  ⟨"VMS_FRZ_STAT", 0x700010, [], 1, true,
    [⟨31, 0, .ro, 0, []⟩]⟩,
  ⟨"VMS_FRZ_TMO", 0x700014, [], 1, true,
    [⟨7, 0, .rwl, 0, [(1, 255)]⟩]⟩,
  ⟨"VMS_QVEC", 0x700100, [(48, 0x4)], 1, true,
    [⟨31, 31, .rw, 0, []⟩, ⟨21, 16, .rw, 0, []⟩, ⟨4, 0, .rw, 0, []⟩]⟩,
  ⟨"VMS_SL_CFG", 0x701000, [(64, 0x40)], 1, true,
    [⟨31, 31, .rwl, 0, []⟩, ⟨30, 30, .rwl, 0, []⟩, ⟨29, 29, .rwl, 0, []⟩, ⟨28, 28, .rwl, 0, []⟩, ⟨27, 24, .rwl, 0, []⟩, ⟨19, 0, .rw, 0, []⟩]⟩,
  ⟨"VMS_SL_STAT", 0x701004, [(64, 0x40)], 1, true,
    [⟨31, 16, .rw, 0, []⟩, ⟨15, 0, .rw, 0, []⟩]⟩,
  ⟨"VMS_SL_OBASE", 0x701008, [(64, 0x40)], 2, true,
    [⟨63, 0, .rw, 0, []⟩]⟩,
  ⟨"VMS_SL_OLIM", 0x701010, [(64, 0x40)], 1, true,
    [⟨21, 0, .rw, 0, [(0, 2097152)]⟩]⟩,
  ⟨"VMS_SL_ACFG", 0x701014, [(64, 0x40)], 1, true,
    [⟨31, 31, .rw, 0, []⟩, ⟨3, 0, .rw, 4, [(4, 10)]⟩]⟩,
  ⟨"VMS_SL_ARING", 0x701018, [(64, 0x40)], 2, true,
    [⟨63, 0, .rw, 0, []⟩]⟩]

def regRowsVMS1 : List RegRow := [
  ⟨"VMS_SL_ACQ", 0x701020, [(64, 0x40)], 2, true,
    [⟨63, 0, .rw, 0, []⟩]⟩,
  ⟨"VMS_SL_ACIDX", 0x701028, [(64, 0x40)], 1, true,
    [⟨31, 0, .ro, 0, []⟩]⟩,
  ⟨"VMS_SL_VEC", 0x70102c, [(64, 0x40)], 1, true,
    [⟨31, 31, .rw, 0, []⟩, ⟨30, 30, .rw, 0, []⟩, ⟨12, 8, .rw, 0, []⟩, ⟨4, 0, .rw, 0, []⟩]⟩,
  ⟨"VMS_DB", 0x740000, [(64, 0x1000)], 1, true,
    [⟨31, 0, .wo, 0, []⟩]⟩,
  ⟨"VMS_APIDX", 0x740004, [(64, 0x1000)], 1, true,
    [⟨31, 0, .rw, 0, []⟩]⟩,
  ⟨"VMS_ACIDX_MIRROR", 0x740008, [(64, 0x1000)], 1, true,
    [⟨31, 0, .ro, 0, []⟩]⟩,
  ⟨"VMS_MSIX_LO", 0x780000, [(2048, 0x10)], 1, true,
    [⟨31, 0, .rw, 0, []⟩]⟩,
  ⟨"VMS_MSIX_HI", 0x780004, [(2048, 0x10)], 1, true,
    [⟨31, 0, .rw, 0, []⟩]⟩,
  ⟨"VMS_MSIX_DATA", 0x780008, [(2048, 0x10)], 1, true,
    [⟨31, 0, .rw, 0, []⟩]⟩,
  ⟨"VMS_MSIX_CTL", 0x78000c, [(2048, 0x10)], 1, true,
    [⟨0, 0, .rw, 1, []⟩]⟩,
  ⟨"VMS_MSIX_PBA", 0x788000, [(64, 0x4)], 1, true,
    [⟨31, 0, .ro, 0, []⟩]⟩]

/-- The rows of block VMS. -/
def regRowsVMS : List RegRow := regRowsVMS0 ++ regRowsVMS1

def regRowsING0 : List RegRow := [
  ⟨"ING_EVENT", 0x800000, [], 1, false,
    [⟨3, 3, .rw1c, 0, []⟩, ⟨2, 2, .rw1c, 0, []⟩, ⟨1, 1, .rw1c, 0, []⟩, ⟨0, 0, .rw1c, 0, []⟩]⟩,
  ⟨"ING_PORT_CFG", 0x800100, [(16, 0x10)], 1, false,
    [⟨31, 31, .rwl, 0, []⟩, ⟨30, 30, .rwl, 0, []⟩, ⟨29, 28, .rwl, 0, [(0, 2)]⟩, ⟨27, 27, .rwl, 0, []⟩, ⟨12, 0, .rwl, 0, [(80, 4500)]⟩]⟩,
  ⟨"ING_PORT_STAT", 0x800104, [(16, 0x10)], 1, false,
    [⟨31, 31, .ro, 0, []⟩, ⟨3, 3, .rw1c, 0, []⟩, ⟨2, 2, .rw1c, 0, []⟩, ⟨1, 1, .rw1c, 0, []⟩, ⟨0, 0, .rw1c, 0, []⟩]⟩,
  ⟨"ING_PORT_ERRCNT", 0x800108, [(16, 0x10)], 1, false,
    [⟨31, 16, .rw, 0, []⟩, ⟨15, 0, .rw, 0, []⟩]⟩,
  ⟨"ING_STR_CFG", 0x801000, [(64, 0x40)], 1, false,
    [⟨31, 31, .rwl, 0, []⟩, ⟨30, 30, .rwl, 0, []⟩, ⟨29, 27, .rwl, 0, [(0, 3)]⟩, ⟨23, 23, .rwl, 0, []⟩, ⟨22, 16, .rwl, 0, []⟩, ⟨15, 15, .rwl, 0, []⟩, ⟨14, 8, .rwl, 0, []⟩, ⟨5, 0, .rwl, 0, [(30, 30), (36, 36), (42, 46)]⟩]⟩,
  ⟨"ING_STR_GEOM", 0x801004, [(64, 0x40)], 1, false,
    [⟨31, 16, .rwl, 0, [(1, 8192)]⟩, ⟨15, 0, .rwl, 0, [(1, 8192)]⟩]⟩,
  ⟨"ING_STR_PERIOD", 0x801008, [(64, 0x40)], 1, false,
    [⟨31, 0, .rwl, 0, []⟩]⟩,
  ⟨"ING_STR_TOL", 0x80100c, [(64, 0x40)], 1, false,
    [⟨31, 0, .rwl, 0, []⟩]⟩,
  ⟨"ING_FRZ_CFG", 0x801010, [(64, 0x40)], 1, false,
    [⟨31, 31, .rwl, 0, []⟩, ⟨30, 30, .rwl, 0, []⟩, ⟨29, 29, .rwl, 0, []⟩, ⟨28, 27, .rwl, 0, [(0, 2)]⟩, ⟨26, 23, .rwl, 0, []⟩, ⟨22, 20, .rwl, 0, []⟩, ⟨19, 14, .rwl, 0, []⟩, ⟨13, 8, .rwl, 0, []⟩]⟩,
  ⟨"ING_FRZ_GRID", 0x801014, [(64, 0x40)], 1, false,
    [⟨31, 16, .rwl, 0, []⟩, ⟨15, 0, .rwl, 0, []⟩]⟩,
  ⟨"ING_FRZ_STEP", 0x801018, [(64, 0x40)], 1, false,
    [⟨31, 16, .rwl, 0, [(1, 8192)]⟩, ⟨15, 0, .rwl, 0, [(1, 8192)]⟩]⟩,
  ⟨"ING_FRZ_ACT", 0x80101c, [(64, 0x40)], 1, false,
    [⟨31, 16, .rwl, 0, []⟩, ⟨15, 0, .rwl, 0, []⟩]⟩]

def regRowsING1 : List RegRow := [
  ⟨"ING_STR_STAT", 0x801020, [(64, 0x40)], 1, false,
    [⟨17, 17, .rw1c, 0, []⟩, ⟨16, 0, .rw1c, 0, []⟩]⟩,
  ⟨"ING_SYNC_CFG", 0x802000, [(16, 0x20)], 1, false,
    [⟨31, 31, .rw, 0, []⟩, ⟨30, 30, .rw, 0, []⟩, ⟨29, 27, .rw, 0, [(0, 4)]⟩, ⟨15, 0, .rw, 1, [(1, 65535)]⟩]⟩,
  ⟨"ING_SYNC_PERIOD", 0x802004, [(16, 0x20)], 1, false,
    [⟨31, 0, .rw, 0x10000, [(1000, 4294967295)]⟩]⟩,
  ⟨"ING_SYNC_START", 0x802008, [(16, 0x20)], 2, false,
    [⟨63, 0, .rw, 0, []⟩]⟩,
  ⟨"ING_SYNC_STAT", 0x802010, [(16, 0x20)], 1, false,
    [⟨31, 0, .rw, 0, []⟩]⟩]

/-- The rows of block ING. -/
def regRowsING : List RegRow := regRowsING0 ++ regRowsING1

def regRowsDEC0 : List RegRow := [
  ⟨"DEC_EVENT", 0x900000, [], 1, false,
    [⟨5, 5, .rw1c, 0, []⟩, ⟨4, 4, .rw1c, 0, []⟩, ⟨3, 3, .rw1c, 0, []⟩, ⟨2, 2, .rw1c, 0, []⟩, ⟨1, 1, .rw1c, 0, []⟩, ⟨0, 0, .rw1c, 0, []⟩]⟩,
  ⟨"DEC_Q_CFG", 0x900100, [(16, 0x40)], 1, false,
    [⟨31, 31, .rw, 0, []⟩, ⟨30, 30, .rw, 0, []⟩, ⟨23, 20, .rwl, 0, []⟩, ⟨19, 15, .rw, 0xa, [(6, 20)]⟩, ⟨3, 0, .rw, 4, [(4, 12)]⟩]⟩,
  ⟨"DEC_Q_PIDX", 0x900104, [(16, 0x40)], 1, false,
    [⟨31, 0, .rw, 0, []⟩]⟩,
  ⟨"DEC_Q_CIDX", 0x900108, [(16, 0x40)], 1, false,
    [⟨31, 0, .ro, 0, []⟩]⟩,
  ⟨"DEC_Q_NOTE", 0x90010c, [(16, 0x40)], 1, false,
    [⟨15, 15, .rw, 0, []⟩, ⟨12, 8, .rw, 0, []⟩, ⟨7, 0, .rw, 0, []⟩]⟩,
  ⟨"DEC_Q_SQ", 0x900110, [(16, 0x40)], 2, false,
    [⟨47, 0, .rw, 0, []⟩]⟩,
  ⟨"DEC_Q_CQ", 0x900118, [(16, 0x40)], 2, false,
    [⟨47, 0, .rw, 0, []⟩]⟩,
  ⟨"DEC_Q_PWORD", 0x900120, [(16, 0x40)], 2, false,
    [⟨47, 0, .rw, 0, []⟩]⟩]

/-- The rows of block DEC. -/
def regRowsDEC : List RegRow := regRowsDEC0

def regRowsPRE0 : List RegRow := [
  ⟨"PRE_EVENT", 0xa00000, [], 1, false,
    [⟨5, 5, .rw1c, 0, []⟩, ⟨4, 4, .rw1c, 0, []⟩, ⟨3, 3, .rw1c, 0, []⟩, ⟨2, 2, .rw1c, 0, []⟩, ⟨1, 1, .rw1c, 0, []⟩, ⟨0, 0, .rw1c, 0, []⟩]⟩,
  ⟨"PRE_SAT_COUNT", 0xa00004, [], 1, false,
    [⟨31, 0, .rw, 0, []⟩]⟩,
  ⟨"PRE_Q_CFG", 0xa00100, [(16, 0x40)], 1, false,
    [⟨31, 31, .rw, 0, []⟩, ⟨30, 30, .rw, 0, []⟩, ⟨23, 20, .rwl, 0, []⟩, ⟨19, 15, .rw, 0xa, [(6, 20)]⟩, ⟨3, 0, .rw, 4, [(4, 12)]⟩]⟩,
  ⟨"PRE_Q_PIDX", 0xa00104, [(16, 0x40)], 1, false,
    [⟨31, 0, .rw, 0, []⟩]⟩,
  ⟨"PRE_Q_CIDX", 0xa00108, [(16, 0x40)], 1, false,
    [⟨31, 0, .ro, 0, []⟩]⟩,
  ⟨"PRE_Q_NOTE", 0xa0010c, [(16, 0x40)], 1, false,
    [⟨15, 15, .rw, 0, []⟩, ⟨12, 8, .rw, 0, []⟩, ⟨7, 0, .rw, 0, []⟩]⟩,
  ⟨"PRE_Q_SQ", 0xa00110, [(16, 0x40)], 2, false,
    [⟨47, 0, .rw, 0, []⟩]⟩,
  ⟨"PRE_Q_CQ", 0xa00118, [(16, 0x40)], 2, false,
    [⟨47, 0, .rw, 0, []⟩]⟩,
  ⟨"PRE_Q_PWORD", 0xa00120, [(16, 0x40)], 2, false,
    [⟨47, 0, .rw, 0, []⟩]⟩,
  ⟨"PRE_Q_BKT", 0xa00128, [(16, 0x40)], 2, false,
    [⟨47, 0, .rw, 0, []⟩]⟩,
  ⟨"PRE_CTX_CFG", 0xa01000, [(128, 0x10)], 1, false,
    [⟨31, 31, .rw, 0, []⟩, ⟨26, 24, .rw, 0, []⟩, ⟨23, 20, .rwl, 0, []⟩]⟩,
  ⟨"PRE_CTX_DESC", 0xa01008, [(128, 0x10)], 2, false,
    [⟨47, 0, .rw, 0, []⟩]⟩]

/-- The rows of block PRE. -/
def regRowsPRE : List RegRow := regRowsPRE0

def regRowsSOL0 : List RegRow := [
  ⟨"SOL_EVENT", 0xb00000, [], 1, false,
    [⟨7, 7, .rw1c, 0, []⟩, ⟨6, 6, .rw1c, 0, []⟩, ⟨5, 5, .rw1c, 0, []⟩, ⟨4, 4, .rw1c, 0, []⟩, ⟨3, 3, .rw1c, 0, []⟩, ⟨2, 2, .rw1c, 0, []⟩, ⟨1, 1, .rw1c, 0, []⟩, ⟨0, 0, .rw1c, 0, []⟩]⟩,
  ⟨"SOL_CFG", 0xb00004, [], 1, false,
    [⟨7, 0, .rwl, 0, []⟩]⟩,
  ⟨"SOL_STATUS", 0xb00008, [], 1, false,
    [⟨31, 31, .ro, 0, []⟩, ⟨27, 24, .ro, 0, []⟩, ⟨17, 16, .ro, 0, []⟩]⟩,
  ⟨"SOL_STALE_COUNT", 0xb0000c, [], 1, false,
    [⟨31, 0, .rw, 0, []⟩]⟩,
  ⟨"SOL_JOBS", 0xb00010, [], 2, false,
    [⟨63, 0, .ro, 0, []⟩]⟩,
  ⟨"SOL_Q_CFG", 0xb00100, [(16, 0x40)], 1, false,
    [⟨31, 31, .rw, 0, []⟩, ⟨30, 30, .rw, 0, []⟩, ⟨25, 24, .rwl, 0, []⟩, ⟨23, 20, .rwl, 0, []⟩, ⟨19, 15, .rw, 0xa, [(6, 20)]⟩, ⟨3, 0, .rw, 4, [(4, 12)]⟩]⟩,
  ⟨"SOL_Q_PIDX", 0xb00104, [(16, 0x40)], 1, false,
    [⟨31, 0, .rw, 0, []⟩]⟩,
  ⟨"SOL_Q_CIDX", 0xb00108, [(16, 0x40)], 1, false,
    [⟨31, 0, .ro, 0, []⟩]⟩,
  ⟨"SOL_Q_NOTE", 0xb0010c, [(16, 0x40)], 1, false,
    [⟨15, 15, .rw, 0, []⟩, ⟨12, 8, .rw, 0, []⟩, ⟨7, 0, .rw, 0, []⟩]⟩,
  ⟨"SOL_Q_SQ", 0xb00110, [(16, 0x40)], 2, false,
    [⟨47, 0, .rw, 0, []⟩]⟩,
  ⟨"SOL_Q_CQ", 0xb00118, [(16, 0x40)], 2, false,
    [⟨47, 0, .rw, 0, []⟩]⟩,
  ⟨"SOL_Q_PWORD", 0xb00120, [(16, 0x40)], 2, false,
    [⟨47, 0, .rw, 0, []⟩]⟩]

def regRowsSOL1 : List RegRow := [
  ⟨"SOL_CHAIN", 0xb01000, [(64, 0x4)], 1, false,
    [⟨8, 8, .rw1c, 0, []⟩, ⟨7, 0, .rw, 0, []⟩]⟩]

/-- The rows of block SOL. -/
def regRowsSOL : List RegRow := regRowsSOL0 ++ regRowsSOL1

def regRowsCTL0 : List RegRow := [
  ⟨"CTL_EVENT", 0xc00000, [], 1, false,
    [⟨11, 11, .rw1c, 0, []⟩, ⟨10, 10, .rw1c, 0, []⟩, ⟨9, 9, .rw1c, 0, []⟩, ⟨8, 8, .rw1c, 0, []⟩, ⟨7, 7, .rw1c, 0, []⟩, ⟨6, 6, .rw1c, 0, []⟩, ⟨5, 5, .rw1c, 0, []⟩, ⟨4, 4, .rw1c, 0, []⟩, ⟨3, 3, .rw1c, 0, []⟩, ⟨2, 2, .rw1c, 0, []⟩, ⟨1, 1, .rw1c, 0, []⟩, ⟨0, 0, .rw1c, 0, []⟩]⟩,
  ⟨"CTL_LU_STAT", 0xc00010, [(4, 0x4)], 1, false,
    [⟨18, 10, .rw, 0, []⟩, ⟨6, 0, .ro, 0, []⟩]⟩,
  ⟨"CTL_CYC_CFG", 0xc00100, [(8, 0x20)], 1, false,
    [⟨31, 31, .rw, 0, []⟩, ⟨29, 27, .rw, 0, [(0, 4)]⟩]⟩,
  ⟨"CTL_CYC_PERIOD", 0xc00104, [(8, 0x20)], 1, false,
    [⟨31, 0, .rw, 0x1388, [(5000, 4294967295)]⟩]⟩,
  ⟨"CTL_CYC_START", 0xc00108, [(8, 0x20)], 2, false,
    [⟨63, 0, .rw, 0, []⟩]⟩,
  ⟨"CTL_CYC_STAT", 0xc00110, [(8, 0x20)], 1, false,
    [⟨31, 0, .rw, 0, []⟩]⟩,
  ⟨"CTL_CH_CFG", 0xc01000, [(64, 0x200)], 1, false,
    [⟨31, 31, .rwl, 0, []⟩, ⟨30, 30, .rwl, 0, []⟩, ⟨29, 26, .rwl, 0, []⟩, ⟨25, 24, .rwl, 0, []⟩, ⟨23, 21, .rwl, 0, [(0, 4)]⟩, ⟨20, 20, .rwl, 0, []⟩, ⟨19, 18, .rwl, 0, [(0, 2)]⟩, ⟨17, 17, .rwl, 0, []⟩, ⟨16, 16, .rwl, 0, []⟩, ⟨15, 15, .rwl, 0, []⟩, ⟨14, 14, .rwl, 0, []⟩, ⟨13, 13, .rwl, 0, []⟩, ⟨12, 12, .rwl, 0, []⟩, ⟨11, 8, .rwl, 0, [(0, 8)]⟩]⟩,
  ⟨"CTL_CH_SRC", 0xc01004, [(64, 0x200)], 1, false,
    [⟨31, 29, .rwl, 0, [(0, 3)]⟩, ⟨28, 24, .rwl, 0, []⟩, ⟨23, 21, .rwl, 0, [(0, 5)]⟩, ⟨20, 16, .rwl, 0, []⟩, ⟨15, 14, .rwl, 0, [(0, 2)]⟩, ⟨13, 9, .rwl, 0, [(0, 23)]⟩]⟩,
  ⟨"CTL_CH_CMD", 0xc01008, [(64, 0x200)], 1, false,
    [⟨2, 2, .wo, 0, []⟩, ⟨1, 0, .wo, 0, []⟩]⟩,
  ⟨"CTL_CH_STATUS", 0xc0100c, [(64, 0x200)], 1, false,
    [⟨31, 30, .ro, 0, []⟩, ⟨29, 29, .rw1c, 0, []⟩, ⟨28, 28, .rw1c, 0, []⟩, ⟨25, 16, .ro, 0, []⟩, ⟨15, 15, .ro, 0, []⟩, ⟨14, 14, .rw1c, 0, []⟩, ⟨13, 13, .rw1c, 0, []⟩, ⟨12, 12, .rw1c, 0, []⟩]⟩,
  ⟨"CTL_CH_SP", 0xc01010, [(64, 0x200)], 1, false,
    [⟨31, 0, .rw, 0, []⟩]⟩,
  ⟨"CTL_CH_OUT", 0xc01014, [(64, 0x200)], 1, false,
    [⟨31, 0, .ro, 0, []⟩]⟩]

def regRowsCTL1 : List RegRow := [
  ⟨"CTL_CH_RESID", 0xc01018, [(64, 0x200)], 1, false,
    [⟨31, 16, .ro, 0, []⟩, ⟨15, 0, .ro, 0, []⟩]⟩,
  ⟨"CTL_CH_CNT", 0xc0101c, [(64, 0x200)], 1, false,
    [⟨31, 16, .rw, 0, []⟩, ⟨15, 0, .rw, 0, []⟩]⟩,
  ⟨"CTL_CH_TRAJ", 0xc01020, [(64, 0x200)], 2, false,
    [⟨58, 56, .rwl, 0, [(0, 4)]⟩, ⟨52, 48, .rwl, 0, [(4, 16)]⟩, ⟨47, 0, .rwl, 0, []⟩]⟩,
  ⟨"CTL_CH_NOTE", 0xc01028, [(64, 0x200)], 1, false,
    [⟨31, 16, .rwl, 0, []⟩, ⟨15, 15, .rwl, 0, []⟩, ⟨12, 8, .rwl, 0, []⟩, ⟨7, 0, .rwl, 0, []⟩]⟩,
  ⟨"CTL_CH_FSPOS", 0xc0102c, [(64, 0x200)], 1, false,
    [⟨31, 0, .ro, 0, []⟩]⟩,
  ⟨"CTL_CH_FSVEL", 0xc01030, [(64, 0x200)], 1, false,
    [⟨31, 0, .ro, 0, []⟩]⟩,
  ⟨"CTL_CH_PARAM", 0xc01100, [(64, 0x200), (64, 0x4)], 1, false,
    [⟨31, 0, .rw, 0, []⟩]⟩,
  ⟨"CTL_QEI_CFG", 0xc09000, [(16, 0x40)], 1, false,
    [⟨31, 31, .rwl, 0, []⟩, ⟨30, 30, .rwl, 0, []⟩, ⟨29, 26, .rwl, 0, []⟩, ⟨25, 22, .rwl, 0, []⟩, ⟨21, 20, .rwl, 0, [(0, 2)]⟩, ⟨19, 19, .rwl, 0, []⟩, ⟨18, 18, .rwl, 0, []⟩, ⟨17, 13, .rwl, 0, [(3, 20)]⟩, ⟨12, 0, .rwl, 0, []⟩]⟩,
  ⟨"CTL_QEI_POS", 0xc09004, [(16, 0x40)], 1, false,
    [⟨31, 0, .rw, 0, []⟩]⟩,
  ⟨"CTL_QEI_VEL", 0xc09008, [(16, 0x40)], 1, false,
    [⟨31, 0, .ro, 0, []⟩]⟩,
  ⟨"CTL_QEI_IDXPOS", 0xc0900c, [(16, 0x40)], 1, false,
    [⟨31, 0, .ro, 0, []⟩]⟩,
  ⟨"CTL_QEI_STAT", 0xc09010, [(16, 0x40)], 1, false,
    [⟨31, 16, .rw, 0, []⟩, ⟨3, 3, .ro, 0, []⟩, ⟨2, 2, .rw1c, 0, []⟩, ⟨1, 1, .rw1c, 0, []⟩, ⟨0, 0, .rw1c, 0, []⟩]⟩]

def regRowsCTL2 : List RegRow := [
  ⟨"CTL_QEI_CMP", 0xc09020, [(16, 0x40), (4, 0x8)], 1, false,
    [⟨31, 31, .rw, 0, []⟩, ⟨30, 30, .rw, 0, []⟩, ⟨29, 29, .rw1c, 0, []⟩]⟩,
  ⟨"CTL_QEI_TGT", 0xc09024, [(16, 0x40), (4, 0x8)], 1, false,
    [⟨31, 0, .rw, 0, []⟩]⟩,
  ⟨"CTL_SDM_CFG", 0xc0a000, [(32, 0x10)], 1, false,
    [⟨31, 31, .rwl, 0, []⟩, ⟨30, 30, .rwl, 0, []⟩, ⟨29, 29, .rwl, 0, []⟩, ⟨28, 25, .rwl, 0, []⟩, ⟨24, 22, .rwl, 0, [(0, 4)]⟩, ⟨21, 18, .rwl, 0, [(0, 8)]⟩, ⟨17, 11, .rwl, 0, []⟩, ⟨10, 6, .rwl, 0, [(4, 31)]⟩, ⟨5, 0, .rwl, 0, []⟩]⟩,
  ⟨"CTL_SDM_VAL", 0xc0a004, [(32, 0x10)], 1, false,
    [⟨31, 0, .ro, 0, []⟩]⟩,
  ⟨"CTL_SDM_CMP", 0xc0a008, [(32, 0x10)], 1, false,
    [⟨31, 31, .rwl, 0, []⟩, ⟨30, 30, .rwl, 0, []⟩, ⟨12, 8, .rwl, 0, []⟩, ⟨4, 0, .rwl, 0, []⟩]⟩,
  ⟨"CTL_SDM_STAT", 0xc0a00c, [(32, 0x10)], 1, false,
    [⟨3, 3, .rw1c, 0, []⟩, ⟨2, 2, .rw1c, 0, []⟩, ⟨1, 1, .rw1c, 0, []⟩, ⟨0, 0, .rw1c, 0, []⟩]⟩,
  ⟨"CTL_PCAP_CFG", 0xc0a400, [(16, 0x10)], 1, false,
    [⟨31, 31, .rwl, 0, []⟩, ⟨30, 30, .rwl, 0, []⟩, ⟨29, 26, .rwl, 0, []⟩, ⟨25, 24, .rwl, 0, [(0, 2)]⟩, ⟨23, 20, .rwl, 0, []⟩, ⟨19, 0, .rwl, 0, []⟩]⟩,
  ⟨"CTL_PCAP_VAL", 0xc0a404, [(16, 0x10)], 1, false,
    [⟨31, 0, .ro, 0, []⟩]⟩,
  ⟨"CTL_PCAP_STAT", 0xc0a408, [(16, 0x10)], 1, false,
    [⟨0, 0, .rw1c, 0, []⟩]⟩,
  ⟨"CTL_ENC_CFG", 0xc0a600, [(8, 0x20)], 1, false,
    [⟨31, 31, .rwl, 0, []⟩, ⟨30, 30, .rwl, 0, []⟩, ⟨29, 26, .rwl, 0, []⟩, ⟨25, 24, .rwl, 0, [(0, 2)]⟩, ⟨23, 20, .rwl, 0, [(0, 8)]⟩, ⟨19, 14, .rwl, 0, [(8, 40)]⟩, ⟨13, 10, .rwl, 0, [(0, 7)]⟩]⟩,
  ⟨"CTL_ENC_TIM", 0xc0a604, [(8, 0x20)], 1, false,
    [⟨31, 20, .rwl, 0, [(25, 2500)]⟩, ⟨19, 10, .rwl, 0, []⟩, ⟨9, 0, .rwl, 0, [(1, 1023)]⟩]⟩,
  ⟨"CTL_ENC_POS", 0xc0a608, [(8, 0x20)], 2, false,
    [⟨39, 0, .ro, 0, []⟩]⟩]

def regRowsCTL3 : List RegRow := [
  ⟨"CTL_ENC_STAT", 0xc0a610, [(8, 0x20)], 1, false,
    [⟨15, 8, .ro, 0, []⟩, ⟨2, 2, .rw1c, 0, []⟩, ⟨1, 1, .rw1c, 0, []⟩, ⟨0, 0, .rw1c, 0, []⟩]⟩,
  ⟨"CTL_PWM_CFG", 0xc0b000, [(24, 0x20)], 1, false,
    [⟨31, 31, .rwl, 0, []⟩, ⟨30, 30, .rwl, 0, []⟩, ⟨29, 29, .rwl, 0, []⟩, ⟨28, 25, .rwl, 0, []⟩, ⟨24, 24, .rwl, 0, []⟩, ⟨23, 23, .rwl, 0, []⟩, ⟨22, 21, .rwl, 0, []⟩, ⟨20, 19, .rwl, 0, []⟩, ⟨18, 17, .rwl, 0, []⟩, ⟨15, 0, .rwl, 0, [(2, 65535)]⟩]⟩,
  ⟨"CTL_PWM_DT", 0xc0b004, [(24, 0x20)], 1, false,
    [⟨31, 16, .rwl, 0, []⟩, ⟨15, 0, .rwl, 0, []⟩]⟩,
  ⟨"CTL_PWM_MIN", 0xc0b008, [(24, 0x20)], 1, false,
    [⟨15, 0, .rwl, 0, []⟩]⟩,
  ⟨"CTL_PWM_CMP", 0xc0b00c, [(24, 0x20)], 1, false,
    [⟨19, 0, .ro, 0, []⟩]⟩,
  ⟨"CTL_PWM_STAT", 0xc0b010, [(24, 0x20)], 1, false,
    [⟨2, 2, .rw1c, 0, []⟩, ⟨1, 1, .ro, 0, []⟩, ⟨0, 0, .rw1c, 0, []⟩]⟩,
  ⟨"CTL_INJ_CFG", 0xc0c000, [(4, 0x20)], 1, false,
    [⟨31, 31, .rw, 0, []⟩, ⟨30, 29, .rw, 0, [(0, 2)]⟩, ⟨28, 28, .rw, 0, []⟩, ⟨27, 22, .rw, 0, []⟩, ⟨15, 0, .rw, 0, []⟩]⟩,
  ⟨"CTL_INJ_AMP", 0xc0c004, [(4, 0x20)], 1, false,
    [⟨31, 0, .rw, 0, []⟩]⟩,
  ⟨"CTL_INJ_F0", 0xc0c008, [(4, 0x20)], 1, false,
    [⟨31, 0, .rw, 0, []⟩]⟩,
  ⟨"CTL_INJ_F1", 0xc0c00c, [(4, 0x20)], 1, false,
    [⟨31, 0, .rw, 0, []⟩]⟩,
  ⟨"CTL_INJ_LEN", 0xc0c010, [(4, 0x20)], 1, false,
    [⟨31, 0, .rw, 0, []⟩]⟩,
  ⟨"CTL_INJ_SEED", 0xc0c014, [(4, 0x20)], 1, false,
    [⟨14, 0, .rw, 1, [(1, 32767)]⟩]⟩]

def regRowsCTL4 : List RegRow := [
  ⟨"CTL_CAP_CFG", 0xc0c100, [(4, 0x20)], 1, false,
    [⟨31, 31, .rw, 0, []⟩, ⟨30, 29, .rw, 0, []⟩, ⟨28, 23, .rw, 0, []⟩, ⟨21, 16, .rw, 0, []⟩, ⟨15, 12, .rw, 0, [(0, 9)]⟩, ⟨11, 8, .rw, 0, [(0, 9)]⟩, ⟨7, 4, .rw, 0, [(0, 9)]⟩, ⟨3, 0, .rw, 0, [(0, 9)]⟩]⟩,
  ⟨"CTL_CAP_DEC", 0xc0c104, [(4, 0x20)], 1, false,
    [⟨31, 16, .rw, 0, []⟩, ⟨15, 0, .rw, 0, []⟩]⟩,
  ⟨"CTL_CAP_BASE", 0xc0c108, [(4, 0x20)], 2, false,
    [⟨47, 0, .rw, 0, []⟩]⟩,
  ⟨"CTL_CAP_NSAMP", 0xc0c110, [(4, 0x20)], 1, false,
    [⟨16, 0, .rw, 1, [(1, 65536)]⟩]⟩,
  ⟨"CTL_CAP_STAT", 0xc0c114, [(4, 0x20)], 1, false,
    [⟨31, 31, .rw1c, 0, []⟩, ⟨15, 0, .ro, 0, []⟩]⟩,
  ⟨"CTL_CAP_NOTE", 0xc0c118, [(4, 0x20)], 1, false,
    [⟨15, 15, .rw, 0, []⟩, ⟨12, 8, .rw, 0, []⟩, ⟨7, 0, .rw, 0, []⟩]⟩]

/-- The rows of block CTL. -/
def regRowsCTL : List RegRow := regRowsCTL0 ++ regRowsCTL1 ++ regRowsCTL2 ++ regRowsCTL3 ++ regRowsCTL4

def regRowsCAN0 : List RegRow := [
  ⟨"CAN_EVENT", 0xd00000, [], 1, false,
    [⟨9, 9, .rw1c, 0, []⟩, ⟨8, 8, .rw1c, 0, []⟩, ⟨7, 7, .rw1c, 0, []⟩, ⟨6, 6, .rw1c, 0, []⟩, ⟨5, 5, .rw1c, 0, []⟩, ⟨4, 4, .rw1c, 0, []⟩, ⟨3, 3, .rw1c, 0, []⟩, ⟨2, 2, .rw1c, 0, []⟩, ⟨1, 1, .rw1c, 0, []⟩, ⟨0, 0, .rw1c, 0, []⟩]⟩,
  ⟨"CAN_GW_CFG", 0xd00004, [], 1, false,
    [⟨31, 31, .rwl, 0, []⟩, ⟨30, 27, .rwl, 0, []⟩]⟩,
  ⟨"CAN_GW_DROP", 0xd00008, [], 1, false,
    [⟨31, 16, .rw, 0, []⟩, ⟨15, 8, .rw, 0, []⟩, ⟨7, 0, .rw, 0, []⟩]⟩,
  ⟨"CAN_CFG", 0xd01000, [(16, 0x100)], 1, false,
    [⟨31, 31, .rwl, 0, []⟩, ⟨30, 29, .rwl, 0, [(0, 2)]⟩, ⟨28, 25, .rwl, 0, []⟩, ⟨24, 24, .rwl, 0, []⟩, ⟨23, 23, .rwl, 0, []⟩, ⟨22, 22, .rwl, 0, []⟩, ⟨21, 15, .rwl, 0, []⟩, ⟨14, 14, .rwl, 0, []⟩, ⟨13, 8, .rwl, 0, []⟩, ⟨7, 5, .rwl, 0, [(0, 4)]⟩]⟩,
  ⟨"CAN_NBT", 0xd01004, [(16, 0x100)], 1, false,
    [⟨29, 23, .rwl, 0, []⟩, ⟨22, 16, .rwl, 0, []⟩, ⟨15, 8, .rwl, 0, [(1, 255)]⟩, ⟨7, 0, .rwl, 0, []⟩]⟩,
  ⟨"CAN_DBT", 0xd01008, [(16, 0x100)], 1, false,
    [⟨27, 24, .rwl, 0, []⟩, ⟨19, 16, .rwl, 0, []⟩, ⟨12, 8, .rwl, 0, []⟩, ⟨4, 0, .rwl, 0, []⟩]⟩,
  ⟨"CAN_STAT", 0xd0100c, [(16, 0x100)], 1, false,
    [⟨31, 30, .ro, 0, []⟩, ⟨29, 29, .ro, 0, []⟩, ⟨18, 16, .ro, 0, []⟩, ⟨14, 8, .ro, 0, []⟩]⟩,
  ⟨"CAN_ERR", 0xd01010, [(16, 0x100)], 1, false,
    [⟨24, 16, .ro, 0, []⟩, ⟨8, 0, .ro, 0, []⟩]⟩,
  ⟨"CAN_CMD", 0xd01014, [(16, 0x100)], 1, false,
    [⟨4, 4, .wo, 0, []⟩, ⟨3, 1, .wo, 0, []⟩, ⟨0, 0, .wo, 0, []⟩]⟩,
  ⟨"CAN_TX_CFG", 0xd01040, [(16, 0x100), (3, 0x40)], 1, false,
    [⟨31, 31, .rw, 0, []⟩, ⟨30, 30, .rw, 0, []⟩, ⟨26, 24, .rw, 0, [(0, 4)]⟩, ⟨23, 20, .rwl, 0, []⟩, ⟨19, 15, .rw, 0xa, [(6, 20)]⟩, ⟨3, 0, .rw, 4, [(4, 12)]⟩]⟩,
  ⟨"CAN_TX_PIDX", 0xd01044, [(16, 0x100), (3, 0x40)], 1, false,
    [⟨31, 0, .rw, 0, []⟩]⟩,
  ⟨"CAN_TX_CIDX", 0xd01048, [(16, 0x100), (3, 0x40)], 1, false,
    [⟨31, 0, .ro, 0, []⟩]⟩]

def regRowsCAN1 : List RegRow := [
  ⟨"CAN_TX_NOTE", 0xd0104c, [(16, 0x100), (3, 0x40)], 1, false,
    [⟨15, 15, .rw, 0, []⟩, ⟨12, 8, .rw, 0, []⟩, ⟨7, 0, .rw, 0, []⟩]⟩,
  ⟨"CAN_TX_SQ", 0xd01050, [(16, 0x100), (3, 0x40)], 2, false,
    [⟨47, 0, .rw, 0, []⟩]⟩,
  ⟨"CAN_TX_CQ", 0xd01058, [(16, 0x100), (3, 0x40)], 2, false,
    [⟨47, 0, .rw, 0, []⟩]⟩,
  ⟨"CAN_TX_PWORD", 0xd01060, [(16, 0x100), (3, 0x40)], 2, false,
    [⟨47, 0, .rw, 0, []⟩]⟩,
  ⟨"CAN_RX_BASE", 0xd03000, [(64, 0x20)], 2, false,
    [⟨47, 0, .rw, 0, []⟩]⟩,
  ⟨"CAN_RX_CFG", 0xd03008, [(64, 0x20)], 1, false,
    [⟨31, 31, .rw, 0, []⟩, ⟨29, 26, .rwl, 0, []⟩, ⟨20, 16, .rw, 4, [(4, 16)]⟩, ⟨15, 15, .rw, 0, []⟩, ⟨12, 8, .rw, 0, []⟩, ⟨7, 0, .rw, 0, []⟩]⟩,
  ⟨"CAN_RX_WIDX", 0xd0300c, [(64, 0x20)], 1, false,
    [⟨31, 0, .ro, 0, []⟩]⟩,
  ⟨"CAN_RX_RADDR", 0xd03010, [(64, 0x20)], 2, false,
    [⟨47, 0, .rw, 0, []⟩]⟩,
  ⟨"CAN_RX_LOST", 0xd03018, [(64, 0x20)], 1, false,
    [⟨31, 0, .rw, 0, []⟩]⟩,
  ⟨"CAN_ENC_ID", 0xd04000, [(64, 0x20)], 2, false,
    [⟨63, 0, .rwl, 0, []⟩]⟩,
  ⟨"CAN_ENC_DMAC", 0xd04008, [(64, 0x20)], 2, false,
    [⟨47, 0, .rwl, 0, []⟩]⟩,
  ⟨"CAN_ENC_CFG", 0xd04010, [(64, 0x20)], 1, false,
    [⟨31, 31, .rwl, 0, []⟩, ⟨30, 30, .rwl, 0, []⟩, ⟨29, 26, .rwl, 0, [(0, 9)]⟩, ⟨25, 22, .rwl, 0, []⟩, ⟨21, 19, .rwl, 0, []⟩, ⟨18, 16, .rwl, 0, [(0, 4)]⟩, ⟨11, 0, .rwl, 0, []⟩]⟩]

def regRowsCAN2 : List RegRow := [
  ⟨"CAN_ENC_HOLD", 0xd04014, [(64, 0x20)], 1, false,
    [⟨9, 0, .rwl, 0, [(0, 1000)]⟩]⟩,
  ⟨"CAN_RULE", 0xd10000, [(4096, 0x20), (8, 0x4)], 1, false,
    [⟨31, 0, .rwl, 0, []⟩]⟩,
  ⟨"CAN_RCNT", 0xd30000, [(4096, 0x4)], 1, false,
    [⟨31, 0, .rw, 0, []⟩]⟩]

/-- The rows of block CAN. -/
def regRowsCAN : List RegRow := regRowsCAN0 ++ regRowsCAN1 ++ regRowsCAN2

def regRowsNET0 : List RegRow := [
  ⟨"NET_E100_CFG", 0xe80000, [(2, 0x40)], 1, true,
    [⟨31, 31, .rwl, 0, []⟩, ⟨30, 30, .rwl, 0, []⟩, ⟨29, 26, .rwl, 0, []⟩, ⟨25, 25, .rwl, 0, []⟩, ⟨7, 0, .rwl, 0, []⟩]⟩,
  ⟨"NET_E100_MAC", 0xe80008, [(2, 0x40)], 2, true,
    [⟨47, 0, .rwl, 0, []⟩]⟩,
  ⟨"NET_E100_IP", 0xe80010, [(2, 0x40)], 4, true,
    [⟨127, 0, .rwl, 0, []⟩]⟩,
  ⟨"NET_MKEY_BASE", 0xe81000, [(256, 0x8)], 2, false,
    [⟨47, 0, .rwl, 0, []⟩]⟩,
  ⟨"NET_MKEY_CFG", 0xe82000, [(256, 0x8)], 1, false,
    [⟨31, 31, .rwl, 0, []⟩, ⟨30, 27, .rwl, 0, []⟩, ⟨26, 26, .rwl, 0, []⟩, ⟨23, 0, .rwl, 0, []⟩]⟩,
  ⟨"NET_MKEY_LEN", 0xe82004, [(256, 0x8)], 1, false,
    [⟨31, 0, .rwl, 0, [(1, 4294967295)]⟩]⟩,
  ⟨"NET_QP_CFG", 0xe90000, [(512, 0x40)], 1, false,
    [⟨31, 31, .rw, 0, []⟩, ⟨30, 30, .rw, 0, []⟩, ⟨29, 26, .rwl, 0, []⟩, ⟨25, 24, .rw, 0, [(0, 2)]⟩, ⟨23, 21, .rw, 0, []⟩, ⟨3, 0, .rw, 4, [(4, 12)]⟩]⟩,
  ⟨"NET_QP_DQPN", 0xe90004, [(512, 0x40)], 1, false,
    [⟨23, 0, .rw, 0, []⟩]⟩,
  ⟨"NET_QP_PSN", 0xe90008, [(512, 0x40)], 1, false,
    [⟨23, 0, .rw, 0, []⟩]⟩,
  ⟨"NET_QP_STAT", 0xe9000c, [(512, 0x40)], 1, false,
    [⟨31, 30, .ro, 0, []⟩, ⟨15, 0, .rw, 0, []⟩]⟩,
  ⟨"NET_QP_SQ", 0xe90010, [(512, 0x40)], 2, false,
    [⟨47, 0, .rw, 0, []⟩]⟩,
  ⟨"NET_QP_CQ", 0xe90018, [(512, 0x40)], 2, false,
    [⟨47, 0, .rw, 0, []⟩]⟩]

def regRowsNET1 : List RegRow := [
  ⟨"NET_QP_DIP", 0xe90020, [(512, 0x40)], 4, false,
    [⟨127, 0, .rw, 0, []⟩]⟩,
  ⟨"NET_QP_NOTE", 0xe90030, [(512, 0x40)], 1, false,
    [⟨15, 15, .rw, 0, []⟩, ⟨12, 8, .rw, 0, []⟩, ⟨7, 0, .rw, 0, []⟩]⟩,
  ⟨"NET_EVENT", 0xe00000, [], 1, false,
    [⟨8, 8, .rw1c, 0, []⟩, ⟨7, 7, .rw1c, 0, []⟩, ⟨6, 6, .rw1c, 0, []⟩, ⟨5, 5, .rw1c, 0, []⟩, ⟨4, 4, .rw1c, 0, []⟩, ⟨3, 3, .rw1c, 0, []⟩, ⟨2, 2, .rw1c, 0, []⟩, ⟨1, 1, .rw1c, 0, []⟩, ⟨0, 0, .rw1c, 0, []⟩]⟩,
  ⟨"NET_MDIO", 0xe00004, [], 1, false,
    [⟨31, 31, .rw, 0, []⟩, ⟨30, 30, .rw, 0, []⟩, ⟨29, 28, .rw, 0, [(0, 2)]⟩, ⟨27, 27, .rw, 0, []⟩, ⟨25, 21, .rw, 0, []⟩, ⟨20, 16, .rw, 0, []⟩, ⟨15, 0, .rw, 0, []⟩]⟩,
  ⟨"NET_PSFP_CTL", 0xe00008, [], 1, false,
    [⟨31, 31, .rw, 0, []⟩, ⟨2, 0, .rw, 0, [(0, 4)]⟩]⟩,
  ⟨"NET_PSFP_TAB", 0xe00010, [], 2, false,
    [⟨47, 0, .rw, 0, []⟩]⟩,
  ⟨"NET_P_CFG", 0xe01000, [(10, 0x400)], 1, true,
    [⟨31, 31, .rwl, 0, []⟩, ⟨30, 30, .rwl, 0, []⟩, ⟨29, 26, .rwl, 0, []⟩, ⟨25, 23, .rwl, 0, [(0, 2)]⟩, ⟨22, 22, .rwl, 0, []⟩, ⟨21, 21, .rwl, 0, []⟩, ⟨20, 20, .rwl, 0, []⟩, ⟨13, 0, .rwl, 0, [(64, 9216)]⟩]⟩,
  ⟨"NET_P_MAC", 0xe01008, [(10, 0x400)], 2, true,
    [⟨47, 0, .rwl, 0, []⟩]⟩,
  ⟨"NET_P_STAT", 0xe01010, [(10, 0x400)], 1, true,
    [⟨31, 31, .ro, 0, []⟩, ⟨30, 28, .ro, 0, []⟩, ⟨15, 0, .rw, 0, []⟩]⟩,
  ⟨"NET_P_RXMAP", 0xe01014, [(10, 0x400)], 1, false,
    [⟨23, 0, .rwl, 0, []⟩]⟩,
  ⟨"NET_P_PTP", 0xe01018, [(10, 0x400)], 1, false,
    [⟨31, 30, .rwl, 0, []⟩, ⟨27, 24, .rwl, 0, []⟩, ⟨23, 20, .rwl, 0, []⟩, ⟨2, 0, .rwl, 0, [(0, 4)]⟩]⟩,
  ⟨"NET_P_TAS_CTL", 0xe0101c, [(10, 0x400)], 1, false,
    [⟨31, 31, .rw, 0, []⟩, ⟨30, 30, .rw, 0, []⟩, ⟨29, 27, .rw, 0, [(0, 4)]⟩, ⟨8, 0, .rw, 1, [(1, 256)]⟩]⟩]

def regRowsNET2 : List RegRow := [
  ⟨"NET_P_TAS_BASE", 0xe01020, [(10, 0x400)], 2, false,
    [⟨63, 0, .rw, 0, []⟩]⟩,
  ⟨"NET_P_TAS_LIST", 0xe01028, [(10, 0x400)], 2, false,
    [⟨47, 0, .rw, 0, []⟩]⟩,
  ⟨"NET_TX_CFG", 0xe01100, [(10, 0x400), (8, 0x40)], 1, false,
    [⟨31, 31, .rw, 0, []⟩, ⟨30, 30, .rw, 0, []⟩, ⟨26, 24, .rw, 0, [(0, 4)]⟩, ⟨23, 20, .rwl, 0, []⟩, ⟨19, 15, .rw, 0xa, [(6, 20)]⟩, ⟨3, 0, .rw, 4, [(4, 12)]⟩]⟩,
  ⟨"NET_TX_PIDX", 0xe01104, [(10, 0x400), (8, 0x40)], 1, false,
    [⟨31, 0, .rw, 0, []⟩]⟩,
  ⟨"NET_TX_CIDX", 0xe01108, [(10, 0x400), (8, 0x40)], 1, false,
    [⟨31, 0, .ro, 0, []⟩]⟩,
  ⟨"NET_TX_NOTE", 0xe0110c, [(10, 0x400), (8, 0x40)], 1, false,
    [⟨15, 15, .rw, 0, []⟩, ⟨12, 8, .rw, 0, []⟩, ⟨7, 0, .rw, 0, []⟩]⟩,
  ⟨"NET_TX_SQ", 0xe01110, [(10, 0x400), (8, 0x40)], 2, false,
    [⟨47, 0, .rw, 0, []⟩]⟩,
  ⟨"NET_TX_CQ", 0xe01118, [(10, 0x400), (8, 0x40)], 2, false,
    [⟨47, 0, .rw, 0, []⟩]⟩,
  ⟨"NET_TX_PWORD", 0xe01120, [(10, 0x400), (8, 0x40)], 2, false,
    [⟨47, 0, .rw, 0, []⟩]⟩,
  ⟨"NET_RX_BASE", 0xe01300, [(10, 0x400), (8, 0x20)], 2, false,
    [⟨47, 0, .rw, 0, []⟩]⟩,
  ⟨"NET_RX_CFG", 0xe01308, [(10, 0x400), (8, 0x20)], 1, false,
    [⟨31, 31, .rw, 0, []⟩, ⟨29, 26, .rwl, 0, []⟩, ⟨25, 22, .rw, 0xb, [(11, 14)]⟩, ⟨20, 16, .rw, 4, [(4, 16)]⟩, ⟨15, 15, .rw, 0, []⟩, ⟨12, 8, .rw, 0, []⟩, ⟨7, 0, .rw, 0, []⟩]⟩,
  ⟨"NET_RX_WIDX", 0xe0130c, [(10, 0x400), (8, 0x20)], 1, false,
    [⟨31, 0, .ro, 0, []⟩]⟩]

def regRowsNET3 : List RegRow := [
  ⟨"NET_RX_RADDR", 0xe01310, [(10, 0x400), (8, 0x20)], 2, false,
    [⟨47, 0, .rw, 0, []⟩]⟩,
  ⟨"NET_RX_LOST", 0xe01318, [(10, 0x400), (8, 0x20)], 1, false,
    [⟨31, 0, .rw, 0, []⟩]⟩]

/-- The rows of block NET. -/
def regRowsNET : List RegRow := regRowsNET0 ++ regRowsNET1 ++ regRowsNET2 ++ regRowsNET3

def regRowsLNK0 : List RegRow := [
  ⟨"LNK_CFG", 0xf00000, [], 1, true,
    [⟨31, 31, .rwl, 1, []⟩, ⟨30, 30, .ro, 0, []⟩, ⟨29, 27, .ro, 0, []⟩, ⟨26, 26, .rwl, 0, []⟩, ⟨23, 16, .rwl, 0, []⟩, ⟨15, 8, .rwl, 0x19, [(15, 255)]⟩]⟩,
  ⟨"LNK_STATE", 0xf00004, [], 1, true,
    [⟨31, 30, .ro, 0, []⟩, ⟨29, 29, .ro, 0, []⟩, ⟨28, 28, .ro, 0, []⟩, ⟨26, 24, .ro, 0, []⟩]⟩,
  ⟨"LNK_MAP", 0xf00008, [], 1, true,
    [⟨15, 8, .ro, 0, []⟩, ⟨7, 0, .ro, 0, []⟩]⟩,
  ⟨"LNK_EVENT", 0xf0000c, [], 1, true,
    [⟨7, 7, .rw1c, 0, []⟩, ⟨6, 6, .rw1c, 0, []⟩, ⟨5, 5, .rw1c, 0, []⟩, ⟨4, 4, .rw1c, 0, []⟩, ⟨3, 3, .rw1c, 0, []⟩, ⟨2, 2, .rw1c, 0, []⟩, ⟨1, 1, .rw1c, 0, []⟩, ⟨0, 0, .rw1c, 0, []⟩]⟩,
  ⟨"LNK_STAT", 0xf00010, [], 1, true,
    [⟨31, 16, .rw, 0, []⟩, ⟨15, 0, .rw, 0, []⟩]⟩,
  ⟨"LNK_TIME_CFG", 0xf00014, [], 1, true,
    [⟨31, 31, .rwl, 0, []⟩, ⟨30, 30, .rwl, 0, []⟩, ⟨29, 27, .rwl, 0, [(0, 4)]⟩, ⟨9, 0, .rwl, 0, [(1, 1000)]⟩]⟩,
  ⟨"LNK_PORT_STAT", 0xf00020, [(2, 0x10)], 1, true,
    [⟨31, 31, .ro, 0, []⟩, ⟨23, 16, .ro, 0, []⟩, ⟨15, 0, .rw, 0, []⟩]⟩,
  ⟨"LNK_PORT_ERR", 0xf00024, [(2, 0x10)], 1, true,
    [⟨31, 16, .rw, 0, []⟩, ⟨15, 0, .rw, 0, []⟩]⟩,
  ⟨"LNK_PORT_DELAY", 0xf00028, [(2, 0x10)], 1, true,
    [⟨15, 0, .ro, 0, []⟩]⟩]

/-- The rows of block LNK. -/
def regRowsLNK : List RegRow := regRowsLNK0

def regRowsSER0 : List RegRow := [
  ⟨"SER_EVENT", 0x1000000, [], 1, false,
    [⟨4, 4, .rw1c, 0, []⟩, ⟨3, 3, .rw1c, 0, []⟩, ⟨2, 2, .rw1c, 0, []⟩, ⟨1, 1, .rw1c, 0, []⟩, ⟨0, 0, .rw1c, 0, []⟩]⟩,
  ⟨"SER_U_CFG", 0x1001000, [(8, 0x100)], 1, false,
    [⟨31, 31, .rwl, 0, []⟩, ⟨30, 27, .rwl, 0, []⟩, ⟨26, 25, .rwl, 0, [(0, 2)]⟩, ⟨24, 23, .rwl, 0, [(0, 2)]⟩, ⟨22, 22, .rwl, 0, []⟩, ⟨21, 21, .rwl, 0, []⟩, ⟨15, 0, .rwl, 0, [(1, 65535)]⟩]⟩,
  ⟨"SER_U_BAUD", 0x1001004, [(8, 0x100)], 1, false,
    [⟨19, 4, .rwl, 0, [(5, 65535)]⟩, ⟨3, 0, .rwl, 0, []⟩]⟩,
  ⟨"SER_U_STAT", 0x1001008, [(8, 0x100)], 1, false,
    [⟨31, 16, .rw, 0, []⟩, ⟨15, 0, .rw, 0, []⟩]⟩,
  ⟨"SER_TX_CFG", 0x1001040, [(8, 0x100)], 1, false,
    [⟨31, 31, .rw, 0, []⟩, ⟨30, 30, .rw, 0, []⟩, ⟨23, 20, .rwl, 0, []⟩, ⟨19, 15, .rw, 0xa, [(6, 20)]⟩, ⟨3, 0, .rw, 4, [(4, 12)]⟩]⟩,
  ⟨"SER_TX_PIDX", 0x1001044, [(8, 0x100)], 1, false,
    [⟨31, 0, .rw, 0, []⟩]⟩,
  ⟨"SER_TX_CIDX", 0x1001048, [(8, 0x100)], 1, false,
    [⟨31, 0, .ro, 0, []⟩]⟩,
  ⟨"SER_TX_NOTE", 0x100104c, [(8, 0x100)], 1, false,
    [⟨15, 15, .rw, 0, []⟩, ⟨12, 8, .rw, 0, []⟩, ⟨7, 0, .rw, 0, []⟩]⟩,
  ⟨"SER_TX_SQ", 0x1001050, [(8, 0x100)], 2, false,
    [⟨47, 0, .rw, 0, []⟩]⟩,
  ⟨"SER_TX_CQ", 0x1001058, [(8, 0x100)], 2, false,
    [⟨47, 0, .rw, 0, []⟩]⟩,
  ⟨"SER_TX_PWORD", 0x1001060, [(8, 0x100)], 2, false,
    [⟨47, 0, .rw, 0, []⟩]⟩,
  ⟨"SER_RX_BASE", 0x1001080, [(8, 0x100)], 2, false,
    [⟨47, 0, .rw, 0, []⟩]⟩]

def regRowsSER1 : List RegRow := [
  ⟨"SER_RX_CFG", 0x1001088, [(8, 0x100)], 1, false,
    [⟨31, 31, .rw, 0, []⟩, ⟨29, 26, .rwl, 0, []⟩, ⟨20, 16, .rw, 4, [(4, 16)]⟩, ⟨15, 15, .rw, 0, []⟩, ⟨12, 8, .rw, 0, []⟩, ⟨7, 0, .rw, 0, []⟩]⟩,
  ⟨"SER_RX_WIDX", 0x100108c, [(8, 0x100)], 1, false,
    [⟨31, 0, .ro, 0, []⟩]⟩,
  ⟨"SER_RX_RADDR", 0x1001090, [(8, 0x100)], 2, false,
    [⟨47, 0, .rw, 0, []⟩]⟩,
  ⟨"SER_RX_LOST", 0x1001098, [(8, 0x100)], 1, false,
    [⟨31, 0, .rw, 0, []⟩]⟩,
  ⟨"SER_GPIO_CFG", 0x1002000, [(32, 0x4)], 1, false,
    [⟨31, 31, .rwl, 0, []⟩, ⟨30, 27, .rwl, 0, []⟩, ⟨26, 25, .rwl, 0, [(0, 2)]⟩, ⟨24, 21, .rwl, 0, []⟩]⟩,
  ⟨"SER_GPIO_IN", 0x1002080, [], 1, false,
    [⟨31, 0, .ro, 0, []⟩]⟩,
  ⟨"SER_GPIO_SET", 0x1002084, [], 1, false,
    [⟨31, 0, .wo, 0, []⟩]⟩,
  ⟨"SER_GPIO_CLR", 0x1002088, [], 1, false,
    [⟨31, 0, .wo, 0, []⟩]⟩,
  ⟨"SER_GPIO_OUT", 0x100208c, [], 1, false,
    [⟨31, 0, .ro, 0, []⟩]⟩]

/-- The rows of block SER. -/
def regRowsSER : List RegRow := regRowsSER0 ++ regRowsSER1

def regRowsCKP0 : List RegRow := [
  ⟨"CKP_EVENT", 0x1100000, [], 1, false,
    [⟨5, 5, .rw1c, 0, []⟩, ⟨4, 4, .rw1c, 0, []⟩, ⟨3, 3, .rw1c, 0, []⟩, ⟨2, 2, .rw1c, 0, []⟩, ⟨1, 1, .rw1c, 0, []⟩, ⟨0, 0, .rw1c, 0, []⟩]⟩,
  ⟨"CKP_CFG", 0x1100004, [], 1, false,
    [⟨31, 31, .rwl, 0, []⟩, ⟨30, 27, .rwl, 0, []⟩, ⟨26, 22, .rwl, 0, [(6, 20)]⟩, ⟨15, 15, .rwl, 0, []⟩, ⟨12, 8, .rwl, 0, []⟩, ⟨7, 0, .rwl, 0, []⟩]⟩,
  ⟨"CKP_CMD", 0x1100008, [], 2, false,
    [⟨47, 0, .rwl, 0, []⟩]⟩,
  ⟨"CKP_D_CFG", 0x1101000, [(4, 0x400)], 1, false,
    [⟨31, 31, .rwl, 0, []⟩, ⟨30, 29, .rwl, 0, [(0, 2)]⟩, ⟨28, 27, .rwl, 0, []⟩, ⟨26, 26, .rwl, 0, []⟩, ⟨23, 0, .rwl, 0, []⟩]⟩,
  ⟨"CKP_D_CTL", 0x1101004, [(4, 0x400)], 1, false,
    [⟨31, 31, .rw, 0, []⟩]⟩,
  ⟨"CKP_D_STAT", 0x1101008, [(4, 0x400)], 1, false,
    [⟨31, 31, .ro, 0, []⟩, ⟨15, 0, .rw, 0, []⟩]⟩,
  ⟨"CKP_D_TT", 0x110100c, [(4, 0x400)], 1, false,
    [⟨31, 31, .rwl, 0, []⟩, ⟨30, 30, .rwl, 0, []⟩, ⟨29, 29, .rw1c, 0, []⟩, ⟨23, 16, .rwl, 0, [(1, 255)]⟩, ⟨15, 8, .rwl, 0, [(1, 255)]⟩, ⟨7, 0, .rw, 0, []⟩]⟩,
  ⟨"CKP_D_HT", 0x1101010, [(4, 0x400)], 1, false,
    [⟨31, 16, .rwl, 0, []⟩, ⟨15, 0, .rwl, 0, [(1, 8192)]⟩]⟩,
  ⟨"CKP_D_VT", 0x1101014, [(4, 0x400)], 1, false,
    [⟨31, 16, .rwl, 0, []⟩, ⟨15, 0, .rwl, 0, [(1, 8192)]⟩]⟩,
  ⟨"CKP_D_SYNC", 0x1101018, [(4, 0x400)], 1, false,
    [⟨31, 16, .rwl, 0, [(1, 65535)]⟩, ⟨15, 0, .rwl, 0, [(1, 65535)]⟩]⟩,
  ⟨"CKP_D_PCLK", 0x110101c, [(4, 0x400)], 1, false,
    [⟨19, 0, .rwl, 0, [(25000, 600000)]⟩]⟩,
  ⟨"CKP_D_NOTE", 0x1101020, [(4, 0x400)], 1, false,
    [⟨15, 15, .rwl, 0, []⟩, ⟨12, 8, .rwl, 0, []⟩, ⟨7, 0, .rwl, 0, []⟩]⟩]

def regRowsCKP1 : List RegRow := [
  ⟨"CKP_L_ADDR", 0x1101100, [(4, 0x400), (8, 0x20)], 2, false,
    [⟨47, 0, .rw, 0, []⟩]⟩,
  ⟨"CKP_L_SIZE", 0x1101108, [(4, 0x400), (8, 0x20)], 1, false,
    [⟨31, 16, .rw, 0, [(0, 8192)]⟩, ⟨15, 0, .rw, 0, [(0, 8192)]⟩]⟩,
  ⟨"CKP_L_POS", 0x110110c, [(4, 0x400), (8, 0x20)], 1, false,
    [⟨31, 16, .rw, 0, [(0, 8191)]⟩, ⟨15, 0, .rw, 0, [(0, 8191)]⟩]⟩,
  ⟨"CKP_L_CFG", 0x1101110, [(4, 0x400), (8, 0x20)], 1, false,
    [⟨31, 31, .rw, 0, []⟩, ⟨30, 29, .rw, 0, []⟩, ⟨28, 21, .rw, 0, []⟩, ⟨17, 0, .rw, 0, []⟩]⟩,
  ⟨"CKP_T_CFG", 0x1102000, [(4, 0x100)], 1, false,
    [⟨31, 31, .rwl, 0, []⟩, ⟨30, 30, .rwl, 0, []⟩, ⟨29, 29, .rwl, 0, []⟩, ⟨28, 27, .rwl, 0, []⟩, ⟨26, 26, .rwl, 0, []⟩, ⟨25, 25, .rwl, 0, []⟩, ⟨24, 24, .rwl, 0, []⟩]⟩,
  ⟨"CKP_TX_CFG", 0x1102040, [(4, 0x100)], 1, false,
    [⟨31, 31, .rw, 0, []⟩, ⟨30, 30, .rw, 0, []⟩, ⟨23, 20, .rwl, 0, []⟩, ⟨19, 15, .rw, 0xa, [(6, 20)]⟩, ⟨3, 0, .rw, 4, [(4, 12)]⟩]⟩,
  ⟨"CKP_TX_PIDX", 0x1102044, [(4, 0x100)], 1, false,
    [⟨31, 0, .rw, 0, []⟩]⟩,
  ⟨"CKP_TX_CIDX", 0x1102048, [(4, 0x100)], 1, false,
    [⟨31, 0, .ro, 0, []⟩]⟩,
  ⟨"CKP_TX_NOTE", 0x110204c, [(4, 0x100)], 1, false,
    [⟨15, 15, .rw, 0, []⟩, ⟨12, 8, .rw, 0, []⟩, ⟨7, 0, .rw, 0, []⟩]⟩,
  ⟨"CKP_TX_SQ", 0x1102050, [(4, 0x100)], 2, false,
    [⟨47, 0, .rw, 0, []⟩]⟩,
  ⟨"CKP_TX_CQ", 0x1102058, [(4, 0x100)], 2, false,
    [⟨47, 0, .rw, 0, []⟩]⟩,
  ⟨"CKP_TX_PWORD", 0x1102060, [(4, 0x100)], 2, false,
    [⟨47, 0, .rw, 0, []⟩]⟩]

def regRowsCKP2 : List RegRow := [
  ⟨"CKP_RX_BASE", 0x1102080, [(4, 0x100)], 2, false,
    [⟨47, 0, .rw, 0, []⟩]⟩,
  ⟨"CKP_RX_CFG", 0x1102088, [(4, 0x100)], 1, false,
    [⟨31, 31, .rw, 0, []⟩, ⟨20, 16, .rw, 4, [(4, 16)]⟩, ⟨15, 15, .rw, 0, []⟩, ⟨12, 8, .rw, 0, []⟩, ⟨7, 0, .rw, 0, []⟩]⟩,
  ⟨"CKP_RX_WIDX", 0x110208c, [(4, 0x100)], 1, false,
    [⟨31, 0, .ro, 0, []⟩]⟩,
  ⟨"CKP_RX_RADDR", 0x1102090, [(4, 0x100)], 2, false,
    [⟨47, 0, .rw, 0, []⟩]⟩,
  ⟨"CKP_RX_LOST", 0x1102098, [(4, 0x100)], 1, false,
    [⟨31, 0, .rw, 0, []⟩]⟩,
  ⟨"CKP_CH", 0x1103000, [(48, 0x4)], 1, false,
    [⟨31, 31, .rwl, 0, []⟩, ⟨30, 29, .rwl, 0, []⟩, ⟨28, 25, .rwl, 0, []⟩, ⟨24, 21, .rwl, 0, [(0, 7), (15, 15)]⟩, ⟨1, 1, .ro, 0, []⟩, ⟨0, 0, .ro, 0, []⟩]⟩,
  ⟨"CKP_AMP_LOG", 0x1103100, [(8, 0x10)], 2, false,
    [⟨63, 0, .ro, 0, []⟩]⟩,
  ⟨"CKP_AMP_CFG", 0x1103108, [(8, 0x10)], 1, false,
    [⟨3, 0, .rwl, 0, []⟩]⟩,
  ⟨"CKP_AMP_MASK", 0x110310c, [(8, 0x10)], 1, false,
    [⟨31, 0, .ro, 0, []⟩]⟩]

/-- The rows of block CKP. -/
def regRowsCKP : List RegRow := regRowsCKP0 ++ regRowsCKP1 ++ regRowsCKP2

def regRowsCORE0 : List RegRow := [
  ⟨"CORE_ID", 0x2000000, [(256, 0x20000)], 1, false,
    [⟨30, 24, .ro, 0, []⟩, ⟨22, 20, .ro, 0, []⟩, ⟨19, 16, .ro, 0, []⟩, ⟨12, 8, .ro, 0, []⟩, ⟨7, 0, .ro, 0, []⟩]⟩,
  ⟨"CORE_STATE", 0x2000004, [(256, 0x20000)], 1, false,
    [⟨17, 16, .ro, 0, []⟩, ⟨11, 8, .ro, 0, []⟩, ⟨2, 2, .ro, 0, []⟩, ⟨1, 0, .ro, 0, []⟩]⟩,
  ⟨"CORE_ARITH_CFG", 0x2000008, [(256, 0x20000)], 1, false,
    [⟨2, 2, .rw, 0, []⟩, ⟨1, 1, .rw, 0, []⟩, ⟨0, 0, .rw, 0, []⟩]⟩,
  ⟨"CORE_ARITH_STATUS", 0x200000c, [(256, 0x20000)], 1, false,
    [⟨10, 10, .rw1c, 0, []⟩, ⟨9, 9, .rw1c, 0, []⟩, ⟨8, 8, .rw1c, 0, []⟩, ⟨7, 7, .rw1c, 0, []⟩, ⟨6, 6, .rw1c, 0, []⟩, ⟨5, 5, .rw1c, 0, []⟩, ⟨4, 4, .rw1c, 0, []⟩, ⟨3, 3, .rw1c, 0, []⟩, ⟨2, 2, .rw1c, 0, []⟩, ⟨1, 1, .rw1c, 0, []⟩, ⟨0, 0, .rw1c, 0, []⟩]⟩,
  ⟨"CORE_SAT_COUNT", 0x2000010, [(256, 0x20000)], 1, false,
    [⟨31, 0, .rw, 0, []⟩]⟩,
  ⟨"CORE_PAR_COUNT", 0x2000014, [(256, 0x20000)], 1, false,
    [⟨31, 24, .rw, 0, []⟩, ⟨23, 16, .rw, 0, []⟩, ⟨15, 8, .rw, 0, []⟩, ⟨7, 0, .rw, 0, []⟩]⟩,
  ⟨"CORE_PAR_FIRST", 0x2000018, [(256, 0x20000)], 1, false,
    [⟨31, 31, .ro, 0, []⟩, ⟨18, 2, .ro, 0, []⟩, ⟨1, 0, .ro, 0, []⟩]⟩,
  ⟨"CORE_MAC_CYCLES", 0x2000020, [(256, 0x20000)], 2, false,
    [⟨63, 0, .ro, 0, []⟩]⟩,
  ⟨"CORE_FEED_STALLS", 0x2000028, [(256, 0x20000)], 2, false,
    [⟨63, 0, .ro, 0, []⟩]⟩,
  ⟨"CORE_SEQ_STATUS", 0x2001000, [(256, 0x20000)], 1, false,
    [⟨23, 20, .ro, 0, []⟩, ⟨19, 15, .ro, 0, []⟩, ⟨14, 14, .ro, 0, []⟩, ⟨13, 13, .ro, 0, []⟩, ⟨12, 10, .ro, 0, []⟩]⟩,
  ⟨"CORE_PC", 0x2001004, [(256, 0x20000)], 1, false,
    [⟨23, 0, .ro, 0, []⟩]⟩,
  ⟨"CORE_FAULT", 0x2001008, [(256, 0x20000)], 1, false,
    [⟨31, 31, .ro, 0, []⟩, ⟨27, 24, .ro, 0, []⟩, ⟨23, 0, .ro, 0, []⟩]⟩]

def regRowsCORE1 : List RegRow := [
  ⟨"CORE_FAULT_ADDR", 0x2001010, [(256, 0x20000)], 2, false,
    [⟨50, 48, .ro, 0, []⟩, ⟨47, 0, .ro, 0, []⟩]⟩,
  ⟨"CORE_TAG_BUSY", 0x2001018, [(256, 0x20000)], 1, false,
    [⟨31, 0, .ro, 0, []⟩]⟩,
  ⟨"CORE_PLAN_ID", 0x200101c, [(256, 0x20000)], 1, false,
    [⟨31, 0, .ro, 0, []⟩]⟩,
  ⟨"CORE_WORDS_ISSUED", 0x2001020, [(256, 0x20000)], 2, false,
    [⟨63, 0, .ro, 0, []⟩]⟩,
  ⟨"CORE_STALL_CYCLES", 0x2001028, [(256, 0x20000)], 2, false,
    [⟨63, 0, .ro, 0, []⟩]⟩,
  ⟨"CORE_BIND", 0x2002000, [(256, 0x20000)], 1, false,
    [⟨23, 0, .ro, 0, []⟩]⟩,
  ⟨"CORE_GUARD_STATUS", 0x2002004, [(256, 0x20000)], 1, false,
    [⟨31, 31, .ro, 0, []⟩, ⟨27, 24, .ro, 0, []⟩, ⟨23, 16, .ro, 0, []⟩, ⟨15, 0, .ro, 0, []⟩]⟩,
  ⟨"CORE_GUARD_BYPASS", 0x2002008, [(256, 0x20000)], 1, false,
    [⟨31, 0, .ro, 0, []⟩]⟩,
  ⟨"CORE_CNT", 0x2002080, [(256, 0x20000), (32, 0x4)], 1, false,
    [⟨31, 0, .ro, 0, []⟩]⟩,
  ⟨"CORE_WIN_BASE", 0x2002100, [(256, 0x20000), (16, 0x8)], 1, false,
    [⟨31, 31, .ro, 0, []⟩, ⟨30, 30, .ro, 0, []⟩, ⟨25, 21, .ro, 0, []⟩, ⟨20, 0, .ro, 0, []⟩]⟩,
  ⟨"CORE_WIN_GEOM", 0x2002104, [(256, 0x20000), (16, 0x8)], 1, false,
    [⟨23, 16, .ro, 0, []⟩, ⟨14, 0, .ro, 0, []⟩]⟩,
  ⟨"CORE_CRD_TGT", 0x2002200, [(256, 0x20000), (32, 0x8)], 1, false,
    [⟨31, 31, .ro, 0, []⟩, ⟨30, 30, .ro, 0, []⟩, ⟨29, 15, .ro, 0, []⟩, ⟨11, 8, .ro, 0, []⟩, ⟨7, 0, .ro, 0, []⟩]⟩]

def regRowsCORE2 : List RegRow := [
  ⟨"CORE_CRD_BAL", 0x2002204, [(256, 0x20000), (32, 0x8)], 1, false,
    [⟨20, 0, .ro, 0, []⟩]⟩,
  ⟨"CORE_ECC_STATUS", 0x2003000, [(256, 0x20000)], 1, false,
    [⟨4, 4, .rw1c, 0, []⟩, ⟨3, 3, .rw1c, 0, []⟩, ⟨2, 2, .rw1c, 0, []⟩, ⟨1, 1, .rw1c, 0, []⟩, ⟨0, 0, .rw1c, 0, []⟩]⟩,
  ⟨"CORE_ECC_CE", 0x2003004, [(256, 0x20000)], 1, false,
    [⟨31, 0, .rw, 0, []⟩]⟩,
  ⟨"CORE_ECC_UE", 0x2003008, [(256, 0x20000)], 1, false,
    [⟨31, 0, .rw, 0, []⟩]⟩,
  ⟨"CORE_ECC_PS", 0x200300c, [(256, 0x20000)], 1, false,
    [⟨31, 0, .rw, 0, []⟩]⟩,
  ⟨"CORE_ECC_FIRST", 0x2003010, [(256, 0x20000)], 1, false,
    [⟨31, 31, .ro, 0, []⟩, ⟨20, 0, .ro, 0, []⟩]⟩,
  ⟨"CORE_SCRUB_POS", 0x2003014, [(256, 0x20000)], 1, false,
    [⟨20, 0, .ro, 0, []⟩]⟩]

/-- The rows of block CORE. -/
def regRowsCORE : List RegRow := regRowsCORE0 ++ regRowsCORE1 ++ regRowsCORE2

/-- The rows of the block an offset lies in (R583). -/
def regRowsAt (off : Nat) : List RegRow :=
  match off >>> 20 with
  | 0 => regRowsSYS
  | 1 => regRowsPWR
  | 2 => regRowsTIM
  | 3 => regRowsEVT
  | 4 => regRowsSAF
  | 5 => regRowsMEM
  | 6 => regRowsPART
  | 7 => regRowsVMS
  | 8 => regRowsING
  | 9 => regRowsDEC
  | 10 => regRowsPRE
  | 11 => regRowsSOL
  | 12 => regRowsCTL
  | 13 => regRowsCAN
  | 14 => regRowsNET
  | 15 => regRowsLNK
  | 16 => regRowsSER
  | 17 => regRowsCKP
  | _ => if 0x2000000 ≤ off ∧ off < 0x4000000 then regRowsCORE else []

/-- Does the offset fall on an instance of a register array; the index list if so. -/
def dimIndex : List (Nat × Nat) → Nat → Nat → Option (List Nat)
  | [], words, d => if d < 4 * words then some [] else none
  | (n, st) :: rest, words, d =>
    if d / st < n then (dimIndex rest words (d % st)).map (fun is => d / st :: is) else none

/-- The register instance at a word offset: its row, its indices, and which of its words. -/
def regAt (off : Nat) : Option (RegRow × List Nat × Nat) :=
  (regRowsAt off).findSome? fun r =>
    if off < r.base then none
    else match dimIndex r.dims r.words (off - r.base) with
      | some is => some (r, is, ((off - r.base) - (r.dims.zip is).foldl (fun a x => a + x.1.2 * x.2) 0) / 4)
      | none => none

/-- The whole register's value after PORST_n (R18). -/
def RegRow.resetValue (r : RegRow) : Nat := r.fields.foldl (fun a f => a + f.reset <<< f.lo) 0

/-- Rows of one 1 MiB block whose reset value is not 0: base, dimensions, words, value. -/
def resetRows (block : Nat) : List (Nat × List (Nat × Nat) × Nat × Nat) :=
  match block with
  | 0 => [
    (0x0, [], 1, 0x92560021),  -- SYS_ID
    (0x30, [(2, 0x4)], 1, 0x3fffffff),  -- SYS_REMAP
    (0x38, [], 1, 0xfffff)]  -- SYS_REMAP2
  | 1 => [
    (0x100100, [(8, 0x8)], 1, 0x258),  -- PWR_REG_CFG
    (0x100104, [(8, 0x8)], 1, 0x25800258)]  -- PWR_REG_STAT
  | 2 => [
    (0x200108, [(4, 0x80)], 2, 0x400000000000),  -- TIM_RATE
    (0x200140, [(4, 0x80)], 2, 0x400000000000),  -- TIM_ARATE
    (0x200810, [], 2, 0x400000000000),  -- TIM_SRV_NOM
    (0x200900, [], 1, 0x1)]  -- TIM_PPSO_CFG
  | 3 => [
    (0x302008, [(16, 0x20)], 1, 0x40000)]  -- EVT_RING_CFG
  | 4 => [
    (0x400000, [], 1, 0x82800000),  -- SAF_STATE
    (0x400008, [], 1, 0x2000),  -- SAF_CAUSE
    (0x40000c, [], 1, 0xb409),  -- SAF_CAUSE_EN
    (0x400110, [(4, 0x4)], 1, 0x40000000),  -- SAF_FT_QUAD
    (0x400144, [], 1, 0x80000000)]  -- SAF_FO_STAT
  | 6 => [
    (0x601050, [(16, 0x100)], 1, 0x40000)]  -- PART_RPT_CFG
  | 7 => [
    (0x700004, [], 1, 0x32),  -- VMS_PORT_CFG
    (0x701014, [(64, 0x40)], 1, 0x4),  -- VMS_SL_ACFG
    (0x78000c, [(2048, 0x10)], 1, 0x1)]  -- VMS_MSIX_CTL
  | 8 => [
    (0x802000, [(16, 0x20)], 1, 0x1),  -- ING_SYNC_CFG
    (0x802004, [(16, 0x20)], 1, 0x10000)]  -- ING_SYNC_PERIOD
  | 9 => [
    (0x900100, [(16, 0x40)], 1, 0x50004)]  -- DEC_Q_CFG
  | 10 => [
    (0xa00100, [(16, 0x40)], 1, 0x50004)]  -- PRE_Q_CFG
  | 11 => [
    (0xb00100, [(16, 0x40)], 1, 0x50004)]  -- SOL_Q_CFG
  | 12 => [
    (0xc00104, [(8, 0x20)], 1, 0x1388),  -- CTL_CYC_PERIOD
    (0xc0c014, [(4, 0x20)], 1, 0x1),  -- CTL_INJ_SEED
    (0xc0c110, [(4, 0x20)], 1, 0x1)]  -- CTL_CAP_NSAMP
  | 13 => [
    (0xd01040, [(16, 0x100), (3, 0x40)], 1, 0x50004),  -- CAN_TX_CFG
    (0xd03008, [(64, 0x20)], 1, 0x40000)]  -- CAN_RX_CFG
  | 14 => [
    (0xe90000, [(512, 0x40)], 1, 0x4),  -- NET_QP_CFG
    (0xe0101c, [(10, 0x400)], 1, 0x1),  -- NET_P_TAS_CTL
    (0xe01100, [(10, 0x400), (8, 0x40)], 1, 0x50004),  -- NET_TX_CFG
    (0xe01308, [(10, 0x400), (8, 0x20)], 1, 0x2c40000)]  -- NET_RX_CFG
  | 15 => [
    (0xf00000, [], 1, 0x80001900)]  -- LNK_CFG
  | 16 => [
    (0x1001040, [(8, 0x100)], 1, 0x50004),  -- SER_TX_CFG
    (0x1001088, [(8, 0x100)], 1, 0x40000)]  -- SER_RX_CFG
  | 17 => [
    (0x1102040, [(4, 0x100)], 1, 0x50004),  -- CKP_TX_CFG
    (0x1102088, [(4, 0x100)], 1, 0x40000)]  -- CKP_RX_CFG
  | _ => []

/-- The value of one 32-bit word of register space after PORST_n (R18): the reset column, and 0 elsewhere (R583). -/
def regReset (off : Nat) : BitVec 32 :=
  match (resetRows (off >>> 20)).findSome? fun (base, dims, words, v) =>
    if off < base then none
    else (dimIndex dims words (off - base)).map fun is =>
      v >>> (8 * ((off - base) - (dims.zip is).foldl (fun a x => a + x.1.2 * x.2) 0)) with
  | some v => BitVec.ofNat 32 v
  | none => 0

end Sys2Proof.Machine
end

