-- ==== Sys2Proof/Machine/State.lean ====
section
/-! DEFINITION. The state of the block, as plain data: the register file, device memory with its check-bit syndromes, the
mesh messages in flight, and for each block what the spec gives it beside its registers.  Then the faults, the refusals and
the state after PORST_n. -/

namespace Sys2Proof.Machine

/-- What the 256 logical cores hold beside their register windows (R50 to R124).  Keys: core × 32,768 + word for the
accumulator (R53), core × 8,192 + 64 × register + lane for the vector registers, core × 128 + register for their poison
marks, core × 16 + slot for AG slots and window cursors, core × 32 + tag for tags, (core × 16 + window) × 256 + slot for
guarded slots, partition × 16 + barrier for barriers, core × 2²⁴ + word for declared choice points, core × 512 + ACC_BASE
for the row pitch of the tile an MMUL last started there. -/
structure CoreSt where
  loops : SMap (List LoopFrame)
  acc : SMap Word
  accMark : SMap Bool
  pitch : SMap Nat
  vreg : SMap Word
  vMark : SMap Bool
  feedUses : SMap Nat
  ag : SMap AgSlot
  tags : SMap TagInfo
  xfers : List Xfer
  slots : SMap SlotInfo
  dcur : SMap Nat
  debug : SMap Bool
  stopped : SMap Bool
  planBanks : SMap Nat
  barMask : SMap Nat
  barHere : SMap Nat
  choice : SMap Bool
  attns : List AttnJob
  claims : List Claim
  copies : List PageCopy
  upsets : List Upset
  deriving DecidableEq, Repr

/-- A triggered-pass context (R177, R178): granules done, raw count at start, the counts of its record and the granules
found (carried?, address), oldest first. -/
structure TsCtx where
  done : Nat
  start : Nat
  ce : Nat
  ue : Nat
  ps : Nat
  found : List (Bool × Nat)
  deriving DecidableEq, Repr

/-- What MEM, the mesh and the memories hold beside registers (R162 to R184, R584): syndromes by word address, failed
links (x, y, direction), scrub positions by instance (256 + slice, 512 + channel), the sweep in progress of each instance,
the sweep in which a granule was last corrected, triggered passes, fills under way, excluded instances (1024 + x: a failed parity
checker elsewhere). -/
structure MemSt where
  ecc : SMap Byte
  failed : List (Nat × Nat × Nat)
  scrub : SMap Nat
  sweep : SMap Nat
  fixedIn : SMap Nat
  ts : SMap TsCtx
  filling : Bool
  lpTrained : Nat
  excluded : List Nat
  deriving DecidableEq, Repr

/-- What PART holds beside registers (R344 to R370): the loaded plan and the image's plan of each partition, the cached
read index of each report queue, the stop messages on their way (partition, endpoint), reset requests, reset progress
(0 none, 1 draining, 2 filling) and start, the plan a reset makes room for, partitions whose issue a freeze holds (R435), and the slot index in force. -/
structure PartSt where
  plan : SMap (Option PlanBinary)
  imagePlan : SMap (Option PlanBinary)
  rptRead : SMap Nat
  stops : List (Nat × Nat)
  resetReq : SMap Bool
  resetStep : SMap Nat
  resetAt : SMap Nat
  nextLoad : SMap (Option PlanBinary)
  frozen : SMap Bool
  slot : Nat
  deriving DecidableEq, Repr

/-- What TIM holds beside registers (R319 to R331): whether the counter runs from CLK_AO, the 6-bit fraction accumulator,
the commit count of each timescale while pending, measurement pairs not yet taken (source, reference, count), the servo's
integrator, lock streak and its commit in waiting (mode, delta, rate, count), the next PPS second, the counts at which pulses
end, and whether the alarm still lies ahead. -/
structure TimSt where
  ao : Bool
  frac : Nat
  commitAt : SMap Nat
  servoI : Int
  lockRun : Nat
  pairs : List (Nat × Nat × Nat)
  srvPend : Option (Nat × Int × Nat × Nat)
  alarmAhead : Bool
  ppsNext : Nat
  ppsOut : Bool
  ppsEnd : Nat
  camNext : SMap Nat
  camOut : SMap Bool
  camEnd : SMap Nat
  deriving DecidableEq, Repr

/-- What EVT holds beside registers (R333 to R342): sampled input levels by source number, the cached read index and the
lost mark of each ring, and the last TICK with events and how many it raised (R341). -/
structure EvtSt where
  level : SMap Bool
  read : SMap Nat
  lost : SMap Bool
  tick : Nat
  inTick : Nat
  deriving DecidableEq, Repr

/-- A quad's floor turning (R402 to R405): step 0 idle, 1 mirroring, 2 self-testing the victim; the victim's position, the
logical core it serves, the spare's position and whether the core may be handed over. -/
structure FtQuad where
  step : Nat
  victim : Nat
  core : Nat
  spare : Nat
  began : Nat
  deriving DecidableEq, Repr

/-- What SAF holds beside registers (R388 to R416): output registers and gate, TRIP_IN_n pins held low, the sweep, the
pending arming, pending frames of each slot (frame, channel, raw count of the first report, oldest first), epochs since a
slot's last verdict, the newest frame set in each stream, the cores active in the epoch and their results (1 good, 2 bad),
frames awaiting judgement, cores that ran the workload in this epoch, slots due to judge built-in pairs, epochs since ARM,
whether epochs run, flagged-frame runs, the physical position of each logical core, spares and their order, priority victims, retired
positions, last BIST times, quads, the open self-test (type, target, deferred?), missed heartbeats by chip and whether the last
said ACTIVE, and when the last heartbeat was sent. -/
structure SafSt where
  outA : Bool
  outB : Bool
  outF : Bool
  tripLow : SMap Bool
  gateClosed : Bool
  sweeping : Bool
  armReq : Bool
  armGood : Bool
  armFrom : Nat
  epochBad : Bool
  pend : SMap (List (Nat × Nat × Nat))
  quiet : SMap Nat
  newest : SMap (Option Nat)
  active : SMap Bool
  result : SMap Nat
  ready : SMap (List Nat)
  ran : SMap Bool
  builtin : SMap Bool
  epCount : Nat
  epochOn : Bool
  frzRun : SMap Nat
  place : SMap Nat
  spares : SMap (List Nat)
  victims : List (Nat × Nat)
  retired : List Nat
  lastBist : SMap Nat
  quads : SMap FtQuad
  nextVictim : SMap Nat
  selfTest : Option (Nat × Nat × Bool)
  hbMissed : SMap Nat
  hbActive : SMap Bool
  hbSent : Nat
  devsafe : Bool
  deriving DecidableEq, Repr

/-- What SYS holds beside registers (R529 to R561): entries in the AO buffer; whether the lock was set since PORST_n and whether the
device woke from Cellar since (R547); a refusal of R543; the step of R537 under way (14 the minimal state) and whether step 7's
self-test is done; training launched (R544); the copy in use and bytes of a copy, the verified header, the next component; the
minimal state is due; the microcode version loaded (major × 256 + minor); cores whose microcode failed once; plans that wait for the
common release (partition, plan); resends asked for, by chip × 2¹⁶ + component; KEYHASH; whether log flash is there; the two logs,
newest first, and the entries each was ever given; SEQ of the BOOT entry; EARLY writes were applied; partitions of which an optional
component failed. -/
structure SysSt where
  logQ : List LogEnt
  lockEver : Bool
  woke : Bool
  hwBist : Bool
  stage : Nat
  tested : Bool
  launched : Bool
  copy : Nat
  copyLen : Nat
  header : Option ImgHeader
  comp : Nat
  minimal : Bool
  mcif : Nat
  mcodeBad : SMap Bool
  hold : List (Nat × PlanBinary)
  naks : SMap Nat
  key : Option (BitVec 384)
  flash : Bool
  events : List FlashEnt
  faults : List FlashEnt
  eventCount : Nat
  faultCount : Nat
  bootSeq : Nat
  early : Bool
  optBad : List Nat
  deriving DecidableEq, Repr

/-- What PWR holds beside registers (R503 to R527, R538): steps waiting for a ramp slot; domains on their way to a shallower state
(its code + 1); when each domain entered Rest; spares switched on; Cellar (0 no, 1 accepted, 2 in it, 3 waking) and sources that
fired before the entry was complete; enables driven and power-good inputs, by group; failures of power-good and the count of the
last, while it waits; clocks that failed without replacement (bits of PWR_CLKMON); the MAC addresses of MGE0 and MGE1. -/
structure PwrSt where
  steps : List RampStep
  waking : SMap Nat
  restAt : SMap Nat
  spareOn : List Nat
  cellar : Nat
  early : Nat
  en : Nat
  pg : Nat
  tries : Nat
  failAt : Option Nat
  dead : Nat
  macs : List Nat
  deriving DecidableEq, Repr

/-- An open frame of a stream (R216, R218): FS stamp, lines delivered with their stamps, lines received and replaced, FLAGS so
far, embedded packets seen and the counter found, and the stamp of the last LS packet. -/
structure IngFrame where
  fs : Nat
  lines : List (List (BitVec 16))
  stamps : List Nat
  received : Nat
  replaced : Nat
  firstRep : Option Nat
  flags : Nat
  embSeen : Nat
  emb : Option Nat
  ls : Option Nat
  deriving DecidableEq, Repr

/-- A stream (R215, R233 to R236): its open frame, the grid hashes of the last 4 frames (newest first), the last counter, the
last FS stamp, whether no frame came yet, and the time MISSING is due. -/
structure IngStr where
  frame : Option IngFrame
  hist : List Nat
  cnt : Option Nat
  lastFs : Option Nat
  first : Bool
  missAt : Option Nat
  deriving DecidableEq, Repr

/-- What ING, DEC and PRE hold beside registers. -/
structure VisSt where
  streams : SMap IngStr
  ctx : SMap (Option PreCtx)
  preq : SMap PreQueue
  dec : SMap (Option DecStream)
  deriving DecidableEq, Repr

/-- A solver job (R258 to R276): queue, descriptor, raw count at fetch, whether setup is done, whether its next check point is
due, units (members or iterations) completed, how it ended (STATUS bits) and whether STALE, RES, results saturated, members
failed, poison in its data, the solution so far with its poison marks, and for sparse jobs the CSR matrix, right-hand side, block
factors, vectors x, r, p, and rho and b·b (significand, exponent). -/
structure SolJob where
  queue : Nat
  desc : BitVec 1024
  fetched : Nat
  setup : Bool
  check : Bool
  units : Nat
  ended : Option Nat
  stale : Bool
  res : Int
  sat : Nat
  fails : Nat
  pois : Bool
  sol : List (Int × Bool)
  rows : List Nat
  cols : List Nat
  vals : List Int
  b : List Int
  blocks : List (List Int)
  x : List Int
  r : List Int
  p : List Int
  rho : Int
  bb : Int × Int
  deriving DecidableEq, Repr

/-- What SOL holds beside registers: the running job, suspended jobs, and the queue that ran last. -/
structure SolSt where
  run : Option SolJob
  susp : List SolJob
  last : Nat
  deriving DecidableEq, Repr

/-- A section's x1, x2, y1, y2 (R286). -/
structure SecSt where
  x1 : Int
  x2 : Int
  y1 : Int
  y2 : Int
  deriving DecidableEq, Repr

/-- The states of a channel's law (R286 to R288, R313): sections, I, u_prev, v_p, ramped set-point r, the sign of the last
limiting (0 none), and the plant model's.  A privileged channel's two copies are equal but in an update that ends in DUP
(R314, R315). -/
structure LawSt where
  sec : List SecSt
  i : Int
  uPrev : Int
  vp : Int
  r : Int
  lim : Int
  yh1 : Int
  yh2 : Int
  u1 : Int
  u2 : Int
  r1 : Int
  rf : Int
  deriving DecidableEq, Repr

/-- An update request (R282): the TICK of its trigger, the cycle time, the latched feedback and set-point source value. -/
structure CtlReq where
  tick : Nat
  t : Nat
  fb : Int
  sp : Int
  deriving DecidableEq, Repr

/-- A prefetched trajectory entry (R292). -/
structure TrajEnt where
  time : Nat
  value : Int
  step : Bool
  pois : Bool
  deriving DecidableEq, Repr

/-- A control channel beside its registers (R282 to R313): active parameters, the set a COMMIT checked, law states, the TICK of
a trigger not yet looked at, triggers counted towards TDIV, the TICK of the previous accepted trigger, the last good feedback,
the pending request, the update in the pipeline with its start, whether the next update is the first after START, whether the
start runs against the motion, the count at which a STOP took the pair, the trip action in force (0 HOLD, 1 RAMP, 2 SAFE),
whether a table refresh is due; the table's window: index of its first entry, WIDX, entries; RIDX; the last SEQ acted on; the
last set-point taken. -/
structure ChanSt where
  active : List Word
  commit : Option (List Word)
  law : LawSt
  trig : Option Nat
  div : Nat
  acc : Option Nat
  fb : Int
  req : Option CtlReq
  run : Option (CtlReq × Nat)
  first : Bool
  against : Bool
  stopAt : Option Nat
  action : Nat
  refresh : Bool
  base : Nat
  widx : Nat
  ents : List TrajEnt
  ridx : Nat
  seq : Nat
  spLast : Int
  deriving DecidableEq, Repr

/-- A quadrature input (R294, R295, R301): accepted A and B, whether an index was seen since it was enabled, the velocity
window's start and position there, and the count from which its stillness is measured. -/
structure QeiSt where
  a : Bool
  b : Bool
  seen : Bool
  winFrom : Nat
  winPos : Nat
  still : Nat
  deriving DecidableEq, Repr

/-- A pulse-capture input (R298): accepted level, the counts of the last rising and falling edge and of the last edge. -/
structure PcapSt where
  level : Bool
  rise : Option Nat
  fall : Option Nat
  last : Nat
  deriving DecidableEq, Repr

/-- An encoder port (R299): a read is due, a read is under way, its line fault so far, and the velocity. -/
structure EncSt where
  due : Bool
  busy : Bool
  line : Bool
  vel : Int
  deriving DecidableEq, Repr

/-- A PWM pair (R302 to R305): compare shadow, forced safe by its channel, and which sides' pulses of this period are dropped. -/
structure PwmSt where
  shadow : Nat
  safeCh : Bool
  dropH : Bool
  dropL : Bool
  deriving DecidableEq, Repr

/-- A capture unit (R317): updates since its last sample, samples written, samples still to take after the trigger. -/
structure CapSt where
  cnt : Nat
  total : Nat
  left : Option Nat
  deriving DecidableEq, Repr

/-- What CTL holds beside registers; generators: updates done and chirp phase; cycle timers: NEXT; law units: last start. -/
structure CtlSt where
  chan : SMap ChanSt
  qei : SMap QeiSt
  pcap : SMap PcapSt
  enc : SMap EncSt
  pwm : SMap PwmSt
  inj : SMap (Nat × Nat)
  cap : SMap CapSt
  cyc : SMap Nat
  lu : SMap (Option Nat)
  deriving DecidableEq, Repr

/-- An admin command in progress (R431, R435): slice, TAG, partition, whether it is a FREEZE (else a LOAD), and its start. -/
structure AdminCmd where
  slice : Nat
  tag : Nat
  part : Nat
  freeze : Bool
  start : Nat
  deriving DecidableEq, Repr

/-- What VMS holds beside registers (R431 to R441): ports in D3hot, the slice served last, the command in progress, and
whether a frozen partition's event ring was enabled. -/
structure VmsSt where
  d3 : SMap Bool
  last : Nat
  busy : Option AdminCmd
  ring : SMap Bool
  deriving DecidableEq, Repr

/-- A ring transaction whose response is owed: its request, the port it left by and when (R452, R453). -/
structure RingPend where
  msg : Msg
  port : Nat
  sent : Nat
  deriving DecidableEq, Repr

/-- What LNK holds beside registers (R446 to R459): consecutive training failures and the count of the last start or failure of
training; acting as worker after a ROLE conflict; a standing ORDER conflict; hellos heard (positions along TLB, chip, role); the
rate that retraining aims at and whether PAM4 has failed for this map; by port the next SEQ sent and expected, whether a NAK is
out, the retry buffer with the attempts made, frames held; transactions in flight, requests that wait for a changed direction;
when the manager last sent a time frame. -/
structure LnkSt where
  fails : Nat
  trainAt : Nat
  actWorker : Bool
  order : Bool
  hello : List (Nat × Nat × Bool)
  pam : Bool
  noPam : Bool
  txSeq : SMap Nat
  rxSeq : SMap Nat
  nak : SMap Bool
  retry : SMap (List (RingFrame × Nat))
  held : SMap (List RingFrame)
  pend : List RingPend
  wait : List Msg
  timeAt : Nat
  deriving DecidableEq, Repr

/-- A RoCE queue pair (R461 to R463): work requests sent and not answered, each with its PSN and data, oldest first; retries
since the last answer; completions written; immediates whose data is written and whose completion is not; the fraction of its
rate (in 2⁻¹⁶) that a congestion notification left, and when. -/
structure QpSt where
  sent : List (RoceWr × Nat × List (BitVec 8))
  tries : Nat
  cidx : Nat
  imms : List (Nat × Nat)
  rate : Nat
  cut : Nat
  deriving DecidableEq, Repr

/-- What CAN and the gateway hold beside registers (R466 to R479): by controller × 4 + queue (3: gateway egress) the head of each
queue and the index a FLUSH reaches; the queue whose frame is on the bus, and the gateway's frames, by controller; unmatched frames
dropped; by stream the messages collected (frame, controller, message time), the count at the first, the next sequence number,
the last one received and the gaps seen. -/
structure CanSt where
  heads : SMap (Option CanHead)
  flush : SMap (Option Nat)
  bus : SMap (Option Nat)
  egress : SMap (List CanFrame)
  noMatch : Nat
  enc : SMap (List (CanFrame × Nat × Nat))
  encAt : SMap Nat
  encSeq : SMap Nat
  decSeq : SMap (Option Nat)
  gaps : SMap Nat
  deriving DecidableEq, Repr

/-- What NET holds beside registers (R480 to R485): by port × 8 + class the head of the transmit queue, the gateway's frames and
whether the gateway had the last turn; by port the gate list in force with the reading at which its cycles count from, and the list
to come with the reading at which it starts; the stream-filtering table in force (filters, meters, gate headers, gate lists), filters
blocked, drops by filter, gates closed for good, and the token buckets of each meter (green, yellow, count); by port the mean link
delay, the neighbour's rate offset (in 2⁻⁴¹), t3 and t4 of the last exchange, the last Sync (stamp, origin, correction, rate
offset), its count and whether its absence was reported; frames dropped by port × 4 + kind (0 FCS or length, 1 slot, 2 GATE_LONG). -/
structure NetSt where
  heads : SMap (Option NetHead)
  egress : SMap (List EthFrame)
  turn : SMap Bool
  gates : SMap (List (Nat × Nat) × Nat)
  newGates : SMap (Option (List (Nat × Nat) × Nat × Nat))
  filters : List (BitVec 128)
  meters : List (BitVec 256)
  sgates : List (BitVec 128)
  slists : List (List (BitVec 64))
  blocked : SMap Bool
  fdrops : SMap Nat
  closed : SMap Bool
  tokens : SMap (Option (Nat × Nat × Nat))
  delay : SMap Int
  nrr : SMap Int
  pd : SMap (Option (Nat × Nat))
  sync : SMap (Option (Nat × Nat × Int × Int))
  syncAt : SMap Nat
  syncLost : SMap Bool
  drops : SMap Nat
  deriving DecidableEq, Repr

/-- What SER holds beside registers (R486): by UART the entries not yet notified, and the characters being sent (address, bytes,
bytes sent, descriptor index). -/
structure SerSt where
  pend : SMap Nat
  tx : SMap (Option (Nat × Nat × Nat × Nat))
  deriving DecidableEq, Repr

/-- What CKP holds beside registers (R491 to R501): by output the layers shown, SEQ of the last frame, consecutive mismatches and
repeats; by output channel the gain reached (in 1/48) and the count from which its ramp runs; by fault input whether it is low; the
last SEQ of the command word; by port the buffer being played (address, frames left, descriptor index), the samples recorded (stamp of
the first frame, samples) and records written; audio underruns by port. -/
structure CkpSt where
  shown : SMap (List CkpLayer)
  ttSeq : SMap (Option Nat)
  mis : SMap Nat
  rep : SMap Nat
  gain : SMap Nat
  rampAt : SMap Nat
  amp : SMap Bool
  cmdSeq : Nat
  play : SMap (Option (Nat × Nat × Nat))
  recd : SMap (Nat × List Nat)
  recs : SMap Nat
  under : SMap Nat
  deriving DecidableEq, Repr

/-- The state of the block. -/
structure State where
  pending : List Instr
  regs : SMap Word
  hold : SMap (Option Word)
  readback : SMap Word
  mem : List Host.Cell
  msgs : List Msg
  out : List Ext
  core : CoreSt
  memory : MemSt
  part : PartSt
  tim : TimSt
  evt : EvtSt
  saf : SafSt
  sys : SysSt
  pwr : PwrSt
  queues : SMap QueueSt
  vis : VisSt
  sol : SolSt
  ctl : CtlSt
  vms : VmsSt
  lnk : LnkSt
  qp : SMap QpSt
  rings : SMap RingSt
  can : CanSt
  net : NetSt
  ser : SerSt
  ckp : CkpSt
  free : Nat
  deriving DecidableEq, Repr

/-- Faults: no event the spec gives this block stops it, so none of the meanings raises one; kept closed and named for the
interface (safe: the model never stops in a fault). -/
inductive Fault where
  | none
  deriving DecidableEq, Repr

/-- Refusals. -/
inductive Refusal where
  /-- A command whose meaning is not modelled yet, by its mnemonic (safe: the model stops where the block goes on). -/
  | notModelled (mnemonic : String)
  deriving DecidableEq, Repr

/-- The state right after PORST_n is released (R17, R319, R320, R411, R536): every register at its reset value (RegTable's regReset),
nothing in memory, the counter on CLK_AO, the pins safe, one good spare in each column (notes/assumptions: fuses), start-up at
its first step. -/
def State.reset : State where
  pending := []
  regs := []
  hold := []
  readback := []
  mem := []
  msgs := []
  out := []
  core := ⟨[], [], [], [], [], [], [], [], [], [], [], [], [], [], [], [], [], [], [], [], [], []⟩
  memory := ⟨[], [], [], [], [], [], true, 0, []⟩
  part := ⟨[], [], [], [], [], [], [], [], [], 0⟩
  tim := ⟨true, 0, [], 0, 0, [], none, false, 0, false, 0, [], [], []⟩
  evt := ⟨[], [], [], 0, 0⟩
  saf := ⟨false, true, false, [], true, false, false, false, 0, false, [], [], [], [], [], [], [], [], 0, false, [], [],
    [(0, [256, 257, 258, 259]), (1, [260, 261, 262, 263]), (2, [264, 265, 266, 267]), (3, [268, 269, 270, 271])],
    [], [], [], [], [], none, [], [], 0, true⟩
  sys := ⟨[], false, false, false, 1, false, false, 0, 0, none, 0, false, 0, [], [], [], none, false, [], [], 0, 0, 0, false, []⟩
  pwr := ⟨[], [], [], [], 0, 0, 1, 0, 0, none, 0, []⟩
  queues := []
  vis := ⟨[], [], [], []⟩
  sol := ⟨none, [], 0⟩
  ctl := ⟨[], [], [], [], [], [], [], [], []⟩
  vms := ⟨[], 0, none, []⟩
  lnk := ⟨0, 0, false, false, [], false, false, [], [], [], [], [], [], [], 0⟩
  qp := []
  rings := []
  can := ⟨[], [], [], [], 0, [], [], [], [], []⟩
  net := ⟨[], [], [], [], [], [], [], [], [], [], [], [], [], [], [], [], [], [], [], []⟩
  ser := ⟨[], []⟩
  ckp := ⟨[], [], [], [], [], [], [], 0, [], [], [], []⟩
  free := 0

end Sys2Proof.Machine
end

