-- ==== Sys2Proof/Machine/Ops.lean ====
section
/-! DEFINITION. The named operations over the register file, device memory and its code, the mesh, partition faults,
the safe state, events and notifications: what the meanings of the commands are made of. -/

namespace Sys2Proof.Machine

/-! ### Registers (R15 to R20) -/

/-- One word of register space as it is stored. -/
def State.word (s : State) (off : Nat) : Nat := (mget regReset s.regs off).toNat

/-- Memory is in its canonical form: addresses strictly rising, no entry equal to what an unlisted address reads as. -/
def Memory.wf (m : List Host.Cell) : Bool := mwf (fun _ => (0 : Byte)) m

/-- Store one word of register space. -/
def State.setWord (s : State) (off v : Nat) : State :=
  { s with regs := mset regReset s.regs off (BitVec.ofNat 32 v) }

/-- Read a named field. -/
def State.rd (s : State) (f : Fld) : Nat :=
  if f.wide then bits (s.word f.off ||| s.word (f.off + 4) <<< 32) f.hi f.lo
  else bits (s.word f.off) f.hi f.lo

/-- Write a named field, the other bits of its register kept. -/
def State.wr (s : State) (f : Fld) (v : Nat) : State :=
  if f.wide then
    let w := setBits (s.word f.off ||| s.word (f.off + 4) <<< 32) f.hi f.lo v
    (s.setWord f.off w).setWord (f.off + 4) (w >>> 32)
  else s.setWord f.off (setBits (s.word f.off) f.hi f.lo v)

/-- A named bit is set. -/
def State.on (s : State) (f : Fld) : Bool := s.rd f != 0

/-- Add to a counter field that stops at its largest value. -/
def State.bumpBy (s : State) (f : Fld) (n : Nat) : State :=
  s.wr f (min (s.rd f + n) (2 ^ (f.hi + 1 - f.lo) - 1))

/-- Count one event in a counter field that stops at its largest value. -/
def State.bump (s : State) (f : Fld) : State := s.bumpBy f 1

/-- Count in a counter field that wraps. -/
def State.bumpWrap (s : State) (f : Fld) (n : Nat) : State :=
  s.wr f ((s.rd f + n) % 2 ^ (f.hi + 1 - f.lo))

/-- A free value: the number of values taken so far, and the state with one more taken. -/
def State.draw (s : State) : Nat × State := (s.free, { s with free := s.free + 1 })

/-! ### Changing one block's part of the state -/

def State.mCore (s : State) (f : CoreSt → CoreSt) : State := { s with core := f s.core }
def State.mMem (s : State) (f : MemSt → MemSt) : State := { s with memory := f s.memory }
def State.mPart (s : State) (f : PartSt → PartSt) : State := { s with part := f s.part }
def State.mTim (s : State) (f : TimSt → TimSt) : State := { s with tim := f s.tim }
def State.mEvt (s : State) (f : EvtSt → EvtSt) : State := { s with evt := f s.evt }
def State.mSaf (s : State) (f : SafSt → SafSt) : State := { s with saf := f s.saf }
def State.mSys (s : State) (f : SysSt → SysSt) : State := { s with sys := f s.sys }
def State.mPwr (s : State) (f : PwrSt → PwrSt) : State := { s with pwr := f s.pwr }

/-! ### Identity (R5, R7, R83) -/

/-- Logical cores of the part (R5). -/
def State.nCores (s : State) : Nat := if s.rd SYS_ID_PART = 0x9224 then 224 else 256

/-- The device's own chip number on the ring. -/
def State.ownChip (s : State) : Nat := s.rd LNK_CFG_CHIP

/-- The raw time counter (R319). -/
def State.now (s : State) : Nat := s.rd TIM_COUNT_VALUE

/-- The TICK edge at or after a count (R321). -/
def tickAt (n : Nat) : Nat := (n + 7) / 8 * 8 % 2 ^ 64

/-- The stamp of an event raised now: the first TICK edge not before the count (R334, R338). -/
def State.stamp (s : State) : Nat := if s.tim.ao then s.now else tickAt s.now

/-! ### Ownership (R344) -/

/-- The partition an enabled logical core belongs to. -/
def State.coreOwner (s : State) (c : Nat) : Option Nat :=
  if bit (s.rd (PART_CORE_EN_EN (c / 32))) (c % 32) then
    some (bits (s.rd (PART_CORE_OWN_OWN (c / 8))) (4 * (c % 8) + 3) (4 * (c % 8)))
  else none

/-- The partition a Tun slice group belongs to. -/
def State.tunOwner (s : State) (g : Nat) : Option Nat :=
  if bit (s.rd PART_TUN_EN_EN) g then
    some (bits (s.rd (PART_TUN_OWN_OWN (g / 8))) (4 * (g % 8) + 3) (4 * (g % 8)))
  else none

/-- The cores of a partition, ascending. -/
def State.coresOf (s : State) (p : Nat) : List Nat :=
  (List.range 256).filter fun c => s.coreOwner c == some p

/-- The Tun slice groups of a partition, ascending. -/
def State.groupsOf (s : State) (p : Nat) : List Nat :=
  (List.range 16).filter fun g => s.tunOwner g == some p

/-- A partition's class: 0 S, 1 G, 2 C, 3 H (R350). -/
def State.classOf (s : State) (p : Nat) : Nat := s.rd (PART_CFG_CLASS p)

/-- Partition states (R356). -/
def stUnused : Nat := 0
def stEmpty : Nat := 1
def stLoading : Nat := 2
def stRunning : Nat := 3
def stComplete : Nat := 4
def stFault : Nat := 5
def stResetting : Nat := 6

/-! ### Plan fault kinds (R93) -/
def kWord : Nat := 1
def kArith : Nat := 2
def kBind : Nat := 3
def kXfer : Nat := 4
def kDecode : Nat := 5
def kPoison : Nat := 6
def kWatchdog : Nat := 7
def kCredit : Nat := 8
def kIsolation : Nat := 9
def kLink : Nat := 10
def kHw : Nat := 11
def kDesc : Nat := 12

/-! ### The device memory map (R42, R43) and LPDDR windows (R158) -/

/-- Where a device address lies. -/
inductive Region where
  | core (c off : Nat)
  | buffer (c off : Nat)
  | tun (slice : Nat)
  | reg (off : Nat)
  | lpddr (win ch addr : Nat)
  | host
  | none
  deriving DecidableEq, Repr

/-- Installed capacity per LPDDR channel, in units of 64 MiB (R157). -/
def State.lpDensity (s : State) : Nat := 8 * 2 ^ s.rd MEM_LP_CFG_DENSITY

/-- The set bits of a mask, ascending. -/
def setBitsOf (n m : Nat) : List Nat := (List.range n).filter fun i => bit m i

/-- Does an enabled LPDDR window cover an offset above 0x10_0000_0000. -/
def State.lpCovers (s : State) (w o : Nat) : Bool :=
  s.on (MEM_LPW_CFG_EN w) &&
  decide (s.rd (MEM_LPW_CFG_BASE w) * 2 ^ 30 ≤ o ∧
    o < (s.rd (MEM_LPW_CFG_BASE w) + s.rd (MEM_LPW_CFG_SIZE w) + 1) * 2 ^ 30)

/-- Channel and address within the channel of an offset in window w (R158). -/
def State.lpMap (s : State) (w o : Nat) : Nat × Nat :=
  let chs := setBitsOf 16 (s.rd (MEM_LPW_MAP_CHMASK w))
  let g := 8 + 2 * s.rd (MEM_LPW_CFG_GRAN w)
  let n := max chs.length 1
  let o' := o - s.rd (MEM_LPW_CFG_BASE w) * 2 ^ 30
  let u := o' >>> g
  (chs.getD (u % n) 0, s.rd (MEM_LPW_MAP_CHBASE w) * 2 ^ 26 + ((u / n) <<< g) + o' % 2 ^ g)

/-- Decode a device address (R42, R43, R158). -/
def State.decode (s : State) (a : Nat) : Region :=
  if a < 0x20000000 then
    let c := a >>> 21
    let o := a % 2 ^ 21
    if s.nCores ≤ c then .none
    else if o < 0x180000 then .core c o
    else if o < 0x1C8000 then .buffer c o
    else .none
  else if 0x100000000 ≤ a ∧ a < 0x120000000 then .tun ((a - 0x100000000) >>> 21)
  else if 0x200000000 ≤ a ∧ a < 0x204000000 then .reg (a - 0x200000000)
  else if 0x1000000000 ≤ a ∧ a < 0x2000000000 then
    let o := a - 0x1000000000
    if 16 * s.lpDensity * 2 ^ 26 ≤ o then .none
    else match (List.range 16).find? fun w => s.lpCovers w o with
      | some w => .lpddr w (s.lpMap w o).1 (s.lpMap w o).2
      | none => .none
  else if 0x8000000000 ≤ a ∧ a < 0x10000000000 then .host
  else .none

/-- The key of an LPDDR channel address in device memory: channels stand above the 48-bit addresses. -/
def lpKey (ch a : Nat) : Nat := 2 ^ 48 + ch * 2 ^ 36 + a

/-- The key of core memory. -/
def coreKey (c off : Nat) : Nat := c * 0x200000 + off

/-- The memory key of a device address, where it is memory. -/
def State.memKey (s : State) (a : Nat) : Option Nat :=
  match s.decode a with
  | .core .. => some a
  | .tun _ => some a
  | .lpddr _ ch x => some (lpKey ch x)
  | _ => none

/-- The memory instance of a key: core memory 0 to 255, Tun slice 256 + s, LPDDR channel 512 + ch. -/
def instOf (k : Nat) : Nat :=
  if 2 ^ 48 ≤ k then 512 + (k - 2 ^ 48) / 2 ^ 36
  else if 0x100000000 ≤ k then 256 + (k - 0x100000000) / 0x200000
  else k / 0x200000

/-! ### The (72,64) code (R163, R164) -/

/-- The 64 columns H(i). -/
def hcols : List Nat :=
  [0x07, 0x0B, 0x0D, 0x0E, 0x13, 0x15, 0x16, 0x19, 0x1A, 0x1C, 0x23, 0x25, 0x26, 0x29, 0x2A, 0x2C,
   0x31, 0x32, 0x34, 0x38, 0x43, 0x45, 0x46, 0x49, 0x4A, 0x4C, 0x51, 0x52, 0x54, 0x58, 0x61, 0x62,
   0x64, 0x68, 0x70, 0x83, 0x85, 0x86, 0x89, 0x8A, 0x8C, 0x91, 0x92, 0x94, 0x98, 0xA1, 0xA2, 0xA4,
   0xA8, 0xB0, 0xC1, 0xC2, 0xC4, 0xC8, 0xD0, 0xE0, 0x1F, 0x2F, 0x37, 0x3B, 0x3D, 0x3E, 0x4F, 0x57]

/-- H(i). -/
def hcol (i : Nat) : Nat := hcols.getD i 0

/-- The check byte of a data word. -/
def checkByte (d : Nat) : Nat :=
  (List.range 64).foldl (fun a i => if bit d i then a ^^^ hcol i else a) 0

/-- Syndrome classes of R164. -/
inductive WordClass where
  | clean
  | dataBit (i : Nat)
  | checkBit
  | poison
  | bad
  deriving DecidableEq, Repr

/-- Classify a syndrome. -/
def classify (syn : Nat) : WordClass :=
  if syn = 0 then .clean
  else if syn = 0x7F then .poison
  else match hcols.findIdx? (· = syn) with
    | some i => .dataBit i
    | none => if (List.range 8).any (fun j => syn = 2 ^ j) then .checkBit else .bad

/-- The stored bits of the word at an 8-byte-aligned key. -/
def State.rawWord (s : State) (k : Nat) : Nat :=
  (List.range 8).foldl (fun a i => a + (mget (fun _ => (0 : Byte)) s.mem (k + i)).toNat * 2 ^ (8 * i)) 0

/-- Store the bits of the word at an 8-byte-aligned key. -/
def State.setRaw (s : State) (k v : Nat) : State :=
  let m' := (List.range 8).foldl
    (fun m i => mset (fun _ => (0 : Byte)) m (k + i) (BitVec.ofNat 8 (v / 2 ^ (8 * i)))) s.mem
  { s with mem := m' }

/-- The syndrome stored with the word at a key. -/
def State.synd (s : State) (k : Nat) : Nat := (mget (fun _ => (0 : Byte)) s.memory.ecc k).toNat

/-- Store a syndrome. -/
def State.setSynd (s : State) (k v : Nat) : State :=
  { s with memory := { s.memory with ecc := mset (fun _ => (0 : Byte)) s.memory.ecc k (BitVec.ofNat 8 v) } }

/-- What a read of the word returns (R164). -/
def State.wordAt (s : State) (k : Nat) : Nat :=
  match classify (s.synd k) with
  | .dataBit i => s.rawWord k ^^^ 2 ^ i
  | _ => s.rawWord k

/-- The word is correctable. -/
def State.correctable (s : State) (k : Nat) : Bool :=
  match classify (s.synd k) with
  | .dataBit _ => true
  | .checkBit => true
  | _ => false

/-- The words of the granule at a 64-byte-aligned key. -/
def granuleWords (g : Nat) : List Nat := (List.range 8).map fun i => g + 8 * i

/-- The granule holds a word in poison form (R166). -/
def State.carried (s : State) (g : Nat) : Bool :=
  (granuleWords g).any fun k => classify (s.synd k) = .poison

/-- The granule holds an uncorrectable word and none in poison form (R166). -/
def State.newBad (s : State) (g : Nat) : Bool :=
  !s.carried g && (granuleWords g).any fun k => classify (s.synd k) = .bad

/-- The granule is poisoned (R166). -/
def State.poisoned (s : State) (g : Nat) : Bool := s.carried g || s.newBad g

/-! ### Counts of a memory instance (R165, R166, R179) -/

/-- The count, status and threshold fields of an instance. -/
def instCE (i : Nat) : Fld := if i < 256 then CORE_ECC_CE_COUNT i else if i < 512 then MEM_TUN_CE_COUNT (i - 256) else MEM_LP_CE_COUNT (i - 512)
def instUE (i : Nat) : Fld := if i < 256 then CORE_ECC_UE_COUNT i else if i < 512 then MEM_TUN_UE_COUNT (i - 256) else MEM_LP_UE_COUNT (i - 512)
def instPS (i : Nat) : Fld := if i < 256 then CORE_ECC_PS_COUNT i else if i < 512 then MEM_TUN_PS_COUNT (i - 256) else MEM_LP_PS_COUNT (i - 512)
/-- Bit n of an instance's status: 0 CE, 1 UE, 2 POISON_SEEN, 3 HARD_CE, 4 THR. -/
def instST (i n : Nat) : Fld :=
  if i < 256 then { CORE_ECC_STATUS_CE i with hi := n, lo := n }
  else if i < 512 then { MEM_TUN_ST_CE (i - 256) with hi := n, lo := n }
  else { MEM_LP_ST_CE (i - 512) with hi := n, lo := n }
def instThr (i : Nat) : Fld := if i < 256 then MEM_CE_THR_CORE else if i < 512 then MEM_CE_THR_TUN else MEM_CE_THR_LP

/-- Put the entries of the AO buffer (R520). -/
def State.setLogQ (s : State) (l : List LogEnt) : State := (s.mSys fun y => { y with logQ := l }).wr PWR_SAG_PEND l.length

/-- Queue a log entry for boot flash (R556, R557): one that finds the AO buffer full is discarded (R520). -/
def State.log (s : State) (type : Nat) (data : List Nat) : State :=
  if 32 ≤ s.sys.logQ.length then s.bump PWR_SAG_LOST
  else s.setLogQ (s.sys.logQ ++ [⟨type, s.ownChip, s.now, data⟩])

/-- Count a corrected word (R165, R179, R408). -/
def State.countCE (s : State) (i : Nat) : State :=
  let s1 := (s.bump (instCE i)).wr (instST i 0) 1
  if s.rd (instCE i) + 1 = s.rd (instThr i) ∧ s.rd (instThr i) ≠ 0 then
    (((s1.wr (instST i 4) 1).wr MEM_EVENT_CE_THR 1).wr SAF_WARN_CE_THR 1).log Config.ceThrLogType [i]
  else s1

/-- The device address of a granule key, where it has one (R179). -/
def State.keyAddr (s : State) (k : Nat) : Option Nat :=
  if k < 2 ^ 48 then some k
  else
    let ch := (k - 2 ^ 48) / 2 ^ 36
    let a := (k - 2 ^ 48) % 2 ^ 36
    (List.range 16).findSome? fun w =>
      let m := s.rd (MEM_LPW_MAP_CHMASK w)
      let chs := setBitsOf 16 m
      let n := chs.length
      let g := 8 + 2 * s.rd (MEM_LPW_CFG_GRAN w)
      let b := s.rd (MEM_LPW_MAP_CHBASE w) * 2 ^ 26
      let sz := (s.rd (MEM_LPW_CFG_SIZE w) + 1) * 2 ^ 30
      match chs.findIdx? (· = ch) with
      | some r =>
        if s.on (MEM_LPW_CFG_EN w) ∧ b ≤ a ∧ a < b + sz / n then
          some (0x1000000000 + s.rd (MEM_LPW_CFG_BASE w) * 2 ^ 30 +
            ((((a - b) >>> g) * n + r) <<< g) + (a - b) % 2 ^ g)
        else none
      | none => none

/-- Record the first poisoned granule of a core memory (CORE_ECC_FIRST). -/
def State.eccFirst (s : State) (g : Nat) : State :=
  let i := instOf g
  if i < 256 ∧ ¬ s.on (CORE_ECC_FIRST_VALID i) then
    (s.wr (CORE_ECC_FIRST_VALID i) 1).wr (CORE_ECC_FIRST_OFFSET i) (g % 0x200000)
  else s

/-- Count a new uncorrectable error in the granule at a key (R166, R179, R408). -/
def State.countUE (s : State) (g : Nat) : State :=
  let i := instOf g
  let s1 := ((((s.bump (instUE i)).wr (instST i 1) 1).wr MEM_EVENT_UE 1).wr SAF_WARN_UE 1).eccFirst g
  if s1.on MEM_UE_FIRST_VALID then s1
  else match s.keyAddr g with
    | some a => (((s1.wr MEM_UE_FIRST_VALID 1).wr MEM_UE_FIRST_CH 0).wr MEM_UE_FIRST_CHAN 0).wr MEM_UE_FIRST_ADDR a
    | none => (((s1.wr MEM_UE_FIRST_VALID 1).wr MEM_UE_FIRST_CH 1).wr MEM_UE_FIRST_CHAN (i - 512)).wr
        MEM_UE_FIRST_ADDR ((g - 2 ^ 48) % 2 ^ 36)

/-- Count carried poison in the granule at a key (R166). -/
def State.countPS (s : State) (g : Nat) : State :=
  let i := instOf g
  ((s.bump (instPS i)).wr (instST i 2) 1).eccFirst g

/-- Judge a granule at one access (R166). -/
def State.judge (s : State) (g : Nat) : State :=
  if s.carried g then s.countPS g else if s.newBad g then s.countUE g else s

/-! ### One access of a memory (R127, R165 to R167, R184) -/

/-- Each element once, in order of first appearance. -/
def dedup (l : List Nat) : List Nat :=
  (l.foldl (fun a x => if a.contains x then a else x :: a) []).reverse

/-- The counts of one read access that touches the words of these byte keys. -/
def State.countRead (s : State) (keys : List Nat) : State :=
  let words := dedup (keys.map fun k => k / 8 * 8)
  let s1 := words.foldl (fun a w => if s.correctable w then a.countCE (instOf w) else a) s
  (dedup (words.map fun w => w / 64 * 64)).foldl (fun a g => a.judge g) s1

/-- The byte a read of a key returns, with its granule's mark. -/
def State.byteAt (s : State) (k : Nat) : MByte :=
  (BitVec.ofNat 8 (s.wordAt (k / 8 * 8) / 2 ^ (8 * (k % 8))), s.poisoned (k / 64 * 64))

/-- One read access of these byte keys: the bytes, and the counts. -/
def State.readAccess (s : State) (keys : List Nat) : List MByte × State :=
  (keys.map s.byteAt, s.countRead keys)

/-- Split a list of keys into runs that lie in one aligned block of the port's width: each run is one access. -/
def accessRuns (width : Nat) : List Nat → List (List Nat)
  | [] => []
  | k :: t =>
    match accessRuns width t with
    | (j :: r) :: rest => if k / width = j / width then (k :: j :: r) :: rest else [k] :: (j :: r) :: rest
    | rest => [k] :: rest

/-- Read byte keys through a port of a width: the bytes, and the counts of every access. -/
def State.readKeys (s : State) (width : Nat) (keys : List Nat) : List MByte × State :=
  (keys.map s.byteAt, (accessRuns width keys).foldl (fun a r => a.countRead r) s)

/-- A half-byte to store: half-byte key, value, mark. -/
abbrev NibW := Nat × Nat × Bool

/-- Store half-bytes into one 64-bit word, as one write of that word (R127, R167). -/
def State.writeWord (s : State) (w : Nat) (nibs : List NibW) : State :=
  let whole := decide ((dedup (nibs.map (·.1))).length = 16)
  let pois := nibs.any (·.2.2)
  let cls := classify (s.synd w)
  let old := s.wordAt w
  let new := nibs.foldl (fun a n => setBits a (4 * (n.1 - 2 * w) + 3) (4 * (n.1 - 2 * w)) n.2.1) old
  let s1 := if whole then s
    else if s.correctable w then s.countCE (instOf w)
    else if cls = .bad ∨ cls = .poison then s.judge (w / 64 * 64) else s
  let bad := !whole && decide (cls = .bad ∨ cls = .poison)
  (s1.setRaw w new).setSynd w (if pois || bad then 0x7F else 0)

/-- The injection of R184 at a word just written. -/
def State.inject (s : State) (w : Nat) : State :=
  if s.on MEM_INJ_CTL_ARM ∧ s.memKey (s.rd MEM_INJ_ADDR_ADDR) = some w then
    let b := s.rd MEM_INJ_CTL_BIT
    let s1 := s.wr MEM_INJ_CTL_ARM 0
    let flip (t : State) (pos : Nat) : State :=
      if pos < 64 then (t.setRaw w (t.rawWord w ^^^ 2 ^ pos)).setSynd w (t.synd w ^^^ hcol pos)
      else t.setSynd w (t.synd w ^^^ 2 ^ (pos - 64))
    match s.rd MEM_INJ_CTL_MODE with
    | 0 => flip s1 b
    | 1 => flip s1 (64 + b)
    | 2 => flip (flip s1 b) (b + 1)
    | _ => s1.setSynd w 0x7F
  else s

/-- Store half-bytes, word by word. -/
def State.writeNibs (s : State) (nibs : List NibW) : State :=
  (dedup (nibs.map fun n => n.1 / 16 * 8)).foldl
    (fun a w => (a.writeWord w (nibs.filter fun n => n.1 / 16 * 8 = w)).inject w) s

/-- Store bytes at byte keys. -/
def State.writeKeys (s : State) (kb : List (Nat × MByte)) : State :=
  s.writeNibs (kb.flatMap fun p =>
    [(2 * p.1, p.2.1.toNat % 16, p.2.2), (2 * p.1 + 1, p.2.1.toNat / 16, p.2.2)])

/-- Store consecutive bytes. -/
def State.writeRun (s : State) (k : Nat) (data : List MByte) : State :=
  s.writeKeys (data.zipIdx.map fun p => (k + p.2, p.1))

/-- Read consecutive bytes, 128 B to an access. -/
def State.readRun (s : State) (k len : Nat) : List MByte × State :=
  s.readKeys 128 ((List.range len).map (k + ·))

/-- The number little-endian bytes spell (R11). -/
def leNum (l : List MByte) : Nat := l.foldr (fun b a => b.1.toNat + 256 * a) 0

/-- Some byte carries a mark. -/
def anyPois (l : List MByte) : Bool := l.any (·.2)

/-- The little-endian bytes of a number, clean. -/
def leBytes (n v : Nat) : List MByte :=
  (List.range n).map fun i => (BitVec.ofNat 8 (v / 2 ^ (8 * i)), false)

/-- Zero every word of a range of keys with valid check bits (R180). -/
def State.fillRange (s : State) (lo hi : Nat) : State :=
  { s with mem := mdrop s.mem (fun k => decide (lo ≤ k ∧ k < hi)),
           memory := { s.memory with ecc := mdrop s.memory.ecc (fun k => decide (lo ≤ k ∧ k < hi)) } }

/-! ### Endpoints and routes -/

/-- Endpoints above the requesters of R134: Tun slice, LPDDR controller, host memory, another chip. -/
def epSlice (i : Nat) : Nat := 512 + i
def epLp (k : Nat) : Nat := 800 + k
def epHost : Nat := 832
def epChip (k : Nat) : Nat := 840 + k

/-- Where an endpoint attaches (R128, R134): its stop, and the direction of the edge port where it has one
(0 east, 1 west, 2 north, 3 south). -/
def stopOf (e : Nat) : (Nat × Nat) × Option Nat :=
  if e < 256 then ((e % 16, e / 16), none)
  else if 512 ≤ e ∧ e < 768 then (((e - 512) % 16, (e - 512) / 16), none)
  else if 2000 ≤ e then (if e < 6096 then ((3, 15), some 3) else ((12, 15), some 3))
  else match e with
  | 256 => ((0, 5), some 1) | 257 => ((0, 10), some 1) | 258 => ((0, 7), some 1) | 259 => ((15, 7), some 0)
  | 260 => ((15, 8), some 0) | 261 => ((15, 12), some 0) | 262 => ((15, 3), some 0) | 263 => ((15, 14), some 0)
  | 264 => ((7, 0), some 2) | 265 => ((8, 0), some 2) | 266 => ((3, 15), some 3) | 267 => ((12, 15), some 3)
  | 268 => ((8, 15), some 3) | 800 => ((0, 2), some 1) | 801 => ((15, 2), some 0) | 802 => ((0, 13), some 1)
  | 803 => ((15, 13), some 0)
  | _ => ((7, 0), some 2)

/-- The endpoint of a requester of another chip, by the port its request came in by. -/
def epRemote (port chip source : Nat) : Nat := 2000 + port * 4096 + chip * 512 + source

/-- The links of a route: first along x, then along y, then the edge port (R130). -/
def routeOf (src dst : Nat) : List (Nat × Nat × Nat) :=
  let a := (stopOf src).1
  let b := (stopOf dst).1
  let xs := if a.1 ≤ b.1 then (List.range (b.1 - a.1)).map fun i => (a.1 + i, a.2, 0)
    else (List.range (a.1 - b.1)).map fun i => (a.1 - i, a.2, 1)
  let ys := if a.2 ≤ b.2 then (List.range (b.2 - a.2)).map fun i => (b.1, a.2 + i, 3)
    else (List.range (a.2 - b.2)).map fun i => (b.1, a.2 - i, 2)
  xs ++ ys ++ (match (stopOf dst).2 with
    | some d => [(b.1, b.2, d)]
    | none => [])

/-- A message's route crosses a failed link (R584). -/
def State.crosses (s : State) (m : Msg) : Bool :=
  !s.memory.failed.isEmpty && (routeOf m.src m.dst).any fun l => s.memory.failed.contains l

/-- The first message on its way that satisfies a test and whose route is whole, and the state without it (R133, R584). -/
def State.take (s : State) (p : Msg → Bool) : Option (Msg × State) :=
  match s.msgs.findIdx? fun m => p m && !s.crosses m with
  | some i => match s.msgs[i]? with
    | some m => some (m, { s with msgs := s.msgs.eraseIdx i })
    | none => none
  | none => none

/-! ### The ring's transmit side (R449 to R453) -/

/-- Something leaves the device. -/
def State.emit (s : State) (e : Ext) : State := { s with out := s.out ++ [e] }
def State.mLnk (s : State) (f : LnkSt → LnkSt) : State := { s with lnk := f s.lnk }

/-- Members of the map passed from chip a to chip b, b included, in a direction (R453). -/
def State.hops (s : State) (a b : Nat) (up : Bool) : Nat :=
  let n := if up then (b + 8 - a) % 8 else (a + 8 - b) % 8
  ((List.range n).filter fun i => bit (s.rd LNK_MAP_MEMBERS) (if up then (a + i + 1) % 8 else (a + 7 - i) % 8)).length

/-- The port towards a chip: 0 TLA, 1 TLB; ties go to TLB (R453). -/
def State.portTo (s : State) (chip : Nat) : Nat :=
  if s.hops s.ownChip chip true ≤ s.hops s.ownChip chip false then 1 else 0

/-- A frame enters a port: it takes the next SEQ and its place in the retry buffer, and leaves, or is held while the ring
retrains (R451, R454). -/
def State.ringTx (s : State) (port : Nat) (f : RingFrame) : State :=
  let q := mget (fun _ => 0) s.lnk.txSeq port
  let g := { f with seq := q }
  let s1 := s.mLnk fun y =>
    { y with txSeq := mset (fun _ => 0) y.txSeq port ((q + 1) % 2 ^ 16),
             retry := mset (fun _ => []) y.retry port (mget (fun _ => []) y.retry port ++ [(g, 1)]) }
  if s1.on LNK_STATE_RETRAIN then
    s1.mLnk fun y => { y with held := mset (fun _ => []) y.held port (mget (fun _ => []) y.held port ++ [g]) }
  else s1.emit (.ring port g)

/-- The OP, address, LEN, payload and notification of a message on the ring (R449). -/
def ringBody : MsgBody → Nat × Nat × Nat × List MByte × Option (Nat × Nat)
  | .memRead a n _ => (0, a, n, [], none)
  | .memWrite a d none => (1, a, d.length, d, none)
  | .memWrite a d (some n) => (2, a, d.length, d, some n)
  | .atomic a swap w64 x y p _ =>
    let n := if w64 then 8 else 4
    let v (z : Nat) : List MByte := (List.range n).map fun i => (BitVec.ofNat 8 (z / 2 ^ (8 * i)), p)
    if swap then (4, a, 2 * n, v x ++ v y, none) else (3, a, n, v x, none)
  | .readData _ d => (5, 0, d.length, d, none)
  | .atomRes _ w64 old p =>
    let n := if w64 then 8 else 4
    (7, 0, n, (List.range n).map (fun i => (BitVec.ofNat 8 (old / 2 ^ (8 * i)), p)), none)
  | .error k a => (9, a, k, [], none)
  | _ => (6, 0, 0, [], none)

/-- The frame of a message; a response carries the SOURCE and TAG of its request. -/
def State.frameOf (s : State) (m : Msg) (vc dst source : Nat) : RingFrame :=
  let b := ringBody m.body
  ⟨vc, dst, s.ownChip, s.classOf m.part == 0, m.part, source, m.tag % 32 + 32 * b2n m.epoch, b.1, b.2.1, b.2.2.1, b.2.2.2.1, b.2.2.2.2, 0⟩

/-- A request for another chip: refused with kind LINK outside the map; otherwise it leaves by the shorter direction, after the
transactions of its source to that chip that went the other way (R453). -/
def State.ringReq (s : State) (m : Msg) : State :=
  let port := s.portTo m.chip
  let a := (ringBody m.body).2.1
  if s.rd LNK_STATE_STATE ≠ 3 ∨ ¬ bit (s.rd LNK_MAP_MEMBERS) m.chip then
    { s with msgs := s.msgs ++ [⟨.rsp, m.dst, m.src, m.part, m.tag, m.epoch, m.chip, .error 10 a⟩] }
  else if s.crosses { m with dst := 266 + port } then { s with msgs := s.msgs ++ [{ m with dst := 266 + port }] }
  else if s.lnk.pend.any (fun x => x.msg.src == m.src && x.msg.chip == m.chip && x.port != port) then
    s.mLnk fun y => { y with wait := y.wait ++ [m] }
  else (s.mLnk fun y => { y with pend := y.pend ++ [⟨m, port, s.now⟩] }).ringTx port (s.frameOf m 0 m.chip m.src)

/-- Put a message on the mesh, or, for another chip, on the ring. -/
def State.send (s : State) (m : Msg) : State :=
  if 2000 ≤ m.dst then
    let chip := (m.dst - 2000) / 512 % 8
    if bit (s.rd LNK_MAP_MEMBERS) chip then s.ringTx (s.portTo chip) (s.frameOf m 1 chip ((m.dst - 2000) % 512)) else s
  else if 840 ≤ m.dst ∧ m.dst < 848 then s.ringReq m
  else { s with msgs := s.msgs ++ [m] }

/-! ### Messages, notifications (R131, R139) -/

/-- Send several messages in order. -/
def State.sendAll (s : State) (l : List Msg) : State := { s with msgs := s.msgs ++ l }

/-- Notify counter cnt of a core of units (R139). -/
def State.notify (s : State) (src part core cnt units : Nat) : State :=
  s.send ⟨.rsp, src, core, part, 0, false, s.ownChip, .notif cnt units⟩

/-! ### Control channels' trips and forced PWM pairs (R305, R307) -/

def State.mCtl (s : State) (f : CtlSt → CtlSt) : State := { s with ctl := f s.ctl }

/-- The law's states all zero. -/
def lawZero : LawSt := ⟨List.replicate 4 ⟨0, 0, 0, 0⟩, 0, 0, 0, 0, 0, 0, 0, 0, 0, 0, 0⟩
def chanReset : Nat → ChanSt := fun _ =>
  ⟨[], none, lawZero, none, 0, none, 0, none, none, false, false, none, 0, false, 0, 0, [], 0, 0, 0⟩
def State.chan (s : State) (h : Nat) : ChanSt := mget chanReset s.ctl.chan h
def State.setChan (s : State) (h : Nat) (v : ChanSt) : State := s.mCtl fun y => { y with chan := mset chanReset y.chan h v }
def pwmReset : Nat → PwmSt := fun _ => ⟨0, false, false, false⟩
def State.pwm (s : State) (p : Nat) : PwmSt := mget pwmReset s.ctl.pwm p
def State.setPwm (s : State) (p : Nat) (v : PwmSt) : State := s.mCtl fun y => { y with pwm := mset pwmReset y.pwm p v }
def capReset : Nat → CapSt := fun _ => ⟨0, 0, none⟩
def State.cap (s : State) (c : Nat) : CapSt := mget capReset s.ctl.cap c
def State.setCap (s : State) (c : Nat) (v : CapSt) : State := s.mCtl fun y => { y with cap := mset capReset y.cap c v }

/-- Channel states (R306). -/
def chIdle : Nat := 1
def chRun : Nat := 2
def chTripped : Nat := 3

/-- Bits of the trip causes (R307). -/
def tcPlaus : Nat := 2 ^ 0
def tcPoison : Nat := 2 ^ 1
def tcTraj : Nat := 2 ^ 2
def tcOverrun : Nat := 2 ^ 3
def tcSdmcmp : Nat := 2 ^ 4
def tcDup : Nat := 2 ^ 5
def tcFbf : Nat := 2 ^ 6
def tcPart : Nat := 2 ^ 7
def tcDevsafe : Nat := 2 ^ 8
def tcTripin : Nat := 2 ^ 9

/-- The pair a channel drives (R289). -/
def State.pairOf (s : State) (h : Nat) : Option Nat :=
  if s.rd (CTL_CH_SRC_OMAP h) = 0 then none else some (s.rd (CTL_CH_SRC_PAIR h))

/-- The trigger of the capture units that wait for it: kind 1 START, 2 trip of channel k, 3 compare unit k (R317). -/
def State.capFire (s : State) (kind k : Nat) : State :=
  (List.range 4).foldl (fun a c =>
    if a.on (CTL_CAP_CFG_GO c) && a.rd (CTL_CAP_CFG_TRIG c) == kind &&
        (if kind = 3 then a.rd (CTL_CAP_CFG_CMPSRC c) else a.rd (CTL_CAP_CFG_CH c)) == k && (a.cap c).left.isNone then
      a.setCap c { a.cap c with left := some (a.rd (CTL_CAP_NSAMP_NSAMP c) - a.rd (CTL_CAP_DEC_PRE c)) }
    else a) s

/-- The trip action of a set of causes (R307). -/
def State.tripAction (s : State) (h mask : Nat) : Nat :=
  if bit mask 5 || bit mask 8 || bit mask 9 then 2 else s.rd (CTL_CH_CFG_TRIPACT h)

/-- Trip causes arise at a channel (R307): a running channel trips, a tripped one adds them. -/
def State.tripCh (s : State) (h mask : Nat) : State :=
  let st := s.rd (CTL_CH_STATUS_STATE h)
  let act := s.tripAction h mask
  let force (a : State) (n : Nat) : State :=
    match a.pairOf h with
    | some p => if n = 2 then a.setPwm p { a.pwm p with safeCh := true } else a
    | none => a
  if st = chTripped then
    let n := max act (s.chan h).action
    force ((s.wr (CTL_CH_STATUS_CAUSE h) (s.rd (CTL_CH_STATUS_CAUSE h) ||| mask)).setChan h { s.chan h with action := n }) n
  else if st = chRun then
    let s1 := ((s.wr (CTL_CH_STATUS_STATE h) chTripped).wr (CTL_CH_STATUS_CAUSE h) mask).wr CTL_EVENT_TRIP 1
    let s2 := force (s1.setChan h { s.chan h with req := none, run := none, action := act }) act
    let s3 := if s2.on (CTL_CH_NOTE_EN h) then
        s2.notify 260 (s2.rd (CTL_CH_CFG_OWNER h)) (s2.rd (CTL_CH_NOTE_CORE h)) (s2.rd (CTL_CH_NOTE_CNT h)) 1 else s2
    s3.capFire 2 h
  else s

/-- Trip causes at every channel that satisfies a test. -/
def State.tripWhere (s : State) (mask : Nat) (p : State → Nat → Bool) : State :=
  (List.range 64).foldl (fun a h => if p a h then a.tripCh h mask else a) s

/-- The mask of the TRIP_IN_n pins now low. -/
def State.tripPins (s : State) : Nat := b2n (mget (fun _ => false) s.saf.tripLow 0) + 2 * b2n (mget (fun _ => false) s.saf.tripLow 1)

/-- A pair is forced safe (R305). -/
def State.pairForced (s : State) (p : Nat) : Bool :=
  (s.pwm p).safeCh || (s.saf.devsafe && s.on (CTL_PWM_CFG_OE p)) || s.on (CTL_PWM_STAT_TRIPIN_LATCH p) ||
    (s.rd (CTL_PWM_CFG_TRIPIN p) &&& s.tripPins) != 0

/-! ### The safe state (R407 to R412) -/

/-- The causes that always enter the safe state (R407). -/
def alwaysCause (b : Nat) : Bool := [0, 3, 10, 12, 13, 15].contains b

/-- The device address of the validity word of record f of stream t (R412). -/
def State.validityAddr (s : State) (t f : Nat) : Nat :=
  s.rd (SAF_STR_BASE_ADDR t) + (f % (s.rd (SAF_STR_CFG_NREC t) + 1)) * s.rd (SAF_STR_CFG_STRIDE t) * 64 +
    s.rd (SAF_STR_CFG_VOFF t) * 4

/-- Clear every validity word of every enabled stream (R412): first the newest record of each, then the others. -/
def State.sweepAll (s : State) : State :=
  let clear (a : State) (t f : Nat) : State := a.writeRun (s.validityAddr t f) (leBytes 4 0)
  let ts := (List.range 32).filter fun t => s.on (SAF_STR_CFG_EN t)
  let s1 := ts.foldl (fun a t => match mget (fun _ => none) s.saf.newest t with
    | some f => clear a t f
    | none => a) s
  ts.foldl (fun a t => (List.range (s.rd (SAF_STR_CFG_NREC t) + 1)).reverse.foldl (fun b f => clear b t f) a) s1

/-- Write one event record into a partition's ring, or lose it (R340, R341). -/
def State.evtRecord (s : State) (p src rank flags data stamp : Nat) : State :=
  let size := 2 ^ s.rd (EVT_RING_CFG_LOG2SIZE p)
  let w := s.rd (EVT_RING_WIDX_COUNT p)
  if ¬ s.on (EVT_RING_CFG_EN p) then s.bump (EVT_RING_LOST_COUNT p)
  else
    let full (r : Nat) : Bool := decide ((w + 2 ^ 32 - r) % 2 ^ 32 ≥ size)
    let cached := mget (fun _ => 0) s.evt.read p
    let (r, s1) := if full cached then
        let (b, t) := s.readRun (s.rd (EVT_RING_RADDR_ADDR p)) 4
        (leNum b, { t with evt := { t.evt with read := mset (fun _ => 0) t.evt.read p (leNum b) } })
      else (cached, s)
    if full r then
      let s2 := (s1.bump (EVT_RING_LOST_COUNT p)).wr EVT_EVENT_LOST 1
      { s2 with evt := { s2.evt with lost := mset (fun _ => false) s2.evt.lost p true } }
    else
      let lostBit := b2n (mget (fun _ => false) s1.evt.lost p)
      let rec16 := leBytes 8 stamp ++ leBytes 2 src ++ leBytes 1 rank ++ leBytes 1 (flags + 2 * lostBit) ++ leBytes 4 data
      let s2 := (s1.writeRun (s.rd (EVT_RING_BASE_ADDR p) + (w % size) * 16) rec16).bumpWrap (EVT_RING_WIDX_COUNT p) 1
      let s3 := { s2 with evt := { s2.evt with lost := mset (fun _ => false) s2.evt.lost p false } }
      if s.on (EVT_RING_CFG_NEN p) then
        let m : Msg := ⟨.rsp, 268, s.rd (EVT_RING_CFG_CORE p), p, 0, false, s.ownChip,
          .notif (s.rd (EVT_RING_CFG_CNT p)) 1⟩
        { s3 with msgs := s3.msgs ++ [m] }
      else s3

/-- The rank of an event source (R338). -/
def rankOf (src : Nat) : Nat :=
  if src < 3 then 1 else if src < 16 then 2 else if src < 17 then 3 else if src < 64 then 4
  else if src < 160 then 5 else if src < 208 then 6 else 7

/-- Sources that are edges of pins (R338); the others are internal or unused. -/
def pinSource (src : Nat) : Bool :=
  src ≤ 1 || src == 24 || decide (32 ≤ src ∧ src < 80) || decide (160 ≤ src ∧ src < 208)

/-- The source's EDGE setting takes an edge (EVT_SRC_CFG). -/
def State.edgeTaken (s : State) (src flags : Nat) : Bool :=
  match s.rd (EVT_SRC_CFG_EDGE src) with
  | 0 => !bit flags 2
  | 1 => bit flags 2
  | _ => true

/-- Raise an event of a source (R338 to R341); flags bit 0 the level, bit 2 a falling edge. -/
def State.raise (s : State) (src flags data stamp : Nat) : State :=
  if ¬ s.on (EVT_SRC_CFG_EN src) ∨ (pinSource src ∧ ¬ s.edgeTaken src flags) then s
  else
    let n := if s.evt.tick = stamp then s.evt.inTick else 0
    if 512 ≤ n ∧ rankOf src ≠ 1 then
      ((s.wr EVT_EVENT_STAGE_OVF 1).bump (EVT_RING_LOST_COUNT (s.rd (EVT_SRC_CFG_PART src)))).wr EVT_EVENT_LOST 1
    else
      { s with evt := { s.evt with tick := stamp, inTick := n + 1 } }.evtRecord
        (s.rd (EVT_SRC_CFG_PART src)) src (rankOf src) flags data stamp

/-- Raise an internal event at the next TICK edge (R338). -/
def State.raiseInt (s : State) (src data : Nat) : State := s.raise src 1 data s.stamp

/-- Enter the safe state for a cause (R410): registers, pins, gate, FAULT_OUT_n, DEVSAFE, record, event, log, sweep. -/
def State.enterSafe (s : State) (b part src data : Nat) : State :=
  let s1 := ((((s.wr SAF_STATE_SAFE 1).wr SAF_STATE_ARMED 0).wr SAF_STATE_PIN_A 0).wr SAF_STATE_PIN_B 1).wr SAF_STATE_PIN_F 0
  let s2 := s1.mSaf fun x =>
    { x with outA := false, outB := true, outF := false, gateClosed := true, sweeping := true,
             armReq := false, devsafe := true }
  let s3 := if s2.on SAF_FREC_VALID then s2
    else (((((s2.wr SAF_FREC_VALID 1).wr SAF_FREC_CAUSE b).wr SAF_FREC_PART part).wr SAF_FREC_SOURCE src).wr
      SAF_FREC_DATA_DATA data).wr SAF_FREC_TIME_TIME s.now
  ((((s3.tripWhere tcDevsafe fun _ _ => true)).sweepAll.wr SAF_STATE_SWEEP_DONE 0).raiseInt 2 0).log 0x81
    [s3.word SAF_FREC_VALID.off, s3.word SAF_FREC_DATA_DATA.off, s3.word SAF_CAUSE_CAUSE.off]

/-- A cause is detected (R407): latched and the safe state entered, or, masked, a warning only. -/
def State.cause (s : State) (b part src data : Nat) : State :=
  if alwaysCause b ∨ bit (s.rd SAF_CAUSE_EN_EN) b then
    let s1 := (s.wr SAF_CAUSE_CAUSE (s.rd SAF_CAUSE_CAUSE ||| 2 ^ b)).mSaf fun x => { x with armReq := false }
    let s2 := if b = 0 then s1.wr SAF_STATE_TRIPLATCH 1 else s1
    if s.on SAF_STATE_SAFE then s2 else s2.enterSafe b part src data
  else s.wr SAF_WARN_MASKED 1

/-- An enabled comparator slot names the partition (R407). -/
def State.slotNames (s : State) (p : Nat) : Bool :=
  (List.range 16).any fun k => s.on (SAF_CMP_CFG_EN k) &&
    (s.rd (SAF_CMP_CFG_APART k) == p || s.rd (SAF_CMP_CFG_BPART k) == p)

/-! ### MSI-X (R434) -/

/-- Send vector v of slice c, or leave it pending where its entry is masked. -/
def State.msix (s : State) (c v : Nat) : State :=
  let e := 32 * c + v
  if s.on (VMS_MSIX_CTL_MASK e) then s.wr (VMS_MSIX_PBA_PEND c) (s.rd (VMS_MSIX_PBA_PEND c) ||| 2 ^ v)
  else s.emit (.msix (s.on (VMS_SL_CFG_PORT c)) (s.rd (VMS_MSIX_LO_ADDR e) + s.rd (VMS_MSIX_HI_ADDR e) * 2 ^ 32)
    (s.rd (VMS_MSIX_DATA_DATA e)))

/-! ### Partition faults (R357, R358) -/

/-- Send FAULT_VEC to the slices of partition p that ask for it (R434). -/
def State.faultVecs (s : State) (p : Nat) : State :=
  (List.range 64).foldl (fun a c =>
    if a.on (VMS_SL_CFG_EN c) && a.on (VMS_SL_CFG_PEN c) && a.rd (VMS_SL_CFG_PART c) == p && a.on (VMS_SL_VEC_FEN c) then
      a.msix c (a.rd (VMS_SL_VEC_FAULT_VEC c)) else a) s

/-- Partition p faults: counted; recorded and stopped unless it already stands in FAULT or RESETTING. -/
def State.partFault (s : State) (p kind source chip addr : Nat) : State :=
  let s0 := s.bump (PART_FAULT_COUNT_FAULTS p)
  let st := s.rd (PART_STATUS_STATE p)
  if st = stFault ∨ st = stResetting ∨ st = stUnused then s0
  else
    let s1 := (s0.wr (PART_STATUS_STATE p) stFault).wr PART_EVENT_FAULT (s.rd PART_EVENT_FAULT ||| 2 ^ p)
    let s2 := if s1.on (PART_FAULT_VALID p) then s1
      else ((((s1.wr (PART_FAULT_VALID p) 1).wr (PART_FAULT_KIND p) kind).wr (PART_FAULT_SOURCE p) source).wr
        (PART_FAULT_ADDR_CHIP p) chip).wr (PART_FAULT_ADDR_ADDR p) addr
    let targets := ((s.coresOf p) ++ (List.range 13).map (256 + ·)).map fun t => (p, t)
    let s3 := s2.mPart fun x => { x with stops := x.stops ++ targets }
    let s4 := if (List.range 8).any (fun k => k != s3.ownChip && Config.spans p k) then s3.emit (.partFault p) else s3
    let s5 := s4.faultVecs p
    if s.classOf p = 0 ∧ s.slotNames p then s5.cause 3 p source 0 else s5

/-- A plan fault of core c (R93): the core stops, records kind, word and address, and its partition faults. -/
def State.planFault (s : State) (c kind word chip addr : Nat) : State :=
  let s1 := s.wr (CORE_STATE_STATE c) 2
  let s2 := if s1.on (CORE_FAULT_VALID c) then s1
    else ((((s1.wr (CORE_FAULT_VALID c) 1).wr (CORE_FAULT_KIND c) kind).wr (CORE_FAULT_WORD c) word).wr
      (CORE_FAULT_ADDR_CHIP c) chip).wr (CORE_FAULT_ADDR_ADDR c) addr
  let s3 := s2.wr (CORE_SEQ_STATUS_STALL c) 0
  match s.coreOwner c with
  | some p => s3.partFault p kind c chip addr
  | none => s3

/-! ### Power domains (R506, R509) -/

/-- The state of a power domain: 0 Run, 1 Rest, 2 Steep, 3 Off. -/
def State.domState (s : State) (d : Nat) : Nat :=
  bits (s.rd (PWR_DOM_STAT_STATE (d / 16))) (2 * (d % 16) + 1) (2 * (d % 16))
/-- Put a power domain into a state. -/
def State.setDom (s : State) (d v : Nat) : State :=
  s.wr (PWR_DOM_STAT_STATE (d / 16)) (setBits (s.rd (PWR_DOM_STAT_STATE (d / 16))) (2 * (d % 16) + 1) (2 * (d % 16)) v)
/-- The physical position behind a logical core, 16 × row + column (R25, R402). -/
def State.placeOf (s : State) (c : Nat) : Nat := mget (fun k => k) s.saf.place c
/-- The power domain of a logical core, and of a Tun slice group. -/
def State.coreDom (s : State) (c : Nat) : Nat := 1 + 4 * (s.placeOf c / 16) + s.placeOf c % 16 / 4
def tunDom (g : Nat) : Nat := 69 + g
/-- A position becomes the next victim of its quad (R405): 0 gravity, 1 hardware failure, 2 HARD_CE, 3 self-test. -/
def State.addVictim (s : State) (prio pos : Nat) : State :=
  if s.saf.victims.contains (prio, pos) then s else s.mSaf fun x => { x with victims := x.victims ++ [(prio, pos)] }

/-- The quad of a physical position (R402), and the seconds since the oldest BIST of a good core there. -/
def quadOf (pos : Nat) : Nat := pos % 16 / 4
def State.quadAge (s : State) (q : Nat) : Nat :=
  let l := ((List.range 256).map s.placeOf).filter (fun k => quadOf k == q) ++ mget (fun _ => []) s.saf.spares q
  let oldest := l.foldl (fun a k => min a (mget (fun _ => 0) s.saf.lastBist k)) s.now
  min ((s.now - oldest) / 10 ^ 9) 0xFFFFF
/-- The core's group is in Run (R513). -/
def State.awake (s : State) (c : Nat) : Bool := s.domState (s.coreDom c) == 0

/-! ### Muting of audio channels (R500, R501) -/

def State.mCkp (s : State) (f : CkpSt → CkpSt) : State := { s with ckp := f s.ckp }

/-- Mute output channel j; its ramp runs from the first frame at or after a count. -/
def State.mute (s : State) (j from_ : Nat) : State :=
  if s.on (CKP_CH_MUTE j) then s
  else ((s.wr (CKP_CH_MUTE j) 1).wr (CKP_CH_RAMP j) 1).mCkp fun y => { y with rampAt := mset (fun _ => 0) y.rampAt j from_ }

/-! ### Accesses of device blocks (R40, R47, R48, R346) -/

/-- What checking a block's or a host's access at its source finds. -/
inductive Check where
  | ok
  | decode
  | isolation
  deriving DecidableEq, Repr

/-- The slice whose outbound window holds an address of the host range (R428). -/
def hostSlice (a : Nat) : Nat := (a - 0x8000000000) / 2 ^ 33

/-- An address of the host range lies in its enabled slice's reach (R428). -/
def State.hostMapped (s : State) (a : Nat) : Bool :=
  s.on (VMS_SL_CFG_EN (hostSlice a)) && decide ((a - 0x8000000000) % 2 ^ 33 < s.rd (VMS_SL_OLIM_PAGES (hostSlice a)) * 4096)

/-- The slice belongs to partition p (R421). -/
def State.sliceOf (s : State) (sl p : Nat) : Bool := s.on (VMS_SL_CFG_PEN sl) && s.rd (VMS_SL_CFG_PART sl) == p

/-- May partition p reach the byte at a device address; `write` for anything but a read (R346, R348), `host` for a requester
that reaches slice windows (R429). -/
def State.checkByte (s : State) (p : Nat) (write : Bool) (a : Nat) (host : Bool := false) : Check :=
  match s.decode a with
  | .core c _ => if s.coreOwner c = some p then .ok else .isolation
  | .tun sl =>
    if s.tunOwner (sl >>> 4) = some p then .ok
    else if !write && bit (s.rd (PART_TUN_RD_MASK p)) (sl >>> 4) && decide (s.tunOwner (sl >>> 4) ≠ none) then .ok
    else .isolation
  | .lpddr w _ _ => if ¬ s.on (MEM_LPW_CFG_DEV w) ∧ s.rd (MEM_LPW_CFG_OWNER w) = p then .ok else .isolation
  | .host => if ¬ s.hostMapped a then .decode else if host && s.sliceOf (hostSlice a) p then .ok else .isolation
  | _ => .decode

/-- Check a run of bytes: the first failure, if any. -/
def State.checkRun (s : State) (p : Nat) (write : Bool) (a len : Nat) (host : Bool := false) : Check :=
  let cs := ((List.range ((a + len - 1) / 64 + 1 - a / 64)).map fun i => s.checkByte p write ((a / 64 + i) * 64) host)
  if cs.contains .decode then .decode else if cs.contains .isolation then .isolation else .ok

/-- The memory keys of a run of device addresses. -/
def State.runKeys (s : State) (a len : Nat) : List Nat :=
  (List.range len).map fun i => (s.memKey (a + i)).getD (a + i)

/-- Read a run for a block, the checks already made; what host memory holds is a free value. -/
def State.blkRead (s : State) (a len : Nat) : List MByte × State :=
  if 0x8000000000 ≤ a then
    let r := s.draw
    ((List.range len).map (fun i => (Config.hostByte r.1 (a + i), false)), r.2.emit (.hostRead a len))
  else s.readKeys 128 (s.runKeys a len)

/-- Write a run for a block, the checks already made. Poison that leaves over PCIe leaves with EP = 1 and bites (R172): only SOL
writes data of its own there. -/
def State.blkWrite (s : State) (a : Nat) (data : List MByte) : State :=
  if 0x8000000000 ≤ a then
    let t := s.emit (.hostWrite a data)
    if anyPois data then t.partFault (s.rd (VMS_SL_CFG_PART (hostSlice a))) kPoison 259 s.ownChip a else t
  else s.writeKeys ((s.runKeys a data.length).zip data)

end Sys2Proof.Machine
end

