-- ==== Sys2Proof/Machine/Operands.lean ====
section
/-! DEFINITION. Operand forms: element formats (R56, R88), the address generator and its descriptors (R97 to R100), core
memory places of the own core and the bank binding (R94, R95, R98). -/

namespace Sys2Proof.Machine

/-! ### Formats (R56, R57, R88) -/

/-- Element size of a format code in half-bytes; 0 for an illegal code (R88). -/
def fmtNibs (f : Nat) : Nat :=
  match f with
  | 0 => 2 | 1 => 1 | 2 => 2 | 3 => 2 | 4 => 4 | 5 => 8 | 6 => 8 | 7 => 4 | 8 => 8 | 9 => 8 | _ => 0

/-- The floating-point format of a code. -/
def fmtFp (f : Nat) : Option FpFmt :=
  match f with
  | 2 => some e4m3 | 3 => some e5m2 | 4 => some bf16 | 5 => some fp32 | _ => none

/-- The value an element code stands for; fixed-point formats as their significands (R55 to R57). -/
def fmtVal (f w : Nat) : FVal :=
  match fmtFp f with
  | some x => x.decode w
  | none => FVal.ofInt (toSigned (4 * fmtNibs f) w)

/-- The padding value of PADSEL in a format: +0, most negative finite, largest finite (R97). -/
def padCode (f sel : Nat) : Nat :=
  match sel, fmtFp f with
  | 0, _ => 0
  | 1, some x => x.signed true x.maxCode
  | 1, none => 2 ^ (4 * fmtNibs f - 1)
  | _, some x => x.maxCode
  | _, none => 2 ^ (4 * fmtNibs f - 1) - 1

/-! ### Descriptors (R97, R98) -/

/-- One loop of an address descriptor. -/
structure AgLoop where
  count : Nat
  stride : Int
  hstep : Int
  wstep : Int
  deriving DecidableEq, Repr

/-- Fields of a descriptor. -/
def dBase (d : Nat) : Nat := bits d 47 0
def dFmt (d : Nat) : Nat := bits d 51 48
def dPadSel (d : Nat) : Nat := bits d 53 52
def dPadEn (d : Nat) : Bool := bit d 54
def dKind (d : Nat) : Nat := bits d 59 56
def dOrigH (d : Nat) : Int := toSigned 16 (bits d 463 448)
def dOrigW (d : Nat) : Int := toSigned 16 (bits d 479 464)
def dExtH (d : Nat) : Nat := bits d 495 480
def dExtW (d : Nat) : Nat := bits d 511 496

/-- Loop i of a descriptor. -/
def dLoop (d i : Nat) : AgLoop :=
  let w := bits d (127 + 64 * i) (64 + 64 * i)
  ⟨bits w 15 0 + 1, toSigned 32 (bits w 47 16), toSigned 8 (bits w 55 48), toSigned 8 (bits w 63 56)⟩

/-- The loops, innermost first. -/
def dLoops (d : Nat) : List AgLoop := (List.range 6).map (dLoop d)

/-- An address descriptor is legal (R97, R100). -/
def descOk (d : Nat) : Bool :=
  decide (dKind d = 0 ∧ bit d 55 = false ∧ bits d 63 60 = 0 ∧ dFmt d ≤ 9 ∧ dPadSel d ≠ 3 ∧
    (dPadEn d = true → 1 ≤ dExtH d ∧ 1 ≤ dExtW d))

/-- A side descriptor is legal (R99, R100). -/
def sideOk (d : Nat) : Bool :=
  decide (dKind d = 1 ∧ bits d 55 0 = 0 ∧ bits d 63 60 = 0 ∧ bits d 127 112 = 0 ∧ bits d 191 176 = 0 ∧
    bits d 255 240 = 0 ∧ bits d 511 256 = 0)

/-- Every index of the loops, the first of the list outermost: element offset and coordinates. -/
def agWalk : List AgLoop → Int → Int → Int → List (Int × Int × Int)
  | [], o, h, w => [(o, h, w)]
  | l :: ls, o, h, w =>
    (List.range l.count).flatMap fun (i : Nat) => agWalk ls (o + l.stride * i) (h + l.hstep * i) (w + l.wstep * i)

/-- An element of a descriptor: its half-byte address, or none where it is padded (R98). -/
abbrev El := Option Nat

/-- The element at an offset and coordinates, its elements of n half-bytes (R98). -/
def elAt (d : Nat) (half : Bool) (n : Nat) (x : Int × Int × Int) : El :=
  if dPadEn d && (decide (x.2.1 < 0 ∨ (dExtH d : Int) ≤ x.2.1 ∨ x.2.2 < 0 ∨ (dExtW d : Int) ≤ x.2.2)) then none
  else if n = 1 then some (((2 * dBase d + b2n half : Nat) + x.1) % (2 ^ 49 : Nat)).toNat
  else some (2 * (((dBase d : Nat) + x.1 * ((n / 2 : Nat) : Int)) % (2 ^ 48 : Nat)).toNat)

/-- The elements a descriptor enumerates, loop 0 fastest, of n half-bytes each (R98). -/
def agElems (d : Nat) (half : Bool) (n : Nat) : List El :=
  (agWalk (dLoops d).reverse 0 (dOrigH d) (dOrigW d)).map (elAt d half n)

/-- How many elements a descriptor enumerates. -/
def agCount (d : Nat) : Nat := (dLoops d).foldl (fun a l => a * l.count) 1

/-- A slot of core c. -/
def agReset : Nat → AgSlot := fun _ => ⟨0, false, false, 0⟩
def State.slot (s : State) (c i : Nat) : AgSlot := mget agReset s.core.ag (16 * c + i)
def State.setSlot (s : State) (c i : Nat) (v : AgSlot) : State :=
  s.mCore fun x => { x with ag := mset agReset x.ag (16 * c + i) v }

/-- A slot's descriptor where it may be used in a role, with the fault otherwise: poison bites at its use (R172), an illegal
descriptor or one of the other KIND is DESC (R100). -/
def State.useSlot (s : State) (c i : Nat) (side : Bool) : Except (Nat × Nat × Nat) (Nat × Bool) :=
  let sl := s.slot c i
  let d := sl.desc.toNat
  if sl.pois then .error (kPoison, s.ownChip, coreKey c (sl.place / 64 * 64))
  else if (if side then sideOk d else descOk d) then .ok (d, sl.half) else .error (kDesc, 0, 0)

/-! ### Core-memory places (R94, R95, R98) -/

/-- Ports of core memory (R94). -/
def pMatrix : Nat := 0
def pVector : Nat := 1
def pTransfer : Nat := 2

/-- The offset in the own core's memory that a byte address names, if any (R98). -/
def localOff (c a : Nat) : Option Nat :=
  if a < 0x180000 then some a
  else if a / 0x200000 = c ∧ a % 0x200000 < 0x180000 then some (a % 0x200000)
  else none

/-- The port a bank is bound to (R94). -/
def State.boundTo (s : State) (c b : Nat) : Nat := bits (s.rd (CORE_BIND_BIND c)) (2 * b + 1) (2 * b)

/-- A failure of a command: fault kind, chip and address. -/
abbrev Bad := Nat × Nat × Nat

/-- The key of a byte of the own core's memory, reached through a port (R95, R98). -/
def State.localKey (s : State) (c port a : Nat) : Except Bad Nat :=
  match localOff c a with
  | none => .error (kDecode, s.ownChip, a)
  | some o => if s.boundTo c (o / 0x20000) = port then .ok (coreKey c o) else .error (kBind, s.ownChip, a)

/-- Map a list, stopping at the first error. -/
def mapE {α β ε : Type} (f : α → Except ε β) : List α → Except ε (List β)
  | [] => .ok []
  | a :: t => match f a with
    | .error e => .error e
    | .ok b => match mapE f t with
      | .error e => .error e
      | .ok l => .ok (b :: l)

/-- The half-byte keys of an element of n half-bytes; none for a padded one. -/
def State.elKeys (s : State) (c port n : Nat) (e : El) : Except Bad (Option (List Nat)) :=
  match e with
  | none => .ok none
  | some h =>
    match mapE (fun i => (s.localKey c port ((h + i) / 2)).map fun k => 2 * k + (h + i) % 2) (List.range n) with
    | .error b => .error b
    | .ok l => .ok (some l)

/-- The half-byte keys of a list of elements. -/
def State.elsKeys (s : State) (c port n : Nat) (els : List El) : Except Bad (List (Option (List Nat))) :=
  mapE (s.elKeys c port n) els

/-- The half-byte a key holds, with its mark. -/
def State.nibAt (s : State) (k : Nat) : Nat × Bool :=
  let b := s.byteAt (k / 2)
  (if k % 2 = 0 then b.1.toNat % 16 else b.1.toNat / 16, b.2)

/-- The number an element's half-bytes spell, with its mark; the padding value for a padded element. -/
def State.elVal (s : State) (pad : Nat) (ks : Option (List Nat)) : Nat × Bool :=
  match ks with
  | none => (pad, false)
  | some l => (l.zipIdx.foldl (fun a p => a + (s.nibAt p.1).1 * 16 ^ p.2) 0, l.any fun k => (s.nibAt k).2)

/-- Read elements through a port of a width: values with marks, and the counts of the accesses. -/
def State.readEls (s : State) (width pad : Nat) (ks : List (Option (List Nat))) : List (Nat × Bool) × State :=
  (ks.map (s.elVal pad),
   (accessRuns width (ks.flatMap fun k => (k.getD []).map (· / 2))).foldl (fun a r => a.countRead r) s)

/-- The half-byte writes of an element's value; none for a padded element. -/
def elNibs (ks : Option (List Nat)) (v : Nat) (pois : Bool) : List NibW :=
  (ks.getD []).zipIdx.map fun p => (p.1, v / 16 ^ p.2 % 16, pois)

/-- A run of core-memory bytes of the own core, by offset, through a port. -/
def State.runLocal (s : State) (c port off len : Nat) : Except Bad (List Nat) :=
  mapE (fun i => s.localKey c port (off + i)) (List.range len)

end Sys2Proof.Machine
end

