-- ==== Sys2Proof/Machine/Flags.lean ====
section
/-! DEFINITION. Flag computations: the accumulator's saturation (R62) and the output stage with its flags (R66 to R70). -/

namespace Sys2Proof.Machine

/-- Clamp an integer into a range. -/
def clampInt (lo hi v : Int) : Int := if v < lo then lo else if hi < v then hi else v

/-- Add an exact sum to an INT32 accumulator word with saturation; the new word and whether it saturated (R62). -/
def accAddInt (w : Nat) (sum : Int) : Nat × Bool :=
  let v := toSigned 32 w + sum
  let y := clampInt (-(2 ^ 31)) (2 ^ 31 - 1) v
  (ofSigned 32 y, decide (y ≠ v))

/-- The parameters of the output stage; `scale` is the power of two a fixed-point output format adds (R79). -/
structure OutCfg where
  ofmt : Nat
  oshift : Int
  clamp : Bool
  lo : Nat
  hi : Nat
  scale : Int
  deriving DecidableEq, Repr

/-- What the output stage gives for one element: the code and the flags OUT_SAT, FP_NAN, FP_OVF. -/
structure OutRes where
  code : Nat
  sat : Bool
  nan : Bool
  ovf : Bool
  deriving DecidableEq, Repr

/-- Width of an integer output format in bits. -/
def intBits (f : Nat) : Nat := 4 * fmtNibs f

/-- Clamp (where enabled) and saturate an integer into an integer format (R67). -/
def outInt (o : OutCfg) (q : Int) : OutRes :=
  let n := intBits o.ofmt
  let q' := if o.clamp then clampInt (toSigned n o.lo) (toSigned n o.hi) q else q
  let y := clampInt (-(2 ^ (n - 1) : Nat)) ((2 ^ (n - 1) : Nat) - 1) q'
  ⟨ofSigned n y, decide (y ≠ q'), false, false⟩

/-- Clamp a floating-point code (R68); a NaN stays. -/
def clampFp (f : FpFmt) (o : OutCfg) (code : Nat) : Nat :=
  if !o.clamp then code
  else if (f.decode code).isNan then code
  else if (f.decode code).lt (f.decode o.lo) then o.lo
  else if (f.decode o.hi).lt (f.decode code) then o.hi
  else code

/-- One element through the output stage (R67 to R69): an exact input value to the output format. -/
def outStage (o : OutCfg) (v : FVal) : OutRes :=
  match fmtFp o.ofmt with
  | some f =>
    match v with
    | .nan => ⟨f.nanCode, false, true, false⟩
    | .inf s => ⟨clampFp f o (f.signed s f.maxCode), false, false, true⟩
    | .fin s m e =>
      let r := f.roundSig m (e - o.oshift)
      let p := f.pack r.1 r.2
      if p.2 then ⟨clampFp f o (f.signed s f.maxCode), true, false, false⟩
      else ⟨clampFp f o (f.signed s p.1), false, false, false⟩
  | none =>
    match v with
    | .nan => ⟨0, false, true, false⟩
    | .inf s =>
      ⟨(outInt o (if s then -(2 ^ 64) else 2 ^ 64)).code, false, false, true⟩
    | .fin s m e => outInt o (rneInt s m (e - o.oshift + o.scale))

/-- Record the flags of one output element in core c (R68 to R70); an infinity counts as changed by saturation. -/
def State.outFlags (s : State) (c : Nat) (r : OutRes) : State :=
  let s0 := if r.sat then s.wr (CORE_ARITH_STATUS_OUT_SAT c) 1 else s
  let s1 := if r.sat || r.ovf then s0.bump (CORE_SAT_COUNT_COUNT c) else s0
  let s2 := if r.nan then s1.wr (CORE_ARITH_STATUS_FP_NAN c) 1 else s1
  if r.ovf then s2.wr (CORE_ARITH_STATUS_FP_OVF c) 1 else s2

/-- The element is one the core's CORE_ARITH_CFG turns into a plan fault (R70). -/
def State.outFaults (s : State) (c : Nat) (r : OutRes) : Bool :=
  ((r.sat || r.ovf) && s.on (CORE_ARITH_CFG_OUTSAT_FAULT c)) || (r.nan && s.on (CORE_ARITH_CFG_NAN_FAULT c))

/-- The results up to and including the first that faults, and whether one does (R70). -/
def State.outPrefix (s : State) (c : Nat) : List OutRes → List OutRes × Bool
  | [] => ([], false)
  | r :: t => if s.outFaults c r then ([r], true) else
    let p := s.outPrefix c t
    (r :: p.1, p.2)

end Sys2Proof.Machine
end

