-- ==== Sys2Proof/Machine/PlanWord.lean ====
section
/-! DEFINITION. The plan word: its fields and the checks of R86 on it (R94, R99, R101 to R107, R185, R585), shared by the
loader's check 7 and the sequencer. -/

namespace Sys2Proof.Machine

/-- Refusal codes of R121. -/
def refOpcode : Nat := 0x05
def refReserved : Nat := 0x06
def refField : Nat := 0x07

/-- The command code. -/
def wOp (w : Nat) : Nat := bits w 7 0

/-- The bits a list of ranges covers. -/
def coverMask (l : List (Nat × Nat)) : Nat :=
  l.foldl (fun a r => a ||| ((2 ^ (r.1 + 1 - r.2) - 1) <<< r.2)) 0

/-- The bit ranges a word's layout gives a meaning, beside OP; none for an unlisted OP (R86, R87, R101, R105, R107,
R185, R585). -/
def wordFields (w : Nat) : Option (List (Nat × Nat)) :=
  let bimm := bit w 51
  let vbOrImm := if bimm then (if bits w 43 40 = 4 then [(79, 64)] else [(95, 64)]) else [(28, 22)]
  match wOp w with
  | 0x00 => some []
  | 0x01 => some []
  | 0x02 => some [(31, 8)]
  | 0x03 => some [(11, 8), (32, 12)]
  | 0x04 => some [(23, 8)]
  | 0x05 => some []
  | 0x06 => some [(11, 8), (63, 32), (79, 64), (95, 80)]
  | 0x07 => some [(11, 8)]
  | 0x08 => some [(15, 8), (16, 16), (127, 64)]
  | 0x0A => some [(12, 8), (63, 32)]
  | 0x0B => some [(10, 8), (127, 64)]
  | 0x0C => some [(11, 8), (19, 12), (39, 20)]
  | 0x0E => some [(63, 32)]
  | 0x10 => some [(55, 8)]
  | 0x11 => some [(48, 8), (127, 64)]
  | 0x18 => some [(10, 8), (32, 12)]
  | 0x20 => some [(14, 8), (50, 44), (55, 52)]
  | 0x21 => some [(21, 15), (50, 44), (55, 52)]
  | 0x22 => some ([(21, 8), (39, 36), (51, 40)] ++ vbOrImm)
  | 0x23 => some ([(21, 8), (35, 29), (51, 40)] ++ vbOrImm)
  | 0x24 => some ([(21, 8), (39, 36), (51, 40)] ++ vbOrImm)
  | 0x25 => some ([(21, 8), (35, 29), (51, 40)] ++ vbOrImm)
  | 0x26 => some [(21, 8), (39, 36), (50, 40)]
  | 0x27 => some ([(21, 8), (50, 40), (62, 52), (127, 64)] ++
      (if bits w 43 40 = 9 ∨ bits w 55 52 = 9 then [(29, 22)] else []))
  | 0x28 => some [(21, 8), (39, 36), (50, 40)]
  | 0x29 => some [(31, 8)]
  | 0x2A => some [(14, 8), (50, 44), (95, 64)]
  | 0x2B => some ([(21, 8), (39, 36), (50, 44)] ++ (if bits w 39 36 = 1 then [(95, 64)] else []))
  | 0x30 => some [(12, 8), (20, 13)]
  | 0x31 => some [(12, 8), (20, 13), (44, 32)]
  | 0x32 => some [(12, 8), (23, 13)]
  | 0x33 => some [(12, 8), (23, 13), (45, 32)]
  | 0x34 => some [(18, 8), (40, 20), (111, 64)]
  | 0x35 => some [(12, 8), (20, 13)]
  | 0x36 => some [(12, 8), (20, 13)]
  | 0x38 => some [(12, 8), (44, 32), (79, 64)]
  | 0x40 => some [(32, 12)]
  | 0x41 => some [(32, 12)]
  | 0x42 => some [(32, 12)]
  | _ => none

/-! Fields. -/

def wVD (w : Nat) : Nat := bits w 14 8
def wVA (w : Nat) : Nat := bits w 21 15
def wVB (w : Nat) : Nat := bits w 28 22
def wVC (w : Nat) : Nat := bits w 35 29
def wSUB (w : Nat) : Nat := bits w 39 36
def wFMT (w : Nat) : Nat := bits w 43 40
def wREP (w : Nat) : Nat := bits w 50 44
def wBIMM (w : Nat) : Bool := bit w 51
def wAGV (w : Nat) : Nat := bits w 55 52
def wIMM (w : Nat) : Nat := bits w 95 64
def wTAG (w : Nat) : Nat := bits w 12 8

/-- The element K-step of a pairing (R53). -/
def pairK (p : Nat) : Nat := match p with | 1 => 64 | 3 => 16 | 6 => 64 | _ => 32
/-- The columns N of a pairing (R53). -/
def pairN (p : Nat) : Nat := if p = 3 then 32 else 64
/-- The pairing accumulates into INT32 (R53). -/
def pairInt (p : Nat) : Bool := p == 0 || p == 1
/-- The pairing is grouped (R53). -/
def pairGQ (p : Nat) : Bool := p == 4 || p == 5 || p == 6

/-- A clamp bound has no bit above its format (R66, R101, R104). -/
def clampBits (f b : Nat) : Bool := decide (b < 2 ^ (4 * fmtNibs f))

/-- A used clamp is in order and holds no NaN (R66). -/
def clampOrder (f lo hi : Nat) : Bool :=
  let a := fmtVal f lo
  let b := fmtVal f hi
  !a.isNan && !b.isNan && !b.lt a

/-- OSHIFT is −8 to 31. -/
def oshiftOk (x : Nat) : Bool := decide (-8 ≤ toSigned 6 x)

/-- Register ranges stay within V0 to V127 (R104). -/
def vRange (r rep : Nat) : Bool := decide (r + rep ≤ 127)

/-- The field values of a word are legal; its reserved bits are not looked at (R86). -/
def wordLegal (w : Nat) : Bool :=
  let rep := wREP w
  let srcs3 := vRange (wVD w) rep && vRange (wVA w) rep && (wBIMM w || vRange (wVB w) rep)
  match wOp w with
  | 0x02 => (List.range 12).all fun b => bits w (2 * b + 9) (2 * b + 8) != 3
  | 0x03 => decide (bits w 32 12 % 64 = 0)
  | 0x0B => decide (bits w 10 8 ≤ 4)
  | 0x0C => decide (1 ≤ bits w 39 20)
  | 0x10 =>
    let p := bits w 30 28
    let sp := bit w 31
    decide (p ≠ 7) && (pairGQ p || decide (bits w 19 16 = 0)) &&
      (pairGQ p || sp || decide (bits w 23 20 = 0)) && (decide (bits w 37 36 = 2) || decide (bits w 27 24 = 0)) &&
      (!sp || p == 0 || p == 2 || p == 5 || p == 6) && (p == 2 || (!bit w 32 && !bit w 33)) &&
      decide (bits w 35 34 ≠ 3) && (pairGQ p || decide (bits w 35 34 = 0)) && decide (bits w 37 36 ≠ 3) &&
      decide (1 ≤ bits w 40 38 ∧ bits w 40 38 ≤ 5) && decide (bits w 55 50 < pairN p)
  | 0x11 =>
    let f := bits w 40 37
    decide (f ≤ 6) && oshiftOk (bits w 46 41) && clampBits f (bits w 95 64) && clampBits f (bits w 127 96) &&
      (!bit w 47 || clampOrder f (bits w 95 64) (bits w 127 96))
  | 0x18 => decide (bits w 10 8 ≤ 5 ∧ bits w 32 12 % 64 = 0)
  | 0x20 => vRange (wVD w) rep
  | 0x21 => vRange (wVA w) rep
  | 0x22 => srcs3 && (if wFMT w = 6 then decide (wSUB w ≤ 10) else decide ((wFMT w = 4 ∨ wFMT w = 5) ∧ wSUB w ≤ 4))
  | 0x23 => srcs3 && vRange (wVC w) rep && decide (wFMT w = 4 ∨ wFMT w = 5)
  | 0x24 => srcs3 && decide (4 ≤ wFMT w ∧ wFMT w ≤ 6 ∧ wSUB w ≤ 2)
  | 0x25 => srcs3 && vRange (wVC w) rep && decide (4 ≤ wFMT w ∧ wFMT w ≤ 6)
  | 0x26 => vRange (wVD w) rep && vRange (wVA w) rep && decide (wFMT w = 5 ∧ wSUB w ≤ 3)
  | 0x27 =>
    let f := bits w 55 52
    vRange (wVD w) rep && vRange (wVA w) rep && decide (wFMT w ≤ 9 ∧ f ≤ 9) && oshiftOk (bits w 61 56) &&
      clampBits f (bits w 95 64) && clampBits f (bits w 127 96) &&
      (!bit w 62 || clampOrder f (bits w 95 64) (bits w 127 96))
  | 0x28 => vRange (wVD w) rep && vRange (wVA w) rep && decide (4 ≤ wFMT w ∧ wFMT w ≤ 6 ∧ wSUB w ≤ 2)
  | 0x29 => decide (bits w 23 15 * 64 + (bits w 31 25 + 1) * 64 ≤ 32768) && vRange (wVD w) (bits w 31 25)
  | 0x2A => vRange (wVD w) rep
  | 0x2B => decide (wSUB w ≤ 2) && vRange (wVD w) rep && vRange (wVA w) rep &&
      (wSUB w != 2 || (decide (rep = 0) && vRange (wVD w) 7 && vRange (wVA w) 7))
  | 0x31 => decide (bits w 44 40 < 16)
  | 0x34 => decide (bits w 17 16 ≤ 1 ∧ bits w 40 20 % 16 = 0 ∧ bits w 111 64 % (if bit w 18 then 8 else 4) = 0)
  | 0x38 => decide (1 ≤ bits w 79 64)
  | 0x40 => decide (bits w 32 12 % 64 = 0)
  | 0x41 => decide (bits w 32 12 % 64 = 0)
  | 0x42 => decide (bits w 32 12 % 64 = 0)
  | _ => true

/-- The check of R86 on one word: none, or the loader's refusal code. -/
def wordCheck (w : Nat) : Option Nat :=
  match wordFields w with
  | none => some refOpcode
  | some fs =>
    if (w % 2 ^ 128) &&& (2 ^ 128 - 1 - (coverMask ((7, 0) :: fs))) ≠ 0 then some refReserved
    else if wordLegal w then none else some refField

end Sys2Proof.Machine
end

