-- ==== Sys2Proof/Machine/Time.lean ====
section
/-! DEFINITION. Readings of the time counter through the timescales (R319 to R324). -/

namespace Sys2Proof.Machine

/-- exact(c) of timescale n, in units of 2⁻⁴⁶ ns (R322). -/
def State.exactAt (s : State) (n c : Nat) : Nat :=
  s.rd (TIM_AOFF_VALUE n) * 2 ^ 46 + s.rd (TIM_AFRAC_VALUE n) +
    ((c + 2 ^ 64 - s.rd (TIM_ABASE_VALUE n)) % 2 ^ 64) * s.rd (TIM_ARATE_VALUE n)

/-- reading(c) of timescale n (R322). -/
def State.readingAt (s : State) (n c : Nat) : Nat := s.exactAt n c / 2 ^ 46 % 2 ^ 64

/-- The reading selected by a TS or SRC code at a count: 0 to 3 a timescale, otherwise the raw counter. -/
def State.timeAt (s : State) (ts c : Nat) : Nat := if ts < 4 then s.readingAt ts c else c

/-- The reading selected by a TS code now. -/
def State.time (s : State) (ts : Nat) : Nat := s.timeAt ts s.now

/-- One edge of the clock that the counter runs from: CLK_TIME adds 1; CLK_AO adds 30,517 and the carry of the accumulator
(R319, R320). -/
def State.clockEdge (s : State) : State :=
  if s.tim.ao then
    let f := s.tim.frac + 37
    (s.wr TIM_COUNT_VALUE ((s.now + 30517 + f / 64) % 2 ^ 64)).mTim fun y => { y with frac := f % 64 }
  else s.wr TIM_COUNT_VALUE ((s.now + 1) % 2 ^ 64)

end Sys2Proof.Machine
end

