-- ==== Sys2Proof/Machine/Issue.lean ====
section
/-! DEFINITION. Issue of plan words: fetching the word at CORE_PC, the stalls of R92 and the plan faults of R93. -/

namespace Sys2Proof.Machine

/-- What issuing a word comes to: it issues (and the next word, where not the following one), it stalls at issue with a
STALL code and index, or it fails with a fault kind, chip and address. -/
inductive IssueRes where
  | done (s : State) (jump : Option Nat)
  | stall (code idx : Nat) (s : State)
  | fault (kind chip addr : Nat) (s : State)

/-- STALL codes of CORE_SEQ_STATUS. -/
def stCounter : Nat := 1
def stTime : Nat := 2
def stTags : Nat := 3
def stCredit : Nat := 4
def stBarrier : Nat := 5
def stQueue : Nat := 6
def stPhase : Nat := 7
def stReport : Nat := 8
def stTag : Nat := 9
def stFetch : Nat := 10
def stEnd : Nat := 11

/-- The index of the next word to issue. -/
def State.pc (s : State) (c : Nat) : Nat := s.rd (CORE_PC_WORD c)

/-- The bits of the word at CORE_PC as a read returns them, uncounted. -/
def State.planWord (s : State) (c : Nat) : Nat :=
  let k := coreKey c (16 * s.pc c)
  s.wordAt k + s.wordAt (k + 8) * 2 ^ 64

/-- The core may issue: it runs, no stop has reached it, no freeze holds it, and it is a core of the part (R93, R358,
R435). -/
def State.mayIssue (s : State) (c : Nat) : Bool :=
  decide (c < s.nCores) && decide (s.rd (CORE_STATE_STATE c) = 1) && !mget (fun _ => false) s.core.stopped c &&
    !(match s.coreOwner c with
      | some p => mget (fun _ => false) s.part.frozen p
      | none => false)

/-- Fetch the word at CORE_PC through the transfer port (R89, R95, R172). -/
def State.fetch (s : State) (c : Nat) : Except Bad Nat × State :=
  let a := 16 * s.pc c
  match s.runLocal c pTransfer a 16 with
  | .error b => (.error b, s)
  | .ok ks =>
    let r := s.readAccess ks
    if anyPois r.1 then (.error (kPoison, s.ownChip, coreKey c (a / 64 * 64)), r.2)
    else
      let w := leNum r.1
      if (wordCheck w).isSome then (.error (kWord, 0, 0), r.2) else (.ok w, r.2)

/-- The word issues: it is counted, CORE_PC moves, no stall is shown, and the cycles of a stall that ends are counted (R92, R124). -/
def State.issued (s : State) (c : Nat) (jump : Option Nat) : State :=
  let t := ((s.wr (CORE_PC_WORD c) (jump.getD (s.pc c + 1))).wr (CORE_SEQ_STATUS_STALL c) 0).bumpWrap (CORE_WORDS_ISSUED_COUNT c) 1
  if s.rd (CORE_SEQ_STATUS_STALL c) = 0 then t
  else t.bumpWrap (CORE_STALL_CYCLES_COUNT c) (Config.stallCycles c (s.rd (CORE_WORDS_ISSUED_COUNT c))).toNat

/-- The word stalls: code and index are shown. -/
def State.stalled (s : State) (c code idx : Nat) : State :=
  (s.wr (CORE_SEQ_STATUS_STALL c) code).wr (CORE_SEQ_STATUS_STALL_IDX c) idx

/-- Settle an issue. -/
def State.settle (s : State) (c : Nat) (r : IssueRes) : State :=
  match r with
  | .done t j => t.issued c j
  | .stall code idx t => t.stalled c code idx
  | .fault k chip a t => t.planFault c k (s.pc c) chip a

/-- Issue the word at CORE_PC with the meaning of its command. -/
def State.issueWith (s : State) (c : Nat) (f : Nat → State → IssueRes) : State :=
  match s.fetch c with
  | (.error (k, chip, a), t) => t.planFault c k (s.pc c) chip a
  | (.ok w, t) => s.settle c (f w t)

/-- The event "plan word OP of core c is issued": it happens where the core may issue, shows no stall and its next word
has that OP (and satisfies a further test); otherwise nothing does. -/
def State.issueIf (s : State) (c op : Nat) (test : Nat → Bool) (f : Nat → State → IssueRes) : State :=
  if s.mayIssue c && decide (s.rd (CORE_SEQ_STATUS_STALL c) = 0) && decide (wOp (s.planWord c) = op) && test (s.planWord c)
  then s.issueWith c f else s

/-! ### Tags (R136, R149) -/

def tagReset : Nat → TagInfo := fun _ => ⟨0, false, 0, 0⟩

/-- Tag t of core c is held. -/
def State.tagBusy (s : State) (c t : Nat) : Bool := bit (s.rd (CORE_TAG_BUSY_BUSY c)) t

def State.tag (s : State) (c t : Nat) : TagInfo := mget tagReset s.core.tags (32 * c + t)

def State.setTag (s : State) (c t : Nat) (v : TagInfo) : State :=
  s.mCore fun x => { x with tags := mset tagReset x.tags (32 * c + t) v }

/-- Take a tag for a command whose local side uses a set of banks. -/
def State.holdTag (s : State) (c t banks word : Nat) : State :=
  (s.wr (CORE_TAG_BUSY_BUSY c) (s.rd (CORE_TAG_BUSY_BUSY c) ||| 2 ^ t)).setTag c t
    { s.tag c t with out := 0, banks := banks, word := word }

/-- Free a tag. -/
def State.freeTag (s : State) (c t : Nat) : State :=
  s.wr (CORE_TAG_BUSY_BUSY c) (bits (s.rd (CORE_TAG_BUSY_BUSY c)) 31 0 &&& (2 ^ 32 - 1 - 2 ^ t))

/-- Transfers of core c not yet wholly sent under tag t. -/
def State.xferLeft (s : State) (c t : Nat) : Bool := s.core.xfers.any fun x => x.core == c && x.tag == t

/-- A partition the core belongs to; 0 where it belongs to none. -/
def State.partOf (s : State) (c : Nat) : Nat := (s.coreOwner c).getD 0

end Sys2Proof.Machine
end

