-- ==== Sys2Proof/Machine/Sequencer.lean ====
section
/-! DEFINITION. The Seq commands (R87, R94, R99, R100, R107 to R109, R140, R146) and the barrier and credit messages. -/

namespace Sys2Proof.Machine

abbrev Out := Host.Outcome State Fault Refusal

/-- An ATTN of the core is in progress (R186). -/
def State.attnBusy (s : State) (c : Nat) : Bool := s.core.attns.any fun j => j.core == c

/-! ### Guarded windows (R143 to R146) -/

def slotReset : Nat → SlotInfo := fun _ => ⟨0, 0, 0⟩
def State.gslot (s : State) (c w i : Nat) : SlotInfo := mget slotReset s.core.slots ((16 * c + w) * 256 + i)
def State.setGslot (s : State) (c w i : Nat) (v : SlotInfo) : State :=
  s.mCore fun x => { x with slots := mset slotReset x.slots ((16 * c + w) * 256 + i) v }
def State.dcur (s : State) (c w : Nat) : Nat := mget (fun _ => 0) s.core.dcur (16 * c + w)
def State.setDcur (s : State) (c w v : Nat) : State :=
  s.mCore fun x => { x with dcur := mset (fun _ => 0) x.dcur (16 * c + w) v }

/-- Slots of a guarded window, and units to a slot. -/
def State.winSlots (s : State) (c w : Nat) : Nat := s.rd (CORE_WIN_GEOM_SLOTS c w) + 1
def State.slotUnits (s : State) (c w : Nat) : Nat := s.rd (CORE_WIN_GEOM_UNITS c w) / s.winSlots c w

/-- A slot awaits fill (R143). -/
def State.awaiting (s : State) (c w i : Nat) : Bool :=
  decide ((s.gslot c w i).cg = (s.gslot c w i).fg + 1)

/-- The guarded window and slot of core c that holds a byte offset, where that slot awaits fill (R145). -/
def State.awaitAt (s : State) (c off : Nat) : Option (Nat × Nat) :=
  (List.range 16).findSome? fun w =>
    let b := s.rd (CORE_WIN_BASE_OFFSET c w)
    if s.on (CORE_WIN_BASE_VALID c w) && s.on (CORE_WIN_BASE_GUARD c w) &&
        decide (b ≤ off ∧ off < b + 64 * s.rd (CORE_WIN_GEOM_UNITS c w)) then
      let i := (off - b) / 64 / (max (s.slotUnits c w) 1)
      if s.awaiting c w i then some (w, i) else none
    else none

/-- Show a stalled guarded read (R145). -/
def State.guardStall (s : State) (c w i : Nat) : State :=
  ((s.wr (CORE_GUARD_STATUS_STALLED c) 1).wr (CORE_GUARD_STATUS_WIN c) w).wr (CORE_GUARD_STATUS_SLOT c) i

/-- End the show of a stalled guarded read. -/
def State.guardClear (s : State) (c : Nat) : State :=
  (s.wr (CORE_GUARD_STATUS_STALLED c) 0).wr (CORE_GUARD_STATUS_CYCLES c) 0

/-! ### Meanings at issue -/

/-- NOP (R87). -/
def doNop (_c _w : Nat) (s : State) : IssueRes := .done s none

/-- END (R92, R356): with engines idle and tags free the core ends its plan; the last core completes the partition. -/
def doEnd (c _w : Nat) (s : State) : IssueRes :=
  if s.rd (CORE_TAG_BUSY_BUSY c) ≠ 0 ∨ s.attnBusy c then .stall stEnd 0 s
  else
    let s1 := s.wr (CORE_STATE_STATE c) 0
    match s.coreOwner c with
    | some p =>
      if s.rd (PART_STATUS_STATE p) = stRunning ∧ (s.coresOf p).all (fun d => s1.rd (CORE_STATE_STATE d) = 0) then
        .done (s1.wr (PART_STATUS_STATE p) stComplete) none
      else .done s1 none
    | none => .done s1 none

/-- The banks whose port a new binding changes (R94). -/
def State.rebound (s : State) (c bind : Nat) : List Nat :=
  (List.range 12).filter fun b => s.boundTo c b != bits bind (2 * b + 1) (2 * b)

/-- PHASE (R92, R94). -/
def doPhase (c w : Nat) (s : State) : IssueRes :=
  let bind := bits w 31 8
  let ch := s.rebound c bind
  if s.attnBusy c ∨ (List.range 32).any (fun t => s.tagBusy c t && ch.any fun b => bit (s.tag c t).banks b) then
    .stall stPhase 0 s
  else .done (s.wr (CORE_BIND_BIND c) bind) none

/-- AGLOAD (R99, R100): the 64 B descriptor is read through the transfer port into the slot; HALF becomes 0. A read from a
slot that awaits fill waits (R91, R145). -/
def doAgload (c w : Nat) (s : State) : IssueRes :=
  let off := bits w 32 12
  match s.runLocal c pTransfer off 64 with
  | .error (k, chip, a) => .fault k chip a s
  | .ok ks =>
    match s.awaitAt c off with
    | some (win, i) => .stall 0 0 (s.guardStall c win i)
    | none =>
      let r := s.readAccess ks
      .done ((r.2.guardClear c).setSlot c (bits w 11 8) ⟨BitVec.ofNat 512 (leNum r.1), false, anyPois r.1, off⟩) none

def loopsOf (s : State) (c : Nat) : List LoopFrame := mget (fun _ => []) s.core.loops c
def State.setLoops (s : State) (c : Nat) (l : List LoopFrame) : State :=
  (s.mCore fun x => { x with loops := mset (fun _ => []) x.loops c l }).wr (CORE_SEQ_STATUS_LOOP_DEPTH c) l.length

/-- LOOP (R108). A fifth open loop can come only of a plan region changed in place: a fault of kind WORD. -/
def doLoop (c w : Nat) (s : State) : IssueRes :=
  let l := loopsOf s c
  if 4 ≤ l.length then .fault kWord 0 0 s
  else .done (s.setLoops c (⟨s.pc c + 1, bits w 23 8⟩ :: l)) none

/-- NEXT (R108): iterate the innermost open loop, or fall through and close it. -/
def doNext (c _w : Nat) (s : State) : IssueRes :=
  match loopsOf s c with
  | [] => .fault kWord 0 0 s
  | f :: rest =>
    if 0 < f.left then .done (s.setLoops c (⟨f.start, f.left - 1⟩ :: rest)) (some f.start)
    else .done (s.setLoops c rest) none

/-- AGADV (R100). -/
def doAgadv (c w : Nat) (s : State) : IssueRes :=
  let i := bits w 11 8
  let sl := s.slot c i
  let d := sl.desc.toNat
  let delta := toSigned 32 (bits w 63 32)
  if dKind d ≠ 0 ∨ fmtNibs (dFmt d) = 0 then .fault kDesc 0 0 s
  else
    let hb : Nat :=
      if dFmt d = 1 then (((2 * dBase d + b2n sl.half : Nat) + delta) % (2 ^ 49 : Nat)).toNat
      else 2 * (((dBase d : Nat) + delta * ((fmtNibs (dFmt d) / 2 : Nat) : Int)) % (2 ^ 48 : Nat)).toNat + b2n sl.half
    let h := (bits d 463 448 + bits w 79 64) % 2 ^ 16
    let v := (bits d 479 464 + bits w 95 80) % 2 ^ 16
    let d' := setBits (setBits (setBits d 47 0 (hb / 2)) 463 448 h) 479 464 v
    .done (s.setSlot c i ⟨BitVec.ofNat 512 d', bit hb 0, sl.pois, sl.place⟩) none

/-- The participant mask of a barrier of a partition, and its lowest participant (R109). -/
def State.barMask (s : State) (p b : Nat) : Nat := mget (fun _ => 0) s.core.barMask (16 * p + b)
def lowest (m : Nat) : Nat := ((List.range 256).find? fun i => bit m i).getD 0

/-- BARRIER (R109): the arrival travels to the lowest participant and the core waits for the release. -/
def doBarrier (c w : Nat) (s : State) : IssueRes :=
  let p := s.partOf c
  let b := bits w 11 8
  .stall stBarrier b (s.send ⟨.req, c, lowest (s.barMask p b), p, 0, false, s.ownChip, .barArr b⟩)

/-- WAITCNT (R107). -/
def doWaitcnt (c w : Nat) (s : State) : IssueRes :=
  let n := bits w 12 8
  if (s.rd (CORE_CNT_VALUE c n) + 2 ^ 32 - bits w 63 32) % 2 ^ 32 < 2 ^ 31 then .done s none
  else .stall stCounter n s

/-- WAITTIME (R107). -/
def doWaittime (_c w : Nat) (s : State) : IssueRes :=
  if bits w 127 64 ≤ s.time (bits w 10 8) then .done s none else .stall stTime 0 s

/-- WAITTAG (R107). -/
def doWaittag (c w : Nat) (s : State) : IssueRes :=
  if s.rd (CORE_TAG_BUSY_BUSY c) &&& bits w 63 32 = 0 then .done s none else .stall stTags 0 s

/-- The outgoing-credit entry of a core for a window of another. -/
def State.entryFor (s : State) (c dst win : Nat) : Option Nat :=
  (List.range 32).find? fun e => s.on (CORE_CRD_TGT_VALID c e) && s.rd (CORE_CRD_TGT_DST c e) == dst &&
    s.rd (CORE_CRD_TGT_WIN c e) == win

/-- CREDIT (R140, R141, R146). -/
def doCredit (c w : Nat) (s : State) : IssueRes :=
  let win := bits w 11 8
  let sender := bits w 19 12
  let units := bits w 39 20
  let p := s.partOf c
  let grant : Msg := ⟨.crd, c, sender, p, 0, false, s.ownChip, .credit win units⟩
  if s.coreOwner sender ≠ some p then .fault kIsolation s.ownChip 0 s
  else if ¬ s.on (CORE_WIN_BASE_GUARD c win) then .done (s.send grant) none
  else
    let su := max (s.slotUnits c win) 1
    let n := s.winSlots c win
    let k := units / su
    let covered := (List.range k).map fun i => (s.dcur c win + i) % n
    if units % su = 0 ∧ k ≤ n ∧ (s.entryFor sender c win).isSome ∧
        covered.all (fun i => (s.gslot c win i).fg = (s.gslot c win i).cg) then
      let s1 := covered.foldl (fun a i => a.setGslot c win i { a.gslot c win i with cg := (a.gslot c win i).cg + 1 }) s
      .done ((s1.setDcur c win ((s.dcur c win + k) % n)).send grant) none
    else .fault kCredit s.ownChip 0 s

/-! ### The commands -/

def noTest : Nat → Bool := fun _ => true

def execNop (c : Fin 256) (s : State) : Out := .next (s.issueIf c 0x00 noTest (doNop c))
def execEndPlan (c : Fin 256) (s : State) : Out := .next (s.issueIf c 0x01 noTest (doEnd c))
def execPhase (c : Fin 256) (s : State) : Out := .next (s.issueIf c 0x02 noTest (doPhase c))
def execAgload (c : Fin 256) (s : State) : Out := .next (s.issueIf c 0x03 noTest (doAgload c))
def execLoopOpen (c : Fin 256) (s : State) : Out := .next (s.issueIf c 0x04 noTest (doLoop c))
def execLoopNext (c : Fin 256) (s : State) : Out := .next (s.issueIf c 0x05 noTest (doNext c))
def execAgadv (c : Fin 256) (s : State) : Out := .next (s.issueIf c 0x06 noTest (doAgadv c))
def execBarrier (c : Fin 256) (s : State) : Out := .next (s.issueIf c 0x07 noTest (doBarrier c))
def execWaitcnt (c : Fin 256) (s : State) : Out := .next (s.issueIf c 0x0A noTest (doWaitcnt c))
def execWaittime (c : Fin 256) (s : State) : Out := .next (s.issueIf c 0x0B noTest (doWaittime c))
def execWaittag (c : Fin 256) (s : State) : Out := .next (s.issueIf c 0x0E noTest (doWaittag c))
def execCredit (c : Fin 256) (s : State) : Out := .next (s.issueIf c 0x0C noTest (doCredit c))

/-- BARRIER_ARRIVAL (R109): once every participant has arrived, all are released on the RSP class. -/
def execBarrierArrival (part bid : Fin 16) (src : Fin 256) (s : State) : Out :=
  let k := 16 * part.val + bid.val
  let mask := s.barMask part bid
  match s.take (fun m => m.part == part.val && m.src == src.val && m.body == .barArr bid) with
  | none => .next s
  | some (m, s1) =>
    let here := mget (fun _ => 0) s1.core.barHere k ||| 2 ^ src.val
    if here &&& mask = mask then
      let s2 := s1.mCore fun x => { x with barHere := mset (fun _ => 0) x.barHere k 0 }
      .next (s2.sendAll ((setBitsOf 256 mask).map fun c =>
        ⟨.rsp, m.dst, c, part, 0, false, s.ownChip, .barRel bid⟩))
    else .next (s1.mCore fun x => { x with barHere := mset (fun _ => 0) x.barHere k here })

/-- BARRIER_RELEASE (R109): the participant's BARRIER completes. -/
def execBarrierRelease (c : Fin 256) (bid : Fin 16) (s : State) : Out :=
  match s.take (fun m => m.dst == c.val && m.body == .barRel bid) with
  | none => .next s
  | some (_, s1) =>
    if decide (s1.rd (CORE_STATE_STATE c) = 1) && decide (s1.rd (CORE_SEQ_STATUS_STALL c) = stBarrier) &&
        decide (s1.rd (CORE_SEQ_STATUS_STALL_IDX c) = bid.val) then .next (s1.issued c none)
    else .next s1

/-- A plan fault of a core that belongs to no command of it: the word index recorded is open (R93). -/
def State.arrivalFault (s : State) (c kind addr : Nat) : State :=
  let (n, s1) := s.draw
  s1.planFault c kind (Config.arrivalFaultWord n).toNat s.ownChip addr

/-- CREDIT_GRANT_ARRIVAL (R140). -/
def execCreditGrantArrival (dst src : Fin 256) (s : State) : Out :=
  match s.take (fun m => m.dst == dst.val && m.src == src.val && m.cls == .crd) with
  | none => .next s
  | some (m, s1) =>
    match m.body with
    | .credit win units =>
      match s1.entryFor dst src win with
      | none => .next (s1.arrivalFault dst kCredit 0)
      | some e =>
        let b := s1.rd (CORE_CRD_BAL_CREDIT dst e) + units
        if 2 ^ 20 < b then .next (s1.arrivalFault dst kCredit 0)
        else .next (s1.wr (CORE_CRD_BAL_CREDIT dst e) b)
    | _ => .next s1

end Sys2Proof.Machine
end

