-- ==== Sys2Proof/Machine/Matrix.lean ====
section
/-! DEFINITION. The matrix engine: MMUL (R52 to R65, R72 to R76, R80 to R82, R101, R102) and the drain MDRAIN (R66 to R70,
R103). -/

namespace Sys2Proof.Machine

/-! ### Operand-buffer parity (R80, R81) -/

/-- Capture the first parity error (CORE_PAR_FIRST). -/
def State.parFirst (s : State) (c buf off : Nat) : State :=
  if s.on (CORE_PAR_FIRST_VALID c) then s
  else ((s.wr (CORE_PAR_FIRST_VALID c) 1).wr (CORE_PAR_FIRST_OFFSET c) off).wr (CORE_PAR_FIRST_BUF c) buf

/-- Status and count fields of a buffer's parity errors. -/
def parStat (c buf : Nat) : Fld := match buf with | 2 => CORE_ARITH_STATUS_PAR_ACC c | 3 => CORE_ARITH_STATUS_PAR_VREG c | _ => CORE_ARITH_STATUS_PAR_FEED c
def parCount (c buf : Nat) : Fld := match buf with | 2 => CORE_PAR_COUNT_ACC c | 3 => CORE_PAR_COUNT_VREG c | _ => CORE_PAR_COUNT_FEED c

/-- The upsets that a command's reads of a buffer meet. -/
def State.upsetsAt (s : State) (c : Nat) (hit : Nat → Nat → Bool) : List Upset :=
  s.core.upsets.filter fun u => u.core == c && hit u.buf u.off

/-- Meet them: each failed read is counted (at most four where reads are retried), the first captured; the upsets are gone
afterwards. -/
def State.meetUpsets (s : State) (c : Nat) (us : List Upset) (retried : Bool) : State :=
  let s1 := us.foldl (fun a u => ((a.wr (parStat c u.buf) 1).bumpBy (parCount c u.buf)
    (if retried then min u.fails 4 else 1)).parFirst c u.buf u.off) s
  s1.mCore fun x => { x with upsets := x.upsets.filter fun u => !us.contains u }

/-- The hardware failure of R81: counted, the partition faults with kind HW, the position is handed to floor turning. -/
def State.hwFailure (s : State) (c word : Nat) : State :=
  let s1 := s.bump (CORE_PAR_COUNT_REPEAT c)
  let pos := s1.placeOf c
  (s1.addVictim 1 pos).planFault c kHw word s.ownChip 0

/-! ### MMUL -/

/-- The operand formats of a pairing (R102). -/
def pairFmtA (w : Nat) : Nat :=
  match bits w 30 28 with | 1 => 1 | 2 => if bit w 32 then 3 else 2 | 3 => 4 | 6 => 1 | _ => 0
def pairFmtB (w : Nat) : Nat :=
  match bits w 30 28 with | 1 => 1 | 2 => if bit w 33 then 3 else 2 | 3 => 4 | 5 => 1 | 6 => 1 | _ => 0

/-- A value list as a function of its index. -/
abbrev Vals := Array (Nat × Bool)

def Vals.code (v : Vals) (i : Nat) : Nat := (v.getD i (0, false)).1

/-- The shape of an MMUL. -/
structure MmShape where
  k : Nat
  m : Nat
  n : Nat
  cols : Nat
  kstep : Nat
  group : Nat
  base : Nat
  deriving DecidableEq, Repr

/-- The place in the accumulator of row m, column n of the tile (R102). -/
def MmShape.at (z : MmShape) (m n : Nat) : Nat := z.base + m * z.n + n

/-- The operands of an MMUL as read. -/
structure MmOps where
  a : Vals
  b : Vals
  sa : Vals
  ra : Vals
  sb : Vals
  rb : Vals
  deriving DecidableEq, Repr

/-- The 64 values of a group scale code (R60). -/
def scaleVal (code : Nat) : FVal :=
  let e := bits code 7 3
  let m := bits code 2 0
  if e = 0 then .fin false m (-17) else .fin false (8 + m) (e - 18)

/-- The accumulator word after the first `steps` K-steps of an integer pairing: value and whether any addition saturated;
the K-step at which it first did (R62). -/
def intWord (z : MmShape) (o : MmOps) (fa fb init m n steps : Nat) : Nat × Option Nat :=
  (List.range steps).foldl (fun (acc : Nat × Option Nat) j =>
    let sum := (List.range z.kstep).foldl (fun (t : Int) i =>
      let k := j * z.kstep + i
      t + toSigned (4 * fmtNibs fa) (o.a.code (m * z.k + k)) * toSigned (4 * fmtNibs fb) (o.b.code (k * z.n + n))) 0
    let r := accAddInt acc.1 sum
    (r.1, acc.2 <|> (if r.2 then some j else none))) (init, none)

/-- The accumulator word of an FP8 or BF16 pairing: products rounded once, the pairwise tree of each K-step, its root added
(R63). -/
def fpWord (z : MmShape) (o : MmOps) (fa fb init m n : Nat) : Nat :=
  (List.range (z.k / z.kstep)).foldl (fun acc j =>
    let ps := (List.range z.kstep).map fun i =>
      let k := j * z.kstep + i
      fp32.encode ((fmtVal fa (o.a.code (m * z.k + k))).mul (fmtVal fb (o.b.code (k * z.n + n))))
    f32add acc (treeReduce f32add z.kstep.log2 ps)) init

/-- The accumulator word of a grouped pairing: one rounded contribution per group, in ascending group order (R64). -/
def gqWord (z : MmShape) (o : MmOps) (fa fb init m n : Nat) : Nat :=
  let groups := z.k / z.group
  (List.range groups).foldl (fun acc g =>
    let p := (List.range z.group).foldl (fun (t : Int) i =>
      let k := g * z.group + i
      t + toSigned (4 * fmtNibs fa) (o.a.code (m * z.k + k)) * toSigned (4 * fmtNibs fb) (o.b.code (k * z.n + n))) 0
    let c := ((((FVal.ofInt p).mul (scaleVal (o.sa.code (m * groups + g)))).mul (scaleVal (o.sb.code (n * groups + g)))).mul
      (bf16.decode (o.ra.code m))).mul (bf16.decode (o.rb.code n))
    f32add acc (fp32.encode c)) init

/-- The dense form of a sparse operand B (R73, R76): kept values placed by the metadata of their quads; an error where a
second position is not above its first (R74). -/
def densify (k n ks : Nat) (kept mt : Vals) : Option Vals :=
  let quads := k / 4
  let metaOf (col q : Nat) : Nat := bits (mt.code (col * (k / 8) + q / 2)) (4 * (q % 2) + 3) (4 * (q % 2))
  if (List.range n).any (fun col => (List.range quads).any fun q =>
      decide (metaOf col q / 4 ≤ metaOf col q % 4)) then none
  else some (((List.range k).flatMap fun (kk : Nat) => (List.range n).map fun col =>
    let q := kk / 4
    let step := kk / ks
    let qs := q - step * (ks / 4)
    let mq := metaOf col q
    let idx (j : Nat) : Nat := (step * (ks / 2) + 2 * qs + j) * n + col
    if kk % 4 = mq % 4 then (kept.code (idx 0), false)
    else if kk % 4 = mq / 4 then (kept.code (idx 1), false)
    else (0, false)).toArray)

def accGet (s : State) (c i : Nat) : Nat := (mget (fun _ => (0 : Word)) s.core.acc (32768 * c + i)).toNat
def accPois (s : State) (c i : Nat) : Bool := mget (fun _ => false) s.core.accMark (32768 * c + i)
/-- Write one accumulator word with its mark. -/
def State.setAcc (s : State) (c i v : Nat) (p : Bool) : State :=
  s.mCore fun x => { x with acc := mset (fun _ => (0 : Word)) x.acc (32768 * c + i) (BitVec.ofNat 32 v),
                            accMark := mset (fun _ => false) x.accMark (32768 * c + i) p }

/-- Byte keys of a run of core memory named by a 48-bit address, through the matrix port. -/
def State.sideKeys (s : State) (c base len : Nat) : Except Bad (List (Option (List Nat))) :=
  mapE (fun i => (s.localKey c pMatrix (base + i)).map fun k => some [2 * k, 2 * k + 1]) (List.range len)

/-- 16-bit values at a base, through the matrix port. -/
def State.halfKeys (s : State) (c base n : Nat) : Except Bad (List (Option (List Nat))) :=
  mapE (fun i => match s.localKey c pMatrix (base + 2 * i), s.localKey c pMatrix (base + 2 * i + 1) with
    | .ok k, .ok k' => .ok (some [2 * k, 2 * k + 1, 2 * k', 2 * k' + 1])
    | .error e, _ => .error e
    | _, .error e => .error e) (List.range n)

/-- The places an MMUL reads: A, B or its kept values, metadata, codes and row scales of both sides, initial load. -/
structure MmKeys where
  a : List (Option (List Nat))
  b : List (Option (List Nat))
  mt : List (Option (List Nat))
  sa : List (Option (List Nat))
  ra : List (Option (List Nat))
  sb : List (Option (List Nat))
  rb : List (Option (List Nat))
  ini : List (Option (List Nat))

/-- The run-time checks of R102 and every place the command reads. -/
def State.mmPlan (s : State) (c w : Nat) : Except Bad (MmShape × MmKeys × Nat × Nat × Nat) := do
  let p := bits w 30 28
  let sparse := bit w 31
  let (da, ha) ← s.useSlot c (bits w 11 8) false
  let (db, hb) ← s.useSlot c (bits w 15 12) false
  let fa := pairFmtA w
  let fb := pairFmtB w
  let kl := bits w 40 38
  let k := ((dLoops da).take kl).foldl (fun x l => x * l.count) 1
  let m := ((dLoops da).drop kl).foldl (fun x l => x * l.count) 1
  let n := pairN p
  let g := 32 * 2 ^ bits w 35 34
  let z : MmShape := ⟨k, m, n, bits w 55 50 + 1, pairK p, g, bits w 49 41 * 64⟩
  let ks := if sparse then 2 * pairK p else pairK p
  let bad : Bad := (kDesc, 0, 0)
  if fmtNibs (dFmt da) ≠ fmtNibs fa ∨ fmtNibs (dFmt db) ≠ fmtNibs fb then .error bad
  else if k % ks ≠ 0 ∨ agCount db ≠ (if sparse then k / 2 * n else k * n) ∨ 32768 < z.base + m * n then .error bad
  else if pairGQ p && k % g != 0 then .error bad
  else
    let a ← s.elsKeys c pMatrix (fmtNibs fa) (agElems da ha (fmtNibs fa))
    let b ← s.elsKeys c pMatrix (fmtNibs fb) (agElems db hb (fmtNibs fb))
    let (sa, ra) ← (if pairGQ p then do
        let (d, _) ← s.useSlot c (bits w 19 16) true
        let x ← s.sideKeys c (bits d 111 64) (m * (k / g))
        let y ← s.halfKeys c (bits d 175 128) m
        .ok (x, y)
      else .ok ([], []))
    let (sb, rb, mt) ← (if pairGQ p || sparse then do
        let (d, _) ← s.useSlot c (bits w 23 20) true
        let x ← if pairGQ p then s.sideKeys c (bits d 111 64) (n * (k / g)) else .ok []
        let y ← if pairGQ p then s.halfKeys c (bits d 175 128) n else .ok []
        let t ← if sparse then s.sideKeys c (bits d 239 192) (n * (k / 8)) else .ok []
        .ok (x, y, t)
      else .ok ([], [], []))
    let ini ← (if bits w 37 36 = 2 then do
        let (d, h) ← s.useSlot c (bits w 27 24) false
        if dFmt d ≠ (if pairInt p then 6 else 5) ∨ agCount d ≠ m * z.cols then .error bad
        else s.elsKeys c pVector 8 (agElems d h 8)
      else .ok [])
    .ok (z, ⟨a, b, mt, sa, ra, sb, rb, ini⟩, padCode fa (dPadSel da), padCode fb (dPadSel db),
      padCode (if pairInt p then 6 else 5) (dPadSel (s.slot c (bits w 27 24)).desc.toNat))

/-- MMUL (R62 to R65, R74, R76, R80 to R82, R102). -/
def doMmul (c w : Nat) (s : State) : IssueRes :=
  if s.attnBusy c then .stall stQueue 0 s
  else match s.mmPlan c w with
  | .error (k, chip, a) => .fault k chip a s
  | .ok (z, ks, padA, padB, padI) =>
    let p := bits w 30 28
    let fa := pairFmtA w
    let fb := pairFmtB w
    let keep := decide (bits w 37 36 = 1)
    let (va, s1) := s.readEls 256 padA ks.a
    let (vb, s2) := s1.readEls 256 padB ks.b
    let (vm, s3) := s2.readEls 256 0 ks.mt
    let (vsa, s4) := s3.readEls 256 0 ks.sa
    let (vra, s5) := s4.readEls 256 0 ks.ra
    let (vsb, s6) := s5.readEls 256 0 ks.sb
    let (vrb, s7) := s6.readEls 256 0 ks.rb
    let (vi, s8) := s7.readEls 128 padI ks.ini
    let places := (List.range z.m).flatMap fun i => (List.range z.cols).map fun j => (i, j)
    let tileBytes (off : Nat) : Bool := decide (4 * z.base ≤ off ∧ off < 4 * (z.base + z.m * z.n))
    let ups := s8.upsetsAt c fun buf off => decide (buf ≤ 1) || (buf == 2 && tileBytes off)
    let s9 := (s8.meetUpsets c (ups.filter fun u => u.buf ≠ 2 ∨ ¬ keep) true).meetUpsets c
      (ups.filter fun u => u.buf = 2 ∧ keep) false
    if ups.any (fun u => (u.buf ≠ 2 ∨ ¬ keep) ∧ 4 ≤ u.fails) then
      let s10 := s9.bump (CORE_PAR_COUNT_REPEAT c)
      .fault kHw s.ownChip 0 (s10.addVictim 1 (s10.placeOf c))
    else
      let accHit := keep && ups.any fun u => u.buf == 2
      let srcPois := [va, vb, vm, vsa, vra, vsb, vrb, vi].any (fun l => l.any (·.2)) ||
        (keep && places.any fun q => accPois s c (z.at q.1 q.2))
      let pois := srcPois || accHit
      let s10 := if srcPois then s9.wr (CORE_ARITH_STATUS_POISON_IN c) 1 else s9
      let s11 := if accHit then s10.wr (CORE_ARITH_STATUS_POISON_OUT c) 1 else s10
      match (if bit w 31 then densify z.k z.n (2 * z.kstep) vb.toArray vm.toArray else some vb.toArray) with
      | none => .fault kArith s.ownChip 0 (s11.wr (CORE_ARITH_STATUS_SPARSE_META c) 1)
      | some bv =>
        let o : MmOps := ⟨va.toArray, bv, vsa.toArray, vra.toArray, vsb.toArray, vrb.toArray⟩
        let viA := vi.toArray
        let init (i j : Nat) : Nat := match bits w 37 36 with
          | 1 => accGet s c (z.at i j)
          | 2 => Vals.code viA (i * z.cols + j)
          | _ => 0
        let steps := z.k / z.kstep
        let s12 := ((s11.mCore fun x =>
          { x with feedUses := mset (fun _ => 0) x.feedUses c (mget (fun _ => 0) x.feedUses c + 1),
                   pitch := mset (fun _ => 64) x.pitch (512 * c + bits w 49 41) z.n }).bumpWrap
          (CORE_MAC_CYCLES_COUNT c) (z.m * (if bit w 31 then steps / 2 else steps))).bumpWrap
          (CORE_FEED_STALLS_COUNT c) (Config.feedStalls c (mget (fun _ => 0) s.core.feedUses c)).toNat
        if pairInt p then
          let res := places.map fun q => (q, intWord z o fa fb (init q.1 q.2) q.1 q.2 steps)
          let sats := res.filterMap fun r => r.2.2.map fun j => (j, r.1)
          let s13 := if sats.isEmpty then s12 else s12.wr (CORE_ARITH_STATUS_ACC_SAT c) 1
          if s.on (CORE_ARITH_CFG_ACCSAT_FAULT c) ∧ ¬ sats.isEmpty then
            let first := sats.foldl (fun b x => if x.1 < b.1 then x else b) (sats.headD (0, 0, 0))
            let upto (q : Nat × Nat) : Nat :=
              if q.1 < first.2.1 ∨ (q.1 = first.2.1 ∧ q.2 ≤ first.2.2) then first.1 + 1 else first.1
            .fault kArith s.ownChip 0 (places.foldl (fun a q =>
              a.setAcc c (z.at q.1 q.2) (intWord z o fa fb (init q.1 q.2) q.1 q.2 (upto q)).1 pois) s13)
          else .done (res.foldl (fun a r => a.setAcc c (z.at r.1.1 r.1.2) r.2.1 pois) s13) none
        else
          .done (places.foldl (fun a q => a.setAcc c (z.at q.1 q.2)
            (if pairGQ p then gqWord z o fa fb (init q.1 q.2) q.1 q.2
             else fpWord z o fa fb (init q.1 q.2) q.1 q.2) pois) s12) none

/-! ### MDRAIN -/

/-- MDRAIN (R66 to R70, R80, R82, R103): rows and columns of the tile through the output stage into the places of the
destination descriptor. -/
def doMdrain (c w : Nat) (s : State) : IssueRes :=
  if s.attnBusy c then .stall stQueue 0 s
  else match s.useSlot c (bits w 11 8) false with
  | .error (k, chip, a) => .fault k chip a s
  | .ok (d, half) =>
    let f := bits w 40 37
    let rows := bits w 30 21 + 1
    let cols := bits w 36 31 + 1
    let base := bits w 20 12
    let pitch := mget (fun _ => 64) s.core.pitch (512 * c + base)
    if fmtNibs (dFmt d) ≠ fmtNibs f ∨ pitch < cols ∨ 32768 < base * 64 + (rows - 1) * pitch + cols then
      .fault kDesc 0 0 s
    else if agCount d ≠ rows * cols then .fault kXfer s.ownChip 0 s
    else match s.elsKeys c pVector (fmtNibs f) (agElems d half (fmtNibs f)) with
    | .error (k, chip, a) => .fault k chip a s
    | .ok ks =>
      let idx := (List.range rows).flatMap fun i => (List.range cols).map fun j => base * 64 + i * pitch + j
      let ups := s.upsetsAt c fun buf off => buf == 2 && idx.contains (off / 4)
      let s1 := s.meetUpsets c ups false
      let mark (i : Nat) : Bool := accPois s c i || ups.any fun u => u.off / 4 == i
      let o : OutCfg := ⟨f, toSigned 6 (bits w 46 41), bit w 47, bits w 95 64, bits w 127 96, 0⟩
      let res := idx.map fun i => outStage o (if bit w 48 then f32 (accGet s c i) else FVal.ofInt (toSigned 32 (accGet s c i)))
      let (good, faulted) := s1.outPrefix c res
      let s2 := good.foldl (fun a r => a.outFlags c r) s1
      let items := (idx.zip ks).zip good
      let s3 := if idx.any (accPois s c) then s2.wr (CORE_ARITH_STATUS_POISON_IN c) 1 else s2
      let s4 := if items.any (fun t => mark t.1.1 && t.1.2.isSome) then s3.wr (CORE_ARITH_STATUS_POISON_OUT c) 1 else s3
      let s5 := s4.writeNibs (items.flatMap fun t => elNibs t.1.2 t.2.code (mark t.1.1))
      if faulted then .fault kArith s.ownChip 0 s5 else .done s5 none

def execMmul (c : Fin 256) (s : State) : Out := .next (s.issueIf c 0x10 noTest (doMmul c))
def execMdrain (c : Fin 256) (s : State) : Out := .next (s.issueIf c 0x11 noTest (doMdrain c))

end Sys2Proof.Machine
end

