-- ==== Sys2Proof/Machine/Vector.lean ====
section
/-! DEFINITION. The vector engine (R77 to R79, R82, R104, R585). -/

namespace Sys2Proof.Machine

/-! ### Vector registers -/

def vLane (s : State) (c r j : Nat) : Nat := (mget (fun _ => (0 : Word)) s.core.vreg (8192 * c + 64 * r + j)).toNat
/-- The 64 lanes of a register. -/
def vGet (s : State) (c r : Nat) : List Nat := (List.range 64).map (vLane s c r)
def vPois (s : State) (c r : Nat) : Bool := mget (fun _ => false) s.core.vMark (128 * c + r)

/-- Write a register's lanes and its mark. -/
def State.setVreg (s : State) (c r : Nat) (lanes : List Nat) (p : Bool) : State :=
  s.mCore fun x =>
    { x with vreg := lanes.zipIdx.foldl
               (fun m q => mset (fun _ => (0 : Word)) m (8192 * c + 64 * r + q.2) (BitVec.ofNat 32 q.1)) x.vreg,
             vMark := mset (fun _ => false) x.vMark (128 * c + r) p }

/-- Digits of a number to a base of 16^n, lowest first. -/
def splitNibs (n count v : Nat) : List Nat := (List.range count).map fun i => v / 16 ^ (n * i) % 16 ^ n

/-- Half-bytes of register lanes, lowest first. -/
def laneNibs (lanes : List Nat) : List Nat := lanes.flatMap (splitNibs 1 8)

/-- Group a list by n, as many groups as a count. -/
def groupsOfN {α : Type} (n : Nat) : Nat → List α → List (List α)
  | 0, _ => []
  | k + 1, l => l.take n :: groupsOfN n k (l.drop n)

/-- The number half-bytes spell. -/
def nibNum (l : List Nat) : Nat := l.foldr (fun d a => d + 16 * a) 0

/-- Register lanes from half-bytes, what is left over being 0. -/
def nibLanes (l : List Nat) : List Nat := (groupsOfN 8 64 l).map nibNum

/-- The elements of a register in a format: 64 of 32 bits, 128 of BF16. -/
def vEls (f : Nat) (lanes : List Nat) : List Nat := if f = 4 then lanes.flatMap (splitNibs 4 2) else lanes
/-- A register from its elements. -/
def vUnEls (f : Nat) (els : List Nat) : List Nat :=
  if f = 4 then (groupsOfN 2 64 els).map fun p => p.getD 0 0 + 65536 * p.getD 1 0 else els

/-- Read source registers: parity upsets met and poison noted (R80, R82); whether the destination is marked. -/
def State.vSrc (s : State) (c : Nat) (regs : List Nat) : State × Bool :=
  let ups := s.upsetsAt c fun buf off => buf == 3 && regs.contains (off / 256)
  let s1 := s.meetUpsets c ups false
  let s2 := if ups.isEmpty then s1 else s1.wr (CORE_ARITH_STATUS_POISON_OUT c) 1
  let pois := regs.any (vPois s c)
  (if pois then s2.wr (CORE_ARITH_STATUS_POISON_IN c) 1 else s2, pois || !ups.isEmpty)

/-- One repetition of a register command. -/
def State.vRep (s : State) (c : Nat) (srcs : List Nat) (dst : Nat) (f : State → List Nat) : State :=
  let r := s.vSrc c srcs
  r.1.setVreg c dst (f s) r.2

/-! ### Element operations (R77, R104) -/

/-- Shift counts of 32 or more give 0 or the sign. -/
def i32shr (a n : Nat) : Nat := ofSigned 32 (toSigned 32 a / 2 ^ (min n 32))

/-- One element of VBIN. -/
def binOp (f sub a b : Nat) : Nat :=
  if f = 6 then
    match sub with
    | 0 => (a + b) % 2 ^ 32
    | 1 => (a + 2 ^ 32 - b) % 2 ^ 32
    | 2 => a * b % 2 ^ 32
    | 3 => if toSigned 32 a ≤ toSigned 32 b then a else b
    | 4 => if toSigned 32 a ≤ toSigned 32 b then b else a
    | 5 => a &&& b
    | 6 => a ||| b
    | 7 => a ^^^ b
    | 8 => if 32 ≤ b then 0 else a * 2 ^ b % 2 ^ 32
    | 9 => i32shr a b
    | _ => if 32 ≤ b then 0 else a / 2 ^ b
  else
    let x := if f = 4 then bf16 else fp32
    let p := x.decode a
    let q := x.decode b
    x.encode (match sub with
      | 0 => p.add q
      | 1 => p.add q.neg
      | 2 => p.mul q
      | 3 => p.min q
      | _ => p.max q)

/-- One element of VFMA. -/
def fmaOp (f a b c : Nat) : Nat :=
  let x := if f = 4 then bf16 else fp32
  x.encode (((x.decode a).mul (x.decode b)).add (x.decode c))

/-- One comparison of VCMP. -/
def cmpOp (f sub a b : Nat) : Bool :=
  if f = 6 then
    match sub with
    | 0 => a == b
    | 1 => decide (toSigned 32 a < toSigned 32 b)
    | _ => decide (toSigned 32 a ≤ toSigned 32 b)
  else
    let p := fmtVal f a
    let q := fmtVal f b
    match sub with
    | 0 => p.eq q
    | 1 => p.lt q
    | _ => p.lt q || p.eq q

/-- One element of VSFU (R78). -/
def sfuOp (sub a : Nat) : Nat :=
  match sub with
  | 0 => f32exp a
  | 1 => f32log a
  | 2 => f32rcp a
  | _ => f32rsqrt a

/-- VRED of one register (R104). -/
def redOp (f sub : Nat) (lanes : List Nat) : List Nat :=
  let r := match f, sub with
    | 6, 0 => treeReduce (binOp 6 0) 6 lanes
    | 6, 1 => treeReduce (binOp 6 4) 6 lanes
    | 6, _ => treeReduce (binOp 6 3) 6 lanes
    | 5, 0 => treeReduce f32add 6 lanes
    | 5, 1 => treeReduce f32max 6 lanes
    | 5, _ => treeReduce f32min 6 lanes
    | _, 0 => bf16.encode (f32 (treeReduce f32add 7 ((vEls 4 lanes).map (65536 * ·))))
    | _, 1 => treeReduce (binOp 4 4) 7 (vEls 4 lanes)
    | _, _ => treeReduce (binOp 4 3) 7 (vEls 4 lanes)
  r :: List.replicate 63 0

/-- Element lists side by side. -/
def map2 (f : Nat → Nat → Nat) (a b : List Nat) : List Nat := (a.zip b).map fun p => f p.1 p.2
def map3 (f : Nat → Nat → Nat → Nat) (a b c : List Nat) : List Nat := ((a.zip b).zip c).map fun p => f p.1.1 p.1.2 p.2

/-- The second operand of repetition i: register VB + i or the immediate in every element (R585). -/
def vOpB (c w i : Nat) (s : State) : List Nat :=
  let f := wFMT w
  if wBIMM w then List.replicate (if f = 4 then 128 else 64) (if f = 4 then wIMM w % 65536 else wIMM w)
  else vEls f (vGet s c (wVB w + i))
/-- The source registers of repetition i: VA, VB unless immediate, and the others given. -/
def vRegs (w i : Nat) (more : List Nat) : List Nat := (wVA w + i) :: ((if wBIMM w then [] else [wVB w + i]) ++ more)

/-! ### Meanings at issue -/

/-- Run a register command's repetitions in ascending order; while an ATTN holds the engine the word waits (R89, R92). -/
def vReps (c w : Nat) (s : State) (f : Nat → State → State) : IssueRes :=
  if s.attnBusy c then .stall stQueue 0 s
  else .done ((List.range (wREP w + 1)).foldl (fun a i => f i a) s) none

def doVbin (c w : Nat) (s : State) : IssueRes :=
  vReps c w s fun i a => a.vRep c (vRegs w i []) (wVD w + i) fun t =>
    vUnEls (wFMT w) (map2 (binOp (wFMT w) (wSUB w)) (vEls (wFMT w) (vGet t c (wVA w + i))) (vOpB c w i t))

def doVfma (c w : Nat) (s : State) : IssueRes :=
  vReps c w s fun i a => a.vRep c (vRegs w i [wVC w + i]) (wVD w + i) fun t =>
    vUnEls (wFMT w) (map3 (fmaOp (wFMT w)) (vEls (wFMT w) (vGet t c (wVA w + i))) (vOpB c w i t)
      (vEls (wFMT w) (vGet t c (wVC w + i))))

def doVcmp (c w : Nat) (s : State) : IssueRes :=
  let yes := if wFMT w = 4 then 0xFFFF else 0xFFFFFFFF
  vReps c w s fun i a => a.vRep c (vRegs w i []) (wVD w + i) fun t =>
    vUnEls (wFMT w) (map2 (fun x y => if cmpOp (wFMT w) (wSUB w) x y then yes else 0)
      (vEls (wFMT w) (vGet t c (wVA w + i))) (vOpB c w i t))

def doVsel (c w : Nat) (s : State) : IssueRes :=
  vReps c w s fun i a => a.vRep c (vRegs w i [wVC w + i]) (wVD w + i) fun t =>
    vUnEls (wFMT w) (map3 (fun x y m => if m ≠ 0 then x else y) (vEls (wFMT w) (vGet t c (wVA w + i))) (vOpB c w i t)
      (vEls (wFMT w) (vGet t c (wVC w + i))))

def doVsfu (c w : Nat) (s : State) : IssueRes :=
  vReps c w s fun i a => a.vRep c [wVA w + i] (wVD w + i) fun t => (vGet t c (wVA w + i)).map (sfuOp (wSUB w))

def doVred (c w : Nat) (s : State) : IssueRes :=
  vReps c w s fun i a => a.vRep c [wVA w + i] (wVD w + i) fun t => redOp (wFMT w) (wSUB w) (vGet t c (wVA w + i))

def doVimm (c w : Nat) (s : State) : IssueRes :=
  vReps c w s fun i a => a.vRep c [] (wVD w + i) fun _ => List.replicate 64 (wIMM w)

/-- The 8 × 8 block transposition of eight registers (R104): lane 8b + k of register r moves to lane 8b + r of register k. -/
def doTranspose (c w : Nat) (s : State) : State :=
  let src := (List.range 8).map fun r => vGet s c (wVA w + r)
  let r := s.vSrc c ((List.range 8).map (wVA w + ·))
  (List.range 8).foldl (fun a k => a.setVreg c (wVD w + k)
    ((List.range 64).map fun j => ((src.getD (j % 8) []).getD (8 * (j / 8) + k) 0)) r.2) r.1

def doVperm (c w : Nat) (s : State) : IssueRes :=
  if wSUB w = 2 then (if s.attnBusy c then .stall stQueue 0 s else .done (doTranspose c w s) none)
  else vReps c w s fun i a => a.vRep c [wVA w + i] (wVD w + i) fun t =>
    let l := vGet t c (wVA w + i)
    if wSUB w = 0 then l.reverse
    else (List.range 64).map fun j => l.getD ((j + 64 - wIMM w % 64) % 64) 0

/-- VACC (R80, R82, R104). -/
def doVacc (c w : Nat) (s : State) : IssueRes :=
  if s.attnBusy c then .stall stQueue 0 s
  else
    let base := bits w 23 15 * 64
    let n := bits w 31 25 + 1
    let idx (j : Nat) : List Nat := (List.range 64).map fun k => base + 64 * j + k
    if bit w 24 then
      let r := s.vSrc c ((List.range n).map (wVD w + ·))
      let bad (j : Nat) : Bool := vPois s c (wVD w + j) ||
        !(s.upsetsAt c fun buf off => buf == 3 && off / 256 == wVD w + j).isEmpty
      .done ((List.range n).foldl (fun a j =>
        ((idx j).zip (vGet s c (wVD w + j))).foldl (fun b p => b.setAcc c p.1 p.2 (bad j)) a) r.1) none
    else
      let ups := s.upsetsAt c fun buf off => buf == 2 && decide (base ≤ off / 4 ∧ off / 4 < base + 64 * n)
      let s1 := s.meetUpsets c ups false
      let s2 := if ups.isEmpty then s1 else s1.wr (CORE_ARITH_STATUS_POISON_OUT c) 1
      let pois := (List.range n).any fun j => (idx j).any (accPois s c)
      let s3 := if pois then s2.wr (CORE_ARITH_STATUS_POISON_IN c) 1 else s2
      .done ((List.range n).foldl (fun a j => a.setVreg c (wVD w + j) ((idx j).map (accGet s c))
        (!ups.isEmpty || (idx j).any (accPois s c))) s3) none

/-- The power of two a format's significand carries in VCVT (R79). -/
def cvtScale (f : Nat) (e : Int) : Int := match f with | 7 => -15 | 8 => -31 | 9 => e | _ => 0
def FVal.scale (v : FVal) (k : Int) : FVal :=
  match v with
  | .fin s m e => .fin s m (e + k)
  | x => x

/-- VCVT of repetition i (R70, R79, R104): the state and whether the command faulted. -/
def cvtRep (c w i : Nat) (s : State) : State × Bool :=
  let f := wFMT w
  let g := wAGV w
  let e := if f = 9 ∨ g = 9 then toSigned 8 (bits w 29 22) else 0
  let n := 512 / max (fmtNibs f) (fmtNibs g)
  let o : OutCfg := ⟨g, toSigned 6 (bits w 61 56), bit w 62, bits w 95 64, bits w 127 96, -(cvtScale g e)⟩
  let src := (groupsOfN (fmtNibs f) n (laneNibs (vGet s c (wVA w + i)))).map nibNum
  let res := src.map fun x => outStage o ((fmtVal f x).scale (cvtScale f e))
  let r := s.vSrc c [wVA w + i]
  let p := r.1.outPrefix c res
  let s1 := p.1.foldl (fun a x => a.outFlags c x) r.1
  let nibs := p.1.flatMap fun x => splitNibs 1 (fmtNibs g) x.code
  if p.2 then
    (s1.setVreg c (wVD w + i) (nibLanes (nibs ++ (laneNibs (vGet s c (wVD w + i))).drop nibs.length))
      (r.2 || vPois s c (wVD w + i)), true)
  else (s1.setVreg c (wVD w + i) (nibLanes nibs) r.2, false)

/-- The repetitions of VCVT up to one that faults. -/
def cvtReps (c w : Nat) : List Nat → State → State × Bool
  | [], s => (s, false)
  | i :: t, s =>
    let r := cvtRep c w i s
    if r.2 then r else cvtReps c w t r.1

def doVcvt (c w : Nat) (s : State) : IssueRes :=
  if s.attnBusy c then .stall stQueue 0 s
  else
    let r := cvtReps c w (List.range (wREP w + 1)) s
    if r.2 then .fault kArith s.ownChip 0 r.1 else .done r.1 none

/-- VLOAD (R104). -/
def doVload (c w : Nat) (s : State) : IssueRes :=
  if s.attnBusy c then .stall stQueue 0 s
  else match s.useSlot c (wAGV w) false with
  | .error (k, chip, a) => .fault k chip a s
  | .ok (d, half) =>
    let n := fmtNibs (dFmt d)
    if (wREP w + 1) * 512 < agCount d * n then .fault kDesc 0 0 s
    else match s.elsKeys c pVector n (agElems d half n) with
    | .error (k, chip, a) => .fault k chip a s
    | .ok ks =>
      let r := s.readEls 128 (padCode (dFmt d) (dPadSel d)) ks
      let nibs := r.1.flatMap fun x => (splitNibs 1 n x.1).map fun y => (y, x.2)
      let regs := groupsOfN 512 (wREP w + 1) nibs
      let s1 := if r.1.any (·.2) then r.2.wr (CORE_ARITH_STATUS_POISON_IN c) 1 else r.2
      .done (regs.zipIdx.foldl (fun a q =>
        a.setVreg c (wVD w + q.2) (nibLanes (q.1.map (·.1))) (q.1.any (·.2))) s1) none

/-- VSTORE (R104). -/
def doVstore (c w : Nat) (s : State) : IssueRes :=
  if s.attnBusy c then .stall stQueue 0 s
  else match s.useSlot c (wAGV w) false with
  | .error (k, chip, a) => .fault k chip a s
  | .ok (d, half) =>
    let n := fmtNibs (dFmt d)
    if (wREP w + 1) * 512 < agCount d * n then .fault kDesc 0 0 s
    else match s.elsKeys c pVector n (agElems d half n) with
    | .error (k, chip, a) => .fault k chip a s
    | .ok ks =>
      let used := (List.range (wREP w + 1)).filter fun i => decide (512 * i < agCount d * n)
      let bad (i : Nat) : Bool := vPois s c (wVA w + i) ||
        !(s.upsetsAt c fun buf off => buf == 3 && off / 256 == wVA w + i).isEmpty
      let r := s.vSrc c (used.map (wVA w + ·))
      let nibs := used.flatMap fun i => (laneNibs (vGet s c (wVA w + i))).map fun y => (y, bad i)
      let els := groupsOfN n ks.length nibs
      let s1 := if r.2 then r.1.wr (CORE_ARITH_STATUS_POISON_OUT c) 1 else r.1
      .done (s1.writeNibs ((ks.zip els).flatMap fun p =>
        elNibs p.1 (nibNum (p.2.map (·.1))) (p.2.any (·.2)))) none

def execVload (c : Fin 256) (s : State) : Out := .next (s.issueIf c 0x20 noTest (doVload c))
def execVstore (c : Fin 256) (s : State) : Out := .next (s.issueIf c 0x21 noTest (doVstore c))
def execVbin (c : Fin 256) (s : State) : Out := .next (s.issueIf c 0x22 noTest (doVbin c))
def execVfma (c : Fin 256) (s : State) : Out := .next (s.issueIf c 0x23 noTest (doVfma c))
def execVcmp (c : Fin 256) (s : State) : Out := .next (s.issueIf c 0x24 noTest (doVcmp c))
def execVsel (c : Fin 256) (s : State) : Out := .next (s.issueIf c 0x25 noTest (doVsel c))
def execVsfu (c : Fin 256) (s : State) : Out := .next (s.issueIf c 0x26 noTest (doVsfu c))
def execVcvt (c : Fin 256) (s : State) : Out := .next (s.issueIf c 0x27 noTest (doVcvt c))
def execVred (c : Fin 256) (s : State) : Out := .next (s.issueIf c 0x28 noTest (doVred c))
def execVacc (c : Fin 256) (s : State) : Out := .next (s.issueIf c 0x29 noTest (doVacc c))
def execVimm (c : Fin 256) (s : State) : Out := .next (s.issueIf c 0x2A noTest (doVimm c))
def execVperm (c : Fin 256) (s : State) : Out := .next (s.issueIf c 0x2B noTest (doVperm c))

end Sys2Proof.Machine
end

