-- ==== Sys2Proof/Machine/Transfer.lean ====
section
/-! DEFINITION. The transfer commands (R105, R106, R135, R136, R138 to R145, R154, R156): splitting into messages, guarded
reads, credit, and poison biting at a validity stream (R172). -/

namespace Sys2Proof.Machine

/-! ### Splitting (R98, R135) -/

/-- A half-byte of a side: its address or key, `none` where padded, and the half-byte a padded one yields. -/
abbrev Half := Option Nat × Nat

/-- The half-bytes a descriptor enumerates. -/
def halves (d : Nat) (half : Bool) : List Half :=
  let n := fmtNibs (dFmt d)
  let pad := padCode (dFmt d) (dPadSel d)
  (agElems d half n).flatMap fun e => (List.range n).map fun i => (e.map (· + i), pad / 16 ^ i % 16)

/-- Two far half-bytes travel in one message: consecutive and in one 128 B block, or both padded. -/
def joins (a b : Option Nat) : Bool :=
  match a, b with
  | some x, some y => y == x + 1 && x / 256 == y / 256
  | none, none => true
  | _, _ => false

/-- Cut a transfer into messages, in the local side's order. -/
def cut : List (Half × Half) → List Piece
  | [] => []
  | (f, l) :: t =>
    match cut t with
    | ⟨g :: fs, ls⟩ :: ps => if joins f.1 g.1 then ⟨f :: g :: fs, l :: ls⟩ :: ps else ⟨[f], [l]⟩ :: ⟨g :: fs, ls⟩ :: ps
    | ps => ⟨[f], [l]⟩ :: ps

/-- The half-byte address at which a piece's far side starts. -/
def Piece.start (p : Piece) : Option Nat := (p.far.headD (none, 0)).1
/-- Length of a piece in half-bytes. -/
def Piece.len (p : Piece) : Nat := p.far.length
/-- Every far run starts at a multiple of n bytes and is a multiple of n bytes long. -/
def aligned (n : Nat) (ps : List Piece) : Bool :=
  ps.all fun p => match p.start with
    | none => true
    | some h => h % (2 * n) == 0 && p.len % (2 * n) == 0

/-- Local half-bytes as keys of the own core's memory, through the transfer port. -/
def State.halfKeysOf (s : State) (c : Nat) (hs : List Half) : Except Bad (List Half) :=
  mapE (fun h => match h.1 with
    | none => .ok h
    | some x => (s.localKey c pTransfer (x / 2)).map fun k => (some (2 * k + x % 2), h.2)) hs

/-- The banks a list of keys of core c touches. -/
def bankMask (hs : List Half) : Nat :=
  hs.foldl (fun a h => match h.1 with
    | some k => a ||| 2 ^ (k / 2 % 0x200000 / 0x20000)
    | none => a) 0

/-! ### Sending (R131, R142, R145, R172) -/

/-- The bytes a piece's local side yields, with their marks. -/
def State.pieceData (s : State) (hs : List Half) : List MByte × State :=
  let vals := hs.map fun h => match h.1 with
    | some k => s.nibAt k
    | none => (h.2, false)
  let bytes := (groupsOfN 2 ((vals.length + 1) / 2) vals).map fun p =>
    ((BitVec.ofNat 8 ((p.headD (0, false)).1 + 16 * (p.getD 1 (0, false)).1) : BitVec 8), p.any (·.2))
  (bytes, (accessRuns 128 (hs.filterMap fun h => h.1.map (· / 2))).foldl (fun a r => a.countRead r) s)

/-- The slot awaiting fill that a piece's local side reads, if any (R145). -/
def State.pieceWait (s : State) (c : Nat) (hs : List Half) : Option (Nat × Nat) :=
  hs.findSome? fun h => h.1.bind fun k => s.awaitAt c (k / 2 - coreKey c 0)

/-- The record of an enabled validity stream that holds an address (R412). -/
def State.streamAt (s : State) (a : Nat) : Option (Nat × Nat) :=
  (List.range 32).findSome? fun t =>
    let b := s.rd (SAF_STR_BASE_ADDR t)
    let st := s.rd (SAF_STR_CFG_STRIDE t) * 64
    if s.on (SAF_STR_CFG_EN t) && decide (b ≤ a ∧ a < b + (s.rd (SAF_STR_CFG_NREC t) + 1) * st) then
      some (t, (a - b) / max st 1) else none

/-- The device address of the first poisoned granule that a piece's local side reads. -/
def State.badSource (s : State) (src : List Half) : Nat :=
  (((src.filterMap fun h => h.1).find? fun k => s.poisoned (k / 2 / 64 * 64)).getD 0) / 2 / 64 * 64

/-- Poison bites at an output stream: the record's validity word is written clear and the core's partition faults (R172,
R173). -/
def State.streamBite (s : State) (c word addr : Nat) (src : List Half) (data : List MByte) : State :=
  if ¬ anyPois data then s
  else match s.streamAt addr with
  | none => s
  | some (t, f) => (s.writeRun (s.validityAddr t f) (leBytes 4 0)).planFault c kPoison word s.ownChip (s.badSource src)

/-- The mesh endpoint that serves a device address. -/
def State.epOf (s : State) (a : Nat) : Nat :=
  match s.decode a with
  | .tun sl => epSlice sl
  | .lpddr _ ch _ => epLp (ch / 4)
  | .core c _ => c
  | _ => epHost

/-- Padded far half-bytes of a read yield their padding without a message. -/
def padInto (p : Piece) : List NibW :=
  (p.far.zip p.loc).filterMap fun q => q.2.1.map fun k => (k, q.1.2, false)

/-- One piece of a transfer is sent, or, for an LCOPY, carried out. -/
def State.sendPiece (s : State) (x : Xfer) (p : Piece) : State :=
  let c := x.core
  let part := s.partOf c
  let ti := s.tag c x.tag
  let msg (dst chip : Nat) (b : MsgBody) (t : State) : State :=
    (t.send ⟨.req, c, dst, part, x.tag, ti.epoch, chip, b⟩).setTag c x.tag { t.tag c x.tag with out := (t.tag c x.tag).out + 1 }
  let own := s.ownChip
  match x.op with
  | .lcopy =>
    let vals := p.loc.map fun h => match h.1 with
      | some k => s.nibAt k
      | none => (h.2, false)
    let s1 := (accessRuns 128 (p.loc.filterMap fun h => h.1.map (· / 2))).foldl (fun a r => a.countRead r) s
    s1.writeNibs ((p.far.zip vals).filterMap fun q => q.1.1.map fun k => (k, q.2.1, q.2.2))
  | .rwrite dst win =>
    match p.start with
    | none => s
    | some h =>
      let r := s.pieceData p.loc
      msg dst own (.remoteWrite win (h / 2) r.1) r.2
  | .tunwr chip nt =>
    match p.start with
    | none => s
    | some h =>
      let r := s.pieceData p.loc
      let s1 := msg (if chip = own then s.epOf (h / 2) else epChip chip) chip (.memWrite (h / 2) r.1 nt) r.2
      if chip = own then s1.streamBite c ti.word (h / 2) p.loc r.1 else s1
  | .dramwr =>
    match p.start with
    | none => s
    | some h =>
      let r := s.pieceData p.loc
      if s.epOf (h / 2) = epHost then
        let t := (r.2.emit (.hostWrite (h / 2) r.1)).setTag c x.tag { r.2.tag c x.tag with out := (r.2.tag c x.tag).out + 1 }
        let u := t.send ⟨.rsp, epHost, c, part, x.tag, ti.epoch, own, .ack⟩
        if anyPois r.1 then u.planFault c kPoison ti.word own (s.badSource p.loc) else u
      else (msg (s.epOf (h / 2)) own (.memWrite (h / 2) r.1 none) r.2).streamBite c ti.word (h / 2) p.loc r.1
  | .tunrd chip =>
    match p.start with
    | none => s.writeNibs (padInto p)
    | some h => msg (if chip = own then s.epOf (h / 2) else epChip chip) chip (.memRead (h / 2) (p.len / 2) (p.loc.map (·.1))) s
  | .dramrd =>
    match p.start with
    | none => s.writeNibs (padInto p)
    | some h =>
      let t := if s.epOf (h / 2) = epHost then s.emit (.hostRead (h / 2) (p.len / 2)) else s
      msg (s.epOf (h / 2)) own (.memRead (h / 2) (p.len / 2) (p.loc.map (·.1))) t
  | .tatom chip swap w64 addr =>
    let n := if w64 then 8 else 4
    let r := s.pieceData p.loc
    let a := r.1.take n
    let b := (r.1.drop 8).take n
    msg (if chip = own then s.epOf addr else epChip chip) chip
      (.atomic addr swap w64 (leNum a) (leNum b) (anyPois a || (swap && anyPois b)) ((p.loc.headD (none, 0)).1.getD 0 / 2)) r.2

/-- The command reads its local side. -/
def XOp.reads : XOp → Bool
  | .tunrd _ => false
  | .dramrd => false
  | _ => true

/-- Send pieces in order until one waits at a guarded slot: the pieces left and the state (R145). -/
def State.runPieces (s : State) (x : Xfer) : List Piece → List Piece × State
  | [] => ([], s)
  | p :: ps =>
    match (if x.op.reads then s.pieceWait x.core p.loc else none) with
    | some (w, i) => (p :: ps, s.guardStall x.core w i)
    | none => (s.sendPiece x p).runPieces x ps

/-- Start a transfer whose checks are passed: it holds its tag until the event of R136. -/
def State.startXfer (s : State) (x : Xfer) (banks : Nat) : State :=
  let r := (s.holdTag x.core x.tag banks (s.pc x.core)).runPieces x x.pieces
  if r.1.isEmpty then r.2
  else r.2.mCore fun y => { y with xfers := y.xfers ++ [{ x with pieces := r.1 }] }

/-- Let the waiting transfers of core c proceed (R145). -/
def State.advance (s : State) (c : Nat) : State :=
  let mine := s.core.xfers.filter fun x => x.core == c
  if mine.isEmpty then s
  else
    let s0 := (s.mCore fun y => { y with xfers := y.xfers.filter fun x => x.core != c }).guardClear c
    mine.foldl (fun a x =>
      let r := a.runPieces x x.pieces
      if r.1.isEmpty then r.2 else r.2.mCore fun y => { y with xfers := y.xfers ++ [{ x with pieces := r.1 }] }) s0

/-! ### Checks at issue (R46 to R48, R106, R135, R141, R154) -/

/-- Count the unguarded accesses of R142. -/
def State.countBypass (s : State) (c : Nat) (farMem : Bool) (src : List Half) : State :=
  if ¬ mget (fun _ => false) s.core.debug c then s
  else
    let hit := src.any fun h => match h.1 with
      | none => false
      | some k => (List.range 16).any fun w =>
        let o := k / 2 - coreKey c 0
        let b := s.rd (CORE_WIN_BASE_OFFSET c w)
        s.on (CORE_WIN_BASE_VALID c w) && !s.on (CORE_WIN_BASE_GUARD c w) &&
          decide (b ≤ o ∧ o < b + 64 * s.rd (CORE_WIN_GEOM_UNITS c w))
    s.bumpBy (CORE_GUARD_BYPASS_COUNT c) (b2n farMem + b2n hit)

/-- What kind of memory a transfer's far side may be. -/
def farOk (lp : Bool) : Region → Bool
  | .tun _ => !lp
  | .lpddr .. => lp
  | .host => lp
  | _ => false

/-- Check the far side of a Tun or LPDDR transfer at its source. -/
def State.farCheck (s : State) (c chip : Nat) (lp write : Bool) (ps : List Piece) : Except Bad Unit :=
  let p := s.partOf c
  match ps.findSome? fun q => q.start.bind fun h =>
      let a := h / 2
      if chip ≠ s.ownChip then
        (if 0x100000000 ≤ a ∧ a < 0x120000000 then none else some (kDecode, chip, a))
      else if ¬ farOk lp (s.decode a) then some (kDecode, chip, a)
      else match s.checkByte p write a true with
        | .ok => none
        | .decode => some (kDecode, chip, a)
        | .isolation => some (kIsolation, chip, a) with
  | some b => .error b
  | none => .ok ()

/-- A core is of the issuing core's partition (R141). -/
def State.sameP (s : State) (c d : Nat) : Bool := s.coreOwner d == some (s.partOf c)

/-- Settle a check. -/
def Except.orFault (r : Except Bad α) (s : State) (f : α → IssueRes) : IssueRes :=
  match r with
  | .error (k, chip, a) => .fault k chip a s
  | .ok v => f v

/-- The two sides of a transfer, matched byte for byte (R106). -/
def State.sides (s : State) (c w : Nat) : Except Bad (List Half × List Half) := do
  let (dl, hl) ← s.useSlot c (bits w 16 13) false
  let (dr, hr) ← s.useSlot c (bits w 20 17) false
  if agCount dl * fmtNibs (dFmt dl) ≠ agCount dr * fmtNibs (dFmt dr) then .error (kXfer, s.ownChip, 0)
  else .ok (halves dl hl, halves dr hr)

/-- A T command waits while its tag is held (R92, R149). -/
def tagged (c w : Nat) (s : State) (f : Nat → IssueRes) : IssueRes :=
  let t := wTAG w
  if s.tagBusy c t then .stall stTag t s else f t

/-- LCOPY (R98, R135, R136). -/
def doLcopy (c w : Nat) (s : State) : IssueRes :=
  tagged c w s fun t => Except.orFault (s.sides c w) s fun (l, r) =>
    Except.orFault (s.halfKeysOf c l) s fun kl => Except.orFault (s.halfKeysOf c r) s fun kr =>
      .done ((s.startXfer ⟨c, t, .lcopy, cut (kr.zip kl)⟩ (bankMask kl ||| bankMask kr)).countBypass c false kl) none

/-- RWRITE (R106, R140, R141, R144). -/
def doRwrite (c w : Nat) (s : State) : IssueRes :=
  tagged c w s fun t => Except.orFault (s.sides c w) s fun (l, r) =>
    let dst := bits w 39 32
    let win := bits w 44 40
    let ps0 := cut (r.zip l)
    let len := (ps0.filter fun p => p.start.isSome).foldl (fun a p => a + p.len) 0
    let units := len / 128
    let total := s.rd (CORE_WIN_GEOM_UNITS dst win)
    let bad : IssueRes := .fault kXfer s.ownChip 0 s
    if ¬ s.sameP c dst then .fault kIsolation s.ownChip (coreKey dst 0) s
    else if ¬ s.on (CORE_WIN_BASE_VALID dst win) ∨ ¬ aligned 64 ps0 ∨
        ps0.any (fun p => match p.start with
          | some h => decide (64 * total < (h + p.len) / 2)
          | none => false) then bad
    else Except.orFault (s.halfKeysOf c l) s fun kl =>
      match s.entryFor c dst win with
      | none => .stall stCredit win s
      | some e =>
        let cur := s.rd (CORE_CRD_TGT_WCUR c e)
        let guarded := s.on (CORE_CRD_TGT_GUARDED c e)
        let starts := ps0.filterMap fun p => p.start.map fun h => (h, p.len)
        let inOrder := (starts.foldl (fun (a : Nat × Bool) q => (a.1 + q.2, a.2 && a.1 == q.1)) (128 * cur, true)).2
        if guarded ∧ ¬ (inOrder ∧ cur + units ≤ total) then bad
        else if s.rd (CORE_CRD_BAL_CREDIT c e) < units then .stall stCredit win s
        else
          let s1 := s.wr (CORE_CRD_BAL_CREDIT c e) (s.rd (CORE_CRD_BAL_CREDIT c e) - units)
          let s2 := if guarded then s1.wr (CORE_CRD_TGT_WCUR c e) ((cur + units) % max total 1) else s1
          .done ((s2.startXfer ⟨c, t, .rwrite dst win, cut (r.zip kl)⟩ (bankMask kl)).countBypass c false kl) none

/-- The shared part of the Tun and LPDDR transfers. -/
def doFar (c w chip : Nat) (lp write : Bool) (op : XOp) (s : State) : IssueRes :=
  tagged c w s fun t => Except.orFault (s.sides c w) s fun (l, r) =>
    let ps0 := cut (r.zip l)
    if ¬ aligned (if lp then 64 else 8) ps0 then .fault kXfer chip ((ps0.findSome? Piece.start).getD 0 / 2) s
    else Except.orFault (s.farCheck c chip lp write ps0) s fun _ =>
      Except.orFault (s.halfKeysOf c l) s fun kl =>
        .done ((s.startXfer ⟨c, t, op, cut (r.zip kl)⟩ (bankMask kl)).countBypass c true (if write then kl else [])) none

def doTunrd (c w : Nat) (s : State) : IssueRes := doFar c w (bits w 23 21) false false (.tunrd (bits w 23 21)) s
def doTunwr (c w : Nat) (s : State) : IssueRes :=
  let chip := bits w 23 21
  if bit w 45 ∧ chip = s.ownChip ∧ ¬ s.sameP c (bits w 39 32) then
    tagged c w s fun _ => .fault kIsolation s.ownChip (coreKey (bits w 39 32) 0) s
  else doFar c w chip false true (.tunwr chip (if bit w 45 then some (bits w 39 32, bits w 44 40) else none)) s
def doDramrd (c w : Nat) (s : State) : IssueRes := doFar c w s.ownChip true false .dramrd s
def doDramwr (c w : Nat) (s : State) : IssueRes := doFar c w s.ownChip true true .dramwr s

/-- Count a timing-dependent choice of a partition (R383): 0 CHOICE, 1 STALE, 2 TIMEOUT. -/
def State.detChoice (s : State) (p which : Nat) : State :=
  (s.bumpWrap (DET_CHOICES_COUNT p) 1).wr { PART_DET_STAT_CHOICE p with hi := which, lo := which } 1

/-- The word at CORE_PC is a choice point of a relaxed partition of class G, C or H (R382, R383). -/
def State.choicePoint (s : State) (c : Nat) : Bool :=
  mget (fun _ => false) s.core.choice (c * 2 ^ 24 + s.pc c) && s.on (PART_DET_CFG_RELAXED (s.partOf c)) &&
    s.classOf (s.partOf c) != 0

/-- TATOM (R105, R154, R156). -/
def doTatom (c w : Nat) (s : State) : IssueRes :=
  tagged c w s fun t =>
    let chip := bits w 15 13
    let addr := bits w 111 64
    let w64 := bit w 18
    let off := bits w 40 20
    let far : List Piece := [⟨[(some (2 * addr), 0)], []⟩]
    if addr % (if w64 then 8 else 4) ≠ 0 then .fault kDecode chip addr s
    else Except.orFault (s.farCheck c chip false true far) s fun _ =>
      Except.orFault (s.halfKeysOf c ((List.range 32).map fun i => (some (2 * off + i), 0))) s fun kl =>
        let s1 := (s.startXfer ⟨c, t, .tatom chip (bits w 17 16 == 1) w64 addr, [⟨[], kl⟩]⟩ (bankMask kl)).countBypass c true kl
        .done (if s.choicePoint c then s1.detChoice (s.partOf c) 0 else s1) none

/-- RSIGNAL (R139, R141). -/
def doRsignal (c w : Nat) (s : State) : IssueRes :=
  tagged c w s fun t =>
    let dst := bits w 39 32
    if ¬ s.sameP c dst then .fault kIsolation s.ownChip (coreKey dst 0) s
    else
      let s1 := s.holdTag c t 0 (s.pc c)
      .done ((s1.send ⟨.req, c, dst, s.partOf c, t, (s.tag c t).epoch, s.ownChip, .signal (bits w 44 40) (bits w 79 64)⟩).setTag
        c t { s1.tag c t with out := 1 }) none

def execLcopy (c : Fin 256) (s : State) : Out := .next (s.issueIf c 0x30 noTest (doLcopy c))
def execRwrite (c : Fin 256) (s : State) : Out := .next (s.issueIf c 0x31 noTest (doRwrite c))
def execTunrd (c : Fin 256) (s : State) : Out := .next (s.issueIf c 0x32 noTest (doTunrd c))
def execTunwr (c : Fin 256) (s : State) : Out := .next (s.issueIf c 0x33 noTest (doTunwr c))
def execTatom (c : Fin 256) (s : State) : Out := .next (s.issueIf c 0x34 noTest (doTatom c))
def execDramrd (c : Fin 256) (s : State) : Out := .next (s.issueIf c 0x35 noTest (doDramrd c))
def execDramwr (c : Fin 256) (s : State) : Out := .next (s.issueIf c 0x36 noTest (doDramwr c))
def execRsignal (c : Fin 256) (s : State) : Out := .next (s.issueIf c 0x38 noTest (doRsignal c))

end Sys2Proof.Machine
end

