-- ==== Sys2Proof/Machine/RegionOps.lean ====
section
/-! DEFINITION. The region operators CROPRS, BOXDEC and NMS (R114 to R119). -/

namespace Sys2Proof.Machine

/-- The fields of a region descriptor are words of its 64 bytes. -/
def rdWord (d off : Nat) : Nat := bits d (8 * off + 31) (8 * off)
def rdHalf (d off : Nat) : Nat := bits d (8 * off + 15) (8 * off)
def rdByte (d off : Nat) : Nat := bits d (8 * off + 7) (8 * off)

/-- Bytes of a run of core memory through the vector port, as half-byte keys. -/
def State.runHalves (s : State) (c half n : Nat) : Except Bad (List Nat) :=
  mapE (fun i => (s.localKey c pVector ((half + i) / 2)).map fun k => 2 * k + (half + i) % 2) (List.range n)

/-- The number of `n` half-bytes from a list of keys of an array of them. -/
def State.numAt (s : State) (ks : List Nat) : Nat := (s.elVal 0 (some ks)).1
def State.anyBad (s : State) (ks : List Nat) : Bool := ks.any fun k => s.poisoned (k / 2 / 64 * 64)
/-- The first poisoned granule of a list of half-byte keys. -/
def State.badGran (s : State) (ks : List Nat) : Option Nat :=
  (ks.find? fun k => s.poisoned (k / 2 / 64 * 64)).map fun k => k / 2 / 64 * 64

/-- The FP32 codes stored in a run of keys. -/
def State.words32 (s : State) (ks : List Nat) (n : Nat) : List Nat := (groupsOfN 8 n ks).map s.numAt

/-- Count reads of half-byte keys through the vector port, each byte once. -/
def State.countHalves (s : State) (ks : List Nat) : State :=
  (accessRuns 128 (dedup (ks.map (· / 2)))).foldl (fun a r => a.countRead r) s

/-- Read the region descriptor: BIND, poison and its bits (R95, R172). -/
def State.regionDesc (s : State) (c w : Nat) : Except Bad (Nat × State) := do
  let ks ← s.runHalves c (2 * bits w 32 12) 128
  match s.badGran ks with
  | some g => .error (kPoison, s.ownChip, g)
  | none => .ok (s.numAt ks, s.countHalves ks)

/-- What every region operator does at issue. -/
def regionOp (c w : Nat) (s : State) (f : Nat → State → IssueRes) : IssueRes :=
  if s.attnBusy c then .stall stQueue 0 s
  else match s.regionDesc c w with
  | .error (k, chip, a) => .fault k chip a s
  | .ok (d, s1) => f d s1

/-- Store a command's output through the vector port, all of it poisoned where an input was (R171). -/
def State.regionOut (s : State) (c : Nat) (pois : Bool) (nibs : List (Nat × Nat)) : State :=
  let s1 := if pois then (s.wr (CORE_ARITH_STATUS_POISON_IN c) 1).wr (CORE_ARITH_STATUS_POISON_OUT c) 1 else s
  s1.writeNibs (nibs.map fun n => (n.1, n.2, pois))

/-- The half-bytes of a number for keys. -/
def nibsOf (ks : List Nat) (v : Nat) : List (Nat × Nat) := ks.zipIdx.map fun p => (p.1, v / 16 ^ p.2 % 16)

/-! ### CROPRS (R114, R115) -/

/-- One axis of a sampling point: (i + 0.5) × h + y0 − 0.5, each step rounded. -/
def cropPoint (i n y0 y1 : Nat) : Nat :=
  let h := f32div (f32sub y1 y0) (fp32.encode (FVal.ofInt n))
  f32sub (f32fma (fp32.encode (.fin false (2 * i + 1) (-1))) h y0) 0x3F000000

/-- The floor of a finite code. -/
def f32floor (w : Nat) : Option Int :=
  match f32 w with
  | .fin s m e => some (floorInt s m e)
  | _ => none

/-- The keys of source element (y, x, ch), `none` outside the source. -/
def cropKeys (d : Nat) (y x : Int) (ch : Nat) : Option Nat :=
  let h := rdHalf d 4
  let w := rdHalf d 6
  let n := fmtNibs (rdByte d 0xA)
  if 0 ≤ y ∧ y < h ∧ 0 ≤ x ∧ x < w then some (2 * rdWord d 0 + ((y.toNat * w + x.toNat) * rdHalf d 8 + ch) * n) else none

/-- The value of a source place (an address in half-bytes) in FP32, EXTRAP outside. -/
def State.cropVal (s : State) (c d : Nat) (p : Option Nat) : Nat :=
  match p with
  | none => rdWord d 0x1C
  | some h =>
    let f := rdByte d 0xA
    match s.runHalves c h (fmtNibs f) with
    | .ok ks => fp32.encode (fmtVal f (s.numAt ks))
    | .error _ => 0

/-- A box's corners. -/
abbrev Box := Nat × Nat × Nat × Nat
def boxNan (b : Box) : Bool := (f32 b.1).isNan || (f32 b.2.1).isNan || (f32 b.2.2.1).isNan || (f32 b.2.2.2).isNan

/-- The source places of one output: four for bilinear, one for nearest; none for a NaN box. -/
def cropPlaces (d : Nat) (b : Box) (i j ch : Nat) : Option (List (Option Nat)) :=
  let (y0, x0, y1, x1) := b
  let sy := cropPoint i (rdByte d 0x12) y0 y1
  let sx := cropPoint j (rdByte d 0x13) x0 x1
  if rdByte d 0xB = 0 then
    match f32floor sy, f32floor sx with
    | some iy, some ix => some [cropKeys d iy ix ch, cropKeys d iy (ix + 1) ch, cropKeys d (iy + 1) ix ch, cropKeys d (iy + 1) (ix + 1) ch]
    | _, _ => none
  else
    match f32floor (f32add sy 0x3F000000), f32floor (f32add sx 0x3F000000) with
    | some iy, some ix => some [cropKeys d iy ix ch]
    | _, _ => none

/-- The FP32 value of one output; a point that is not finite has a free value. -/
def State.cropOut (s : State) (c d free : Nat) (b : Box) (i j ch : Nat) : Nat :=
  if boxNan b then rdWord d 0x1C
  else match cropPlaces d b i j ch with
  | none => (Config.cropSample free).toNat
  | some ps =>
    let v := ps.map (s.cropVal c d)
    match v with
    | [x] => x
    | [p, q, r, t] =>
      let frac (w : Nat) : Nat := match f32floor w with
        | some k => fp32.encode ((f32 w).add (FVal.ofInt k).neg)
        | none => 0
      let fy := frac (cropPoint i (rdByte d 0x12) b.1 b.2.2.1)
      let fx := frac (cropPoint j (rdByte d 0x13) b.2.1 b.2.2.2)
      let h0 := f32fma fx (f32sub q p) p
      let h1 := f32fma fx (f32sub t r) r
      f32fma fy (f32sub h1 h0) h0
    | _ => 0

/-- The legal values of R114. -/
def cropOk (d : Nat) : Bool :=
  decide (1 ≤ rdHalf d 4 ∧ 1 ≤ rdHalf d 6 ∧ 1 ≤ rdHalf d 8 ∧ rdHalf d 8 ≤ 4096) &&
    [0, 2, 3, 4, 5].contains (rdByte d 0xA) && decide (rdByte d 0xB ≤ 1 ∧ rdHalf d 0x10 ≤ 4096 ∧ 1 ≤ rdByte d 0x12 ∧
    rdByte d 0x12 ≤ 64 ∧ 1 ≤ rdByte d 0x13 ∧ rdByte d 0x13 ≤ 64 ∧ rdByte d 0x18 ≤ 6 ∧
    -8 ≤ toSigned 8 (rdByte d 0x19) ∧ toSigned 8 (rdByte d 0x19) ≤ 31 ∧ bits d 511 (8 * 0x24) = 0)

/-- The box, row, column and channel of each output of a CROPRS, in their order. -/
def cropOuts (d : Nat) : List (Nat × Nat × Nat × Nat) :=
  let oh := rdByte d 0x12
  let ow := rdByte d 0x13
  let ch := rdHalf d 8
  (List.range (rdHalf d 0x10 * oh * ow * ch)).map fun e => (e / (ow * ch * oh), e / (ow * ch) % oh, e / ch % ow, e % ch)

/-- Box k of a list of corners. -/
def boxAt (co : List Nat) (k : Nat) : Box := (co.getD (4 * k) 0, co.getD (4 * k + 1) 0, co.getD (4 * k + 2) 0, co.getD (4 * k + 3) 0)

/-- The half-byte keys a CROPRS uses: its boxes, outputs and status record, and the source elements it samples. -/
structure CropKeys where
  box : List Nat
  out : List Nat
  stat : List Nat
  src : List Nat

/-- Everything a CROPRS reaches, or the failure that stops it before it writes (R47, R95, R172). -/
def State.cropPlan (s : State) (c d : Nat) : Except Bad CropKeys := do
  let nb := rdHalf d 0x10
  let bk ← s.runHalves c (2 * rdWord d 0xC) (32 * nb)
  let ok ← s.runHalves c (2 * rdWord d 0x14) (fmtNibs (rdByte d 0x18) * (cropOuts d).length)
  let sk ← s.runHalves c (2 * rdWord d 0x20) 32
  match s.badGran bk with
  | some g => .error (kPoison, s.ownChip, g)
  | none =>
    let co := s.words32 bk (4 * nb)
    let src := dedup ((cropOuts d).flatMap fun o => if boxNan (boxAt co o.1) then [] else
      (((cropPlaces d (boxAt co o.1) o.2.1 o.2.2.1 o.2.2.2).getD []).filterMap id))
    let sks ← mapE (fun h => s.runHalves c h (fmtNibs (rdByte d 0xA))) src
    .ok ⟨bk, ok, sk, sks.flatMap id⟩

/-- The results of a CROPRS, in their order. -/
def State.cropRes (s : State) (c d : Nat) (k : CropKeys) : List OutRes :=
  let co := s.words32 k.box (4 * rdHalf d 0x10)
  let cfg : OutCfg := ⟨rdByte d 0x18, toSigned 8 (rdByte d 0x19), false, 0, 0, 0⟩
  (cropOuts d).zipIdx.map fun o =>
    outStage cfg (f32 (s.cropOut c d (s.free + o.2) (boxAt co o.1.1) o.1.2.1 o.1.2.2.1 o.1.2.2.2))

/-- CROPRS. -/
def doCroprs (c w : Nat) (s0 : State) : IssueRes :=
  regionOp c w s0 fun d s =>
    if ¬ cropOk d then .fault kDesc 0 0 s
    else Except.orFault (s.cropPlan c d) s fun k =>
      let n := fmtNibs (rdByte d 0x18)
      let nb := rdHalf d 0x10
      let total := (cropOuts d).length
      let co := s.words32 k.box (4 * nb)
      let pois := s.anyBad k.src
      let s1 := (s.countHalves k.box).countHalves k.src
      let s2 := { s1 with free := s1.free + total }
      let p := s2.outPrefix c (s.cropRes c d k)
      let s3 := p.1.foldl (fun a r => a.outFlags c r) s2
      let nibs := ((groupsOfN n total k.out).zip p.1).flatMap fun q => nibsOf q.1 q.2.code
      let nan := ((List.range nb).filter fun i => boxNan (boxAt co i)).length
      if p.2 then .fault kArith s.ownChip 0 (s3.regionOut c pois nibs)
      else .done ((s3.regionOut c pois nibs).regionOut c pois (nibsOf k.stat nan)) none

/-! ### BOXDEC (R116) -/

/-- The legal values of R116. -/
def boxOk (d : Nat) : Bool :=
  let free := bit d (8 * 0xC + 16)
  decide (1 ≤ rdHalf d 0xC ∧ rdHalf d 0xC ≤ 16384) &&
    (!free || decide (rdWord d 0x14 = 0 ∧ rdWord d 0x18 = 0 ∧ rdWord d 0x1C = 0 ∧ 1 ≤ rdHalf d 0x2C ∧ rdHalf d 0x2C ≤ 16384))

def f32half : Nat := 0x3F000000
def f32negHalf : Nat := 0xBF000000
def f32neg (w : Nat) : Nat := fp32.encode (f32 w).neg

/-- One decoded box: regressions r0..r3, anchor a0..a3, candidate number. -/
def boxOf (d : Nat) (r a : Nat × Nat × Nat × Nat) (n : Nat) : Box :=
  let raw : Box :=
    if bit d (8 * 0xC + 16) then
      let st := rdWord d 0x10
      let off := b2n (bit d (8 * 0xC + 18))
      let g := max (rdHalf d 0x2C) 1
      let pt (k : Nat) : Nat := f32mul (fp32.encode (.fin false (2 * k + off) (-1))) st
      let py := pt (n / g)
      let px := pt (n % g)
      let (l, t, rr, b) := r
      (f32fma (f32neg t) st py, f32fma (f32neg l) st px, f32fma b st py, f32fma rr st px)
    else
      let (dy, dx, dh, dw) := r
      let (ay, ax, ah, aw) := a
      let h := f32mul ah (f32exp (f32min (f32mul dh (rdWord d 0x18)) (rdWord d 0x20)))
      let w := f32mul aw (f32exp (f32min (f32mul dw (rdWord d 0x1C)) (rdWord d 0x20)))
      let cy := f32fma (f32mul dy (rdWord d 0x10)) ah ay
      let cx := f32fma (f32mul dx (rdWord d 0x14)) aw ax
      (f32fma f32negHalf h cy, f32fma f32negHalf w cx, f32fma f32half h cy, f32fma f32half w cx)
  if bit d (8 * 0xC + 17) then
    let cl (v m : Nat) : Nat := f32min (f32max v 0) m
    (cl raw.1 (rdWord d 0x24), cl raw.2.1 (rdWord d 0x28), cl raw.2.2.1 (rdWord d 0x24), cl raw.2.2.2 (rdWord d 0x28))
  else raw

/-- BOXDEC. -/
def doBoxdec (c w : Nat) (s0 : State) : IssueRes :=
  regionOp c w s0 fun d s =>
    if ¬ boxOk d then .fault kDesc 0 0 s
    else
      let n := rdHalf d 0xC
      Except.orFault (s.runHalves c (2 * rdWord d 0) (32 * n)) s fun ik =>
      Except.orFault (if bit d (8 * 0xC + 16) then .ok [] else s.runHalves c (2 * rdWord d 4) (32 * n)) s fun ak =>
      Except.orFault (s.runHalves c (2 * rdWord d 8) (32 * n)) s fun ok =>
        let iv := s.words32 ik (4 * n)
        let av := s.words32 ak (if ak.isEmpty then 0 else 4 * n)
        let pois := s.anyBad (ik ++ ak)
        let res := (List.range n).flatMap fun k =>
          let b := boxOf d (boxAt iv k) (boxAt av k) k
          [b.1, b.2.1, b.2.2.1, b.2.2.2]
        let s1 := (s.countHalves ik).countHalves ak
        .done (s1.regionOut c pois (((groupsOfN 8 (4 * n) ok).zip res).flatMap fun q => nibsOf q.1 q.2)) none

/-! ### NMS (R117, R118) -/

/-- A box with its corners in order. -/
def boxNorm (b : Box) : Box :=
  let (y0, x0, y1, x1) := b
  let (y0, y1) := if (f32 y1).lt (f32 y0) then (y1, y0) else (y0, y1)
  let (x0, x1) := if (f32 x1).lt (f32 x0) then (x1, x0) else (x0, x1)
  (y0, x0, y1, x1)

def boxArea (b : Box) : Nat := f32mul (f32sub b.2.2.1 b.1) (f32sub b.2.2.2 b.2.1)

/-- Does a kept box suppress another (R118). -/
def suppresses (thr : Nat) (k i : Box) : Bool :=
  let a := boxNorm k
  let b := boxNorm i
  let ih := f32max 0 (f32sub (f32min a.2.2.1 b.2.2.1) (f32max a.1 b.1))
  let iw := f32max 0 (f32sub (f32min a.2.2.2 b.2.2.2) (f32max a.2.1 b.2.1))
  let inter := f32mul ih iw
  let union := f32sub (f32add (boxArea a) (boxArea b)) inter
  (f32 (f32mul thr union)).lt (f32 inter)

/-- Put a candidate (score, index) into a list sorted by descending score, equal scores by ascending index. -/
def sortIn (x : Nat × Nat) : List (Nat × Nat) → List (Nat × Nat)
  | [] => [x]
  | y :: t => if (f32 y.1).lt (f32 x.1) then x :: y :: t else y :: sortIn x t

/-- The candidates a class keeps, in order. -/
def nmsKeep (thr lim : Nat) (box : Nat → Box) : List (Nat × Nat) → List Nat → List Nat
  | [], kept => kept
  | (_, i) :: t, kept =>
    if lim ≤ kept.length then kept
    else if kept.any fun k => suppresses thr (box k) (box i) then nmsKeep thr lim box t kept
    else nmsKeep thr lim box t (kept ++ [i])

/-- The legal values of R117. -/
def nmsOk (d : Nat) : Bool :=
  let thr := f32 (rdWord d 0x14)
  decide (rdHalf d 0xC ≤ 16384 ∧ 1 ≤ rdHalf d 0xE ∧ rdHalf d 0xE ≤ 256 ∧ 1 ≤ rdHalf d 0x10 ∧ rdHalf d 0x10 ≤ 16384 ∧
    bits d 511 (8 * 0x20) = 0) && !thr.isNan && !thr.lt (.fin false 0 0) && !(FVal.lt (.fin false 1 0) thr) &&
    !(f32 (rdWord d 0x18)).isNan

/-- The candidates that class q keeps, in order: n candidates, box corners and scores (R118). -/
def nmsClass (d n : Nat) (bv sv : Array Nat) (q : Nat) : List Nat :=
  let box (i : Nat) : Box :=
    let o := 4 * (if bit d (8 * 0x10 + 16) then q * n + i else i)
    (bv.getD o 0, bv.getD (o + 1) 0, bv.getD (o + 2) 0, bv.getD (o + 3) 0)
  let cand := (List.range n).filter fun i =>
    (f32 (rdWord d 0x18)).lt (f32 (sv.getD (q * n + i) 0)) && !boxNan (box i)
  nmsKeep (rdWord d 0x14) (rdHalf d 0x10) box (cand.foldl (fun l i => sortIn (sv.getD (q * n + i) 0, i) l) []) []

/-- Bytes of a class's record (R117). -/
def nmsRec (d : Nat) : Nat := (4 + 2 * rdHalf d 0x10 + 3) / 4 * 4

/-- NMS. -/
def doNms (c w : Nat) (s0 : State) : IssueRes :=
  regionOp c w s0 fun d s =>
    if ¬ nmsOk d then .fault kDesc 0 0 s
    else
      let n := rdHalf d 0xC
      let cls := rdHalf d 0xE
      let nbx := if bit d (8 * 0x10 + 16) then cls * n else n
      Except.orFault (s.runHalves c (2 * rdWord d 0) (32 * nbx)) s fun bk =>
      Except.orFault (s.runHalves c (2 * rdWord d 4) (8 * cls * n)) s fun sk =>
      Except.orFault (s.runHalves c (2 * rdWord d 8) (2 * cls * nmsRec d)) s fun ok =>
      Except.orFault (s.runHalves c (2 * rdWord d 0x1C) (16 * n)) s fun tk =>
        let bv := (s.words32 bk (4 * nbx)).toArray
        let sv := (s.words32 sk (cls * n)).toArray
        let pois := s.anyBad (bk ++ sk)
        let nibs := ((groupsOfN (2 * nmsRec d) cls ok).zipIdx.flatMap fun p =>
          let kept := nmsClass d n bv sv p.2
          nibsOf (p.1.take 8) kept.length ++
            (((groupsOfN 4 kept.length (p.1.drop 8)).zip kept).flatMap fun q => nibsOf q.1 q.2))
        let fr := s.free
        let work := tk.zipIdx.map fun p => (p.1, (Config.nmsScratch fr (p.2 / 2)).toNat / 16 ^ (p.2 % 2) % 16)
        let s1 := { ((s.countHalves bk).countHalves sk) with free := fr + 1 }
        .done ((s1.regionOut c pois work).regionOut c pois nibs) none

def execCroprs (c : Fin 256) (s : State) : Out := .next (s.issueIf c 0x40 noTest (doCroprs c))
def execBoxdec (c : Fin 256) (s : State) : Out := .next (s.issueIf c 0x41 noTest (doBoxdec c))
def execNms (c : Fin 256) (s : State) : Out := .next (s.issueIf c 0x42 noTest (doNms c))

end Sys2Proof.Machine
end

