-- ==== Sys2Proof/Machine/Attention.lean ====
section
/-! DEFINITION. ATTN and the key-value cache (R185 to R212): the descriptor, the pools, append with claims, fork, release,
move and the attention arithmetic. -/

namespace Sys2Proof.Machine

/-! ### The descriptor (R188) -/

/-- Bits of the descriptor word at a byte offset. -/
def aF (d off hi lo : Nat) : Nat := bits d (8 * off + hi) (8 * off + lo)

def aLentab (d : Nat) : Nat := aF d 0 47 0
def aPtab (d : Nat) : Nat := aF d 8 47 0
def aMaxpg (d : Nat) : Nat := aF d 8 63 48
def aSeq0 (d : Nat) : Nat := aF d 0x10 15 0
def aNseq (d : Nat) : Nat := aF d 0x10 31 16
def aPooloff (d : Nat) : Nat := aF d 0x14 20 0
def aSl0 (d : Nat) : Nat := aF d 0x18 7 0
def aNsl (d : Nat) : Nat := aF d 0x18 15 8 + 1
def aLfmt (d : Nat) : Nat := aF d 0x18 19 16
def aLdim (d : Nat) : Nat := 64 * aF d 0x18 28 24
def aHeads (d : Nat) : Nat := aF d 0x1C 6 0 + 1
def aHdim (d : Nat) : Nat := if aF d 0x1C 7 7 = 0 then 64 else 128
def aMode (d : Nat) : Nat := aF d 0x1C 9 8
def aOfmt (d : Nat) : Nat := aF d 0x1C 13 10
def aOshift (d : Nat) : Int := toSigned 6 (aF d 0x1C 19 14)
def aSpill (d : Nat) : Nat := aF d 0x20 47 0
def aMask (d : Nat) : Nat := aF d 0x28 47 0
def aQ (d : Nat) : Nat := aF d 0x30 31 0
def aOut (d : Nat) : Nat := aF d 0x34 31 0
def aWuk (d : Nat) : Nat := aF d 0x38 31 0
def aWuv (d : Nat) : Nat := aF d 0x3C 31 0
def aNewlat (d : Nat) : Nat := aF d 0x40 31 0
def aStat (d : Nat) : Nat := aF d 0x44 31 0
def aScale (d : Nat) : Nat := aF d 0x48 31 0
def aSA (d : Nat) : Nat := aF d 0x4C 3 0
def aSB (d : Nat) : Nat := aF d 0x4C 7 4
def aTag0 (d : Nat) : Nat := aF d 0x4C 12 8
def aAcch (d : Nat) : Nat := aF d 0x4C 13 13
def aVhalf (d : Nat) : Nat := aF d 0x4C 14 14
def aMoves (d : Nat) : Nat := aF d 0x50 20 0
def aNmove (d : Nat) : Nat := aF d 0x54 15 0
def aFsrc (d : Nat) : Nat := aF d 0x58 15 0
def aFlen (d : Nat) : Nat := aF d 0x5C 31 0

/-- Bytes of a latent and of a page. -/
def aTB (d : Nat) : Nat := aLdim d * (fmtNibs (aLfmt d) / 2)
def aPB (d : Nat) : Nat := 64 * aTB d

/-- The operation appends, and the operation attends. -/
def opAppends (o : Nat) : Bool := o == 1 || o == 2
def opAttends (o : Nat) : Bool := o == 0 || o == 2

/-- The legal values of R188, of the fields the operation uses. -/
def attnOk (o d : Nat) : Bool :=
  decide (aPtab d % 4 = 0 ∧ 1 ≤ aMaxpg d ∧ aMaxpg d ≤ 4096 ∧ aPooloff d % 64 = 0 ∧ aSl0 d + aNsl d ≤ 256 ∧
    2 ≤ aLfmt d ∧ aLfmt d ≤ 4 ∧ 4 ≤ aF d 0x18 28 24 ∧ aF d 0x18 28 24 ≤ 16 ∧ aStat d % 64 = 0 ∧ aTag0 d ≤ 24 ∧
    bits d 1023 (8 * 0x60) = 0) &&
  (o == 5 || decide (aLentab d % 16 = 0 ∧ aSeq0 d ≤ 4095 ∧ 1 ≤ aNseq d ∧ aNseq d ≤ 4096 ∧ aSeq0 d + aNseq d ≤ 4096)) &&
  (!(opAttends o) || decide (aMode d ≠ 3 ∧ 2 ≤ aOfmt d ∧ aOfmt d ≤ 5 ∧ -8 ≤ aOshift d ∧ aQ d % 64 = 0 ∧ aOut d % 64 = 0 ∧
    aWuk d % 64 = 0 ∧ aWuv d % 64 = 0 ∧ bits (aScale d) 30 23 ≠ 255 ∧ (aMode d = 2 → aMask d % 64 = 0))) &&
  (!(opAppends o) || decide (aNewlat d % 64 = 0)) &&
  (!(opAttends o || o == 5) || decide (aSA d ≤ 11 ∧ aSB d ≤ 11 ∧ aSA d ≠ aSB d ∧ aSpill d % 64 = 0)) &&
  (o != 5 || decide (aMoves d % 8 = 0 ∧ aNmove d ≤ 4096)) &&
  (o != 3 || decide (aFsrc d ≤ 4095 ∧ 1 ≤ aFlen d ∧ aFlen d ≤ aMaxpg d * 64))

/-! ### Running: failure keeps what was done before it (R203) -/

/-- What an ATTN carries beside the state: its core, its descriptor, its counts and the conversions of R207 that raised a
flag. -/
structure ARun where
  s : State
  cnt : AttnCnt
  flags : List OutRes

/-- An ATTN's actions. -/
abbrev AM := ExceptT Bad (StateM ARun)

def aState : AM State := do return (← get).s
def aMod (f : State → State) : AM Unit := modify fun x => { x with s := f x.s }
def aCnt (f : AttnCnt → AttnCnt) : AM Unit := modify fun x => { x with cnt := f x.cnt }
def aFlag (r : List OutRes) : AM Unit :=
  modify fun x => { x with flags := x.flags ++ r.filter fun o => o.sat || o.nan || o.ovf }
def aFail {α : Type} (kind addr : Nat) : AM α := do throw (kind, (← aState).ownChip, addr)
def aDesc {α : Type} : AM α := throw (kDesc, 0, 0)

/-- Check an access to the Tun or, where `lp`, to LPDDR: it must be the partition's own (R212). -/
def aCheck (c : Nat) (lp : Bool) (a len : Nat) : AM Unit := do
  let s ← aState
  match s.checkRun (s.partOf c) true a (max len 1) with
  | .decode => aFail kDecode a
  | .isolation => aFail kIsolation a
  | .ok =>
    match s.decode a, lp with
    | .tun _, false => return ()
    | .lpddr .., true => return ()
    | _, _ => aFail kIsolation a

/-- Read bytes, marks carried. -/
def aData (c : Nat) (lp : Bool) (a len : Nat) : AM (List MByte) := do
  aCheck c lp a len
  let r := (← aState).blkRead a len
  aMod fun _ => r.2
  return r.1

/-- Read a value that forms addresses: poison bites (R211). -/
def aNum (c a len : Nat) : AM Nat := do
  let r ← aData c false a len
  if anyPois r then aFail kPoison (a / 64 * 64) else return leNum r

/-- Write bytes. -/
def aPut (c : Nat) (lp : Bool) (a : Nat) (data : List MByte) : AM Unit := do
  aCheck c lp a data.length
  aMod fun s => s.blkWrite a data
def aPutNum (c a len v : Nat) : AM Unit := aPut c false a (leBytes len v)

/-- Keys of a run of the own core's memory through a port. -/
def aLocal (c port off len : Nat) : AM (List Nat) := do
  match (← aState).runLocal c port off len with
  | .ok ks => return ks
  | .error b => throw b

/-- Read a run of the own core's memory. -/
def aCore (c port off len : Nat) : AM (List MByte) := do
  let ks ← aLocal c port off len
  let r := (← aState).readKeys 128 ks
  aMod fun _ => r.2
  return r.1

/-! ### Pools (R191, R211) -/

/-- A page: pool slice and local number. -/
abbrev Page := Nat × Nat

def poolBase (d sl : Nat) : Nat := 0x100000000 + sl * 0x200000 + aPooloff d
/-- NP of a pool slice; the region must be legal and end within the slice. -/
def aNP (c d sl : Nat) : AM Nat := do
  let np ← aNum c (poolBase d sl) 4
  if np = 0 ∨ 65535 < np ∨ 0x200000 < aPooloff d + (64 + 4 * np + 63) / 64 * 64 + np * aPB d then aDesc else return np
def rcAddr (d : Nat) (p : Page) : Nat := poolBase d p.1 + 0x40 + 2 * p.2
def pageAddr (d np : Nat) (p : Page) : Nat := poolBase d p.1 + (64 + 4 * np + 63) / 64 * 64 + p.2 * aPB d
def stackAddr (d np sl i : Nat) : Nat := poolBase d sl + 0x40 + 2 * np + 2 * i

/-- Pop a page of a slice, if it has one. -/
def aPop (c d sl : Nat) : AM (Option Nat) := do
  let np ← aNP c d sl
  let top ← aNum c (poolBase d sl + 4) 4
  if np < top then aDesc
  else if top = 0 then
    let n ← aNum c (poolBase d sl + 0xC) 4
    aPutNum c (poolBase d sl + 0xC) 4 (n + 1)
    return none
  else
    let e ← aNum c (stackAddr d np sl (top - 1)) 2
    if np ≤ e then aDesc
    else
      aPutNum c (poolBase d sl + 4) 4 (top - 1)
      aCnt fun x => { x with pops := x.pops + 1 }
      return some e

/-- Push a page onto its slice's stack. -/
def aPush (c d : Nat) (p : Page) : AM Unit := do
  let np ← aNP c d p.1
  let top ← aNum c (poolBase d p.1 + 4) 4
  if np ≤ top then aDesc
  else
    aPutNum c (stackAddr d np p.1 top) 2 p.2
    aPutNum c (poolBase d p.1 + 4) 4 (top + 1)
    aCnt fun x => { x with pushes := x.pushes + 1 }

/-- Try the pool slices in order. -/
def aPopFrom (c d : Nat) : List Nat → AM Page
  | [] => aDesc
  | sl :: t => do
    match ← aPop c d sl with
    | some n => return (sl, n)
    | none => aPopFrom c d t

/-- A fresh page for sequence q, its RC 1 (R196). -/
def aFresh (c d q : Nat) : AM Page := do
  let n := aNsl d
  let p ← aPopFrom c d ((List.range n).map fun i => aSl0 d + (q + i) % n)
  aPutNum c (rcAddr d p) 2 1
  return p

/-! ### Page tables and the length table (R193, R194) -/

def ptAddr (d q i : Nat) : Nat := aPtab d + (q * aMaxpg d + i) * 4
def lenAddr (d q : Nat) : Nat := aLentab d + 16 * q
/-- CTX, NQ and MOFF of a sequence. -/
def aLen (c d q : Nat) : AM (Nat × Nat × Nat) := do
  let v ← aNum c (lenAddr d q) 16
  if aMaxpg d * 64 < bits v 31 0 then aDesc else return (bits v 31 0, bits v 47 32, bits v 95 64)

/-- The Tun page an entry maps; DESC otherwise (R193, R205). -/
def aTunPage (c d e : Nat) : AM Page := do
  if ¬ bit e 31 ∨ bit e 30 then aDesc
  else
    let p : Page := (bits e 23 16, bits e 15 0)
    if p.1 < aSl0 d ∨ aSl0 d + aNsl d ≤ p.1 then aDesc
    else
      let np ← aNP c d p.1
      if np ≤ p.2 then aDesc else return p

/-- The entry that maps a page. -/
def pageEntry (p : Page) : Nat := 2 ^ 31 + p.1 * 2 ^ 16 + p.2

/-- The place of a Tun page. -/
def aPlace (c d : Nat) (p : Page) : AM Nat := do return pageAddr d (← aNP c d p.1) p

/-! ### APPEND (R195, R196) -/

/-- Write the new latents of sequence q from token position i on. -/
def aLatents (c d q row ctx : Nat) (ks : List Nat) : AM Unit :=
  ks.forM fun i => do
    let pos := ctx + i
    let p ← aTunPage c d (← aNum c (ptAddr d q (pos / 64)) 4)
    let data ← aCore c pTransfer (aNewlat d + (row + i) * aTB d) (aTB d)
    aPut c false ((← aPlace c d p) + pos % 64 * aTB d) data

/-- The rest of a sequence's append, its claim (where it needed one) granted. -/
def aAppendRest (c d q row ctx nq : Nat) : AM Unit := do
  let first := (ctx + 63) / 64
  let last := (ctx + nq + 63) / 64
  ((List.range (last - first)).map (first + ·)).forM fun i => do
    let p ← aFresh c d q
    aPutNum c (ptAddr d q i) 4 (pageEntry p)
  aLatents c d q row ctx (List.range nq)
  aPutNum c (lenAddr d q) 4 (ctx + nq)

/-- Append the sequences of a list until one needs a claim: that sequence, its row and the claim, or none. -/
def aAppend (c d : Nat) : List Nat → Nat → AM (Option (Nat × Nat × Claim))
  | [], _ => return none
  | q :: t, row => do
    let (ctx, nq, _) ← aLen c d q
    if nq = 0 then aAppend c d t row
    else if aMaxpg d * 64 < ctx + nq then aDesc
    else if ctx % 64 ≠ 0 then do
      let p ← aTunPage c d (← aNum c (ptAddr d q (ctx / 64)) 4)
      return some (q, row, ⟨c, p.1, p.2, q, ctx⟩)
    else do
      aAppendRest c d q row ctx nq
      aAppend c d t (row + nq)

/-! ### The attention arithmetic (R205 to R209) -/

/-- A dot product of a floating-point pairing added to a word (R63): K-steps of `st`, each by the pairwise tree. -/
def fpDot (f st n init : Nat) (a b : Nat → Nat) : Nat :=
  (List.range (n / st)).foldl (fun acc j =>
    f32add acc (treeReduce f32add st.log2 ((List.range st).map fun i =>
      fp32.encode ((fmtVal f (a (j * st + i))).mul (fmtVal f (b (j * st + i))))))) init

/-- Through the output stage to BF16 with OSHIFT 0 (R68, R207). -/
def toBf16 (w : Nat) : OutRes := outStage ⟨4, 0, false, 0, 0, 0⟩ (f32 w)

/-- Numbers of n bytes each. -/
def numsOf (n : Nat) (l : List MByte) : Array Nat := ((groupsOfN n (l.length / n) l).map leNum).toArray

/-- One key tile as read: the latents of its tokens, in LFMT, and its unmasked keys by query row of the tile. -/
structure KeyTile where
  lat : Array Nat
  keys : Nat
  pois : Bool
  unm : List (List Bool)

/-- K and V of a tile for one head: the conversions, 64 keys × D (keys not in the cache as +0). -/
def expand (d : Nat) (kt : KeyTile) (w : Array Nat) : Array OutRes :=
  let ld := aLdim d
  let hd := aHdim d
  ((List.range 64).flatMap fun k => (List.range hd).map fun x =>
    if k < kt.keys then
      toBf16 (fpDot (aLfmt d) (if aLfmt d = 4 then 16 else 32) ld 0 (fun i => kt.lat.getD (k * ld + i) 0) (fun i => w.getD (i * hd + x) 0))
    else ⟨0, false, false, false⟩).toArray

def resCode (a : Array OutRes) (i : Nat) : Nat := (a.getD i ⟨0, false, false, false⟩).code

/-- The running state of a row and head. -/
structure RowSt where
  m : Nat
  l : Nat
  o : List Nat

def f32negInf : Nat := 0xFF800000

/-- One row's update by one tile (R207), with the conversions it made. -/
def rowStep (d : Nat) (q : Nat → Nat) (kk vv : Array OutRes) (u : List Bool) (r : RowSt) : RowSt × List OutRes :=
  let hd := aHdim d
  if u.all (!·) then (r, [])
  else
    let s := u.zipIdx.map fun p => if p.1 then
      f32mul (fpDot 4 16 hd 0 q (fun i => resCode kk (p.2 * hd + i))) (aScale d) else 0
    let mt := (u.zip s).foldl (fun (a : Option Nat) p => if p.1 then some (match a with
      | none => p.2
      | some x => f32max x p.2) else a) none
    let m2 := f32max r.m (mt.getD f32negInf)
    if m2 = f32negInf then (r, [])
    else
      let c := f32exp (f32sub r.m m2)
      let p := (u.zip s).map fun x => if x.1 then f32exp (f32sub x.2 m2) else 0
      let pb := (p.map toBf16).toArray
      (⟨m2, f32fma c r.l (treeReduce f32add 6 p), r.o.zipIdx.map fun x =>
        fpDot 4 16 64 (f32mul c x.1) (fun k => resCode pb k) (fun k => resCode vv (k * hd + x.2))⟩, pb.toList)

/-- One head over all tiles of a query tile: the rows' states and the conversions in order. -/
def headRun (d rows : Nat) (q : Nat → Nat → Nat) (wk wv : Array Nat) (ts : List KeyTile) : List RowSt × List OutRes :=
  ts.foldl (fun acc kt =>
    let kk := expand d kt wk
    let vv := expand d kt wv
    let r := (acc.1.zip kt.unm).zipIdx.map fun x => rowStep d (q x.2) kk vv x.1.2 x.1.1
    (r.map (·.1), acc.2 ++ kk.toList ++ vv.toList ++ r.flatMap (·.2)))
    (List.replicate rows ⟨f32negInf, 0, List.replicate (aHdim d) 0⟩, [])

/-- The rows of unmasked bits of a tile (R206). -/
def unmasked (d L nq j0 rows t : Nat) (mask : List (List MByte)) : List (List Bool) :=
  (List.range rows).map fun i => (List.range 64).map fun x =>
    let k := 64 * t + x
    let j := j0 + i
    decide (k < L) && (match aMode d with
      | 0 => true
      | 1 => decide (k ≤ L - nq + j)
      | _ => bit ((((mask.getD i []).getD (k / 8) (0, false)).1).toNat) (k % 8))

/-- An output of ATTEND: row, head, its elements through the output stage, and its mark. -/
abbrev AOut := Nat × Nat × List OutRes × Bool

/-- The latents of page entry t of sequence q: the cached tokens of it (R205, R208). -/
def aPage (c d q t L : Nat) : AM (List MByte) := do
  let e ← aNum c (ptAddr d q t) 4
  let n := min 64 (L - 64 * t) * aTB d
  if bit e 31 ∧ bit e 30 then aData c true (aSpill d + bits e 29 0 * aPB d) n
  else
    let p ← aTunPage c d e
    aData c false (← aPlace c d p) n

/-- ATTEND of one query tile of a sequence. -/
def aTile (c d q row L nq moff j0 : Nat) : AM (List AOut) := do
  let rows := min 64 (nq - j0)
  let rs := 8 * ((L + 63) / 64)
  let mask ← if aMode d = 2 then (List.range rows).mapM fun i => do
      let a := aMask d + 64 * moff + (j0 + i) * rs
      let b ← aData c false a rs
      if anyPois b then aFail kPoison (a / 64 * 64) else return b
    else pure []
  let es := fmtNibs (aLfmt d) / 2
  let tiles ← (List.range ((L + 63) / 64)).mapM fun t => do
    let u := unmasked d L nq j0 rows t mask
    if u.all fun r => r.all (!·) then
      aCnt fun x => { x with skipped := x.skipped + aHeads d }
      pure none
    else do
      let b ← aPage c d q t L
      aCnt fun x => { x with tiles := x.tiles + aHeads d }
      pure (some (⟨numsOf es b, min 64 (L - 64 * t), anyPois b, u⟩ : KeyTile))
  let ts := tiles.filterMap id
  let hd := aHdim d
  let outs ← (List.range (aHeads d)).mapM fun h => do
    let wk ← aCore c pMatrix (aWuk d + h * aLdim d * hd * es) (aLdim d * hd * es)
    let wv ← aCore c pMatrix (aWuv d + h * aLdim d * hd * es) (aLdim d * hd * es)
    let qs ← (List.range rows).mapM fun i => aCore c pMatrix (aQ d + ((row + j0 + i) * aHeads d + h) * hd * 2) (hd * 2)
    let qa := (qs.map (numsOf 2)).toArray
    let r := headRun d rows (fun i x => (qa.getD i #[]).getD x 0) (numsOf es wk) (numsOf es wv) ts
    aFlag r.2
    let cfg : OutCfg := ⟨aOfmt d, aOshift d, false, 0, 0, 0⟩
    let pois := anyPois wk || anyPois wv || ts.any (·.pois)
    (r.1.zip qs).zipIdx.mapM fun x => do
      let st := x.1.1
      let res : List OutRes ← if st.l = 0 then do
          aCnt fun y => { y with zeros := y.zeros + 1 }
          pure (List.replicate hd ⟨0, false, false, false⟩)
        else pure (st.o.map fun o => outStage cfg (f32 (f32mul o (f32rcp st.l))))
      return (row + j0 + x.2, h, res, pois || anyPois x.1.2)
  return outs.flatMap id

/-- ATTEND of the sequences of a list, from a query row on. -/
def aAttend (c d : Nat) : List Nat → Nat → AM (List AOut)
  | [], _ => return []
  | q :: t, row => do
    let (L, nq, moff) ← aLen c d q
    if nq = 0 then aAttend c d t row
    else if L < nq then aDesc
    else do
      let outs ← (List.range ((nq + 63) / 64)).mapM fun i => aTile c d q row L nq moff (64 * i)
      let rest ← aAttend c d t (row + nq)
      return outs.flatMap id ++ rest

/-- Write the outputs (R70, R190, R207). -/
def aOutputs (c d : Nat) (outs : List AOut) : AM Unit := do
  let s0 ← aState
  let fl := (← get).flags
  let hd := aHdim d
  let n := fmtNibs (aOfmt d) / 2
  let pre := s0.outPrefix c fl
  aMod fun s => pre.1.foldl (fun a r => a.outFlags c r) s
  if pre.2 then aFail kArith 0
  let mut bad := false
  for o in outs do
    let ks ← aLocal c pVector (aOut d + (o.1 * aHeads d + o.2.1) * hd * n) (hd * n)
    if !bad then
      let s ← aState
      let p := s.outPrefix c o.2.2.1
      let s1 := p.1.foldl (fun a r => a.outFlags c r) s
      let s2 := if o.2.2.2 then (s1.wr (CORE_ARITH_STATUS_POISON_IN c) 1).wr (CORE_ARITH_STATUS_POISON_OUT c) 1 else s1
      let bytes := p.1.flatMap fun r => (leBytes n r.code).map fun b => (b.1, o.2.2.2)
      aMod fun _ => s2.writeKeys (ks.zip bytes)
      bad := p.2
  if bad then aFail kArith 0

/-! ### FORK, RELEASE, MOVE (R201, R202, R204) -/

def aSeqs (d : Nat) : List Nat := (List.range (aNseq d)).map (aSeq0 d + ·)

/-- FORK. -/
def aFork (c d : Nat) : AM Unit := do
  let n := (aFlen d + 63) / 64
  if aSeq0 d ≤ aFsrc d ∧ aFsrc d < aSeq0 d + aNseq d then aDesc
  let (ctx, _, _) ← aLen c d (aFsrc d)
  if ctx < aFlen d then aDesc
  (aSeqs d).forM fun q => do
    let (x, _, _) ← aLen c d q
    if x ≠ 0 then aDesc
  let pages ← (List.range n).mapM fun i => do aTunPage c d (← aNum c (ptAddr d (aFsrc d) i) 4)
  pages.forM fun p => do
    let rc ← aNum c (rcAddr d p) 2
    if 65535 < rc + aNseq d then aDesc else aPutNum c (rcAddr d p) 2 (rc + aNseq d)
  (aSeqs d).forM fun q => do
    pages.zipIdx.forM fun x => aPutNum c (ptAddr d q x.2) 4 (pageEntry x.1)
    aPutNum c (lenAddr d q) 4 (aFlen d)

/-- RELEASE. -/
def aRelease (c d : Nat) : AM Unit :=
  (aSeqs d).forM fun q => do
    let (ctx, _, _) ← aLen c d q
    (List.range ((ctx + 63) / 64)).forM fun i => do
      let e ← aNum c (ptAddr d q i) 4
      if bit e 31 ∧ ¬ bit e 30 then do
        let p ← aTunPage c d e
        let rc ← aNum c (rcAddr d p) 2
        if rc = 0 then aDesc
        else do
          aPutNum c (rcAddr d p) 2 (rc - 1)
          if rc = 1 then aPush c d p
      aPutNum c (ptAddr d q i) 4 0
    aPutNum c (lenAddr d q) 4 0

/-- One entry of a move list. -/
def aMove (c d i : Nat) : AM Unit := do
  let b ← aCore c pVector (aMoves d + 8 * i) 8
  if anyPois b then do
    match (← aLocal c pVector (aMoves d + 8 * i) 8) with
    | k :: _ => aFail kPoison (k / 64 * 64)
    | [] => aDesc
  let v := leNum b
  let q := bits v 15 0
  let idx := bits v 27 16
  let slot := bits v 63 32
  let refuse : AM Unit := aCnt fun x => { x with refused := x.refused + 1 }
  if bits v 31 29 ≠ 0 ∨ aMaxpg d ≤ idx ∨ 4095 < q then aDesc
  let e ← aNum c (ptAddr d q idx) 4
  if bit v 28 then
    if bit e 31 ∧ bit e 30 then do
      let p ← aFresh c d q
      let data ← aData c true (aSpill d + bits e 29 0 * aPB d) (aPB d)
      aPut c false (← aPlace c d p) data
      aPutNum c (ptAddr d q idx) 4 (pageEntry p)
    else refuse
  else if 2 ^ 30 ≤ slot ∨ ¬ bit e 31 ∨ bit e 30 then refuse
  else do
    let p ← aTunPage c d e
    let rc ← aNum c (rcAddr d p) 2
    if rc ≠ 1 then refuse
    else do
      let data ← aData c false (← aPlace c d p) (aPB d)
      aPut c true (aSpill d + slot * aPB d) data
      aPutNum c (ptAddr d q idx) 4 (2 ^ 31 + 2 ^ 30 + slot)
      aPutNum c (rcAddr d p) 2 0
      aPush c d p

/-! ### The command -/

/-- What an ATTN leaves of its working space: free values (R190). -/
def State.attnScratch (s : State) (c o d : Nat) : State :=
  let r := s.draw
  let n := r.1
  let stage := if opAttends o || o == 5 then [aSA d, aSB d] else []
  let s1 := r.2.writeKeys (stage.flatMap fun b => (List.range (aPB d)).map fun i =>
    (coreKey c (b * 0x20000 + i), (Config.attnStage n (b * 0x20000 + i), false)))
  let s2 := (List.range 16384).foldl (fun a i =>
    a.setAcc c (aAcch d * 16384 + i) (Config.attnAcc n i).toNat (Config.attnMark n i)) s1
  (List.range 64).foldl (fun a v => a.setVreg c (64 * aVhalf d + v)
    ((List.range 64).map fun j => (Config.attnLane n (64 * v + j)).toNat) (Config.attnMark n (16384 + v))) s2

/-- The status record (R210). -/
def statBytes (n : AttnCnt) : List MByte :=
  leBytes 4 n.tiles ++ leBytes 4 n.skipped ++ leBytes 4 n.zeros ++ leBytes 4 n.pops ++ leBytes 4 n.copies ++
    leBytes 4 n.pushes ++ leBytes 4 n.refused ++ leBytes 4 0

/-- What remains after the append part: the attend part, and completion. -/
def aFinish (c o d : Nat) : AM Unit := do
  if opAttends o then
    let outs ← aAttend c d (aSeqs d) 0
    aOutputs c d outs
  let ks ← aLocal c pVector (aStat d) 32
  let n := (← get).cnt
  aMod fun s => (s.attnScratch c o d).writeKeys (ks.zip (statBytes n))

/-- The append part from a list of sequences on: whether it waits for a claim, and where. -/
def aWork (c o d : Nat) (seqs : List Nat) (row : Nat) : AM (Option (Nat × Nat × Claim)) := do
  match o with
  | 0 => do
    aFinish c o d
    return none
  | 3 => do
    aFork c d
    aFinish c o d
    return none
  | 4 => do
    aRelease c d
    aFinish c o d
    return none
  | 5 => do
    (List.range (aNmove d)).forM (aMove c d)
    aFinish c o d
    return none
  | _ => do
    match ← aAppend c d seqs row with
    | some w => return some w
    | none => do
      aFinish c o d
      return none

/-- The tags of an ATTN. -/
def aTags (d : Nat) : List Nat := (List.range 8).map (aTag0 d + ·)

/-- The ATTN ends: its tags are free and the engines idle (R186). -/
def State.attnEnd (s : State) (c d : Nat) : State :=
  let s1 := (aTags d).foldl (fun a t => a.freeTag c t) s
  ((s1.wr (CORE_SEQ_STATUS_M_BUSY c) 0).wr (CORE_SEQ_STATUS_V_BUSY c) 0).mCore fun x =>
    { x with attns := x.attns.filter fun j => j.core != c, claims := x.claims.filter fun j => j.core != c }

/-- Carry an ATTN on until it completes, faults or waits for a claim. -/
def State.attnStep (s : State) (c word o d : Nat) (cnt : AttnCnt) (m : AM (Option (Nat × Nat × Claim))) : State × Option Bad :=
  match m.run.run ⟨s, cnt, []⟩ with
  | (.error b, r) => (r.s.attnEnd c d, some b)
  | (.ok none, r) => (r.s.attnEnd c d, none)
  | (.ok (some (q, row, cl)), r) =>
    (r.s.mCore fun x =>
      { x with attns := (x.attns.filter fun j => j.core != c) ++ [⟨c, word, o, d, q, row, r.cnt⟩],
               claims := x.claims ++ [cl] }, none)

/-- ATTN at issue (R185, R186, R188, R189). -/
def doAttn (o c w : Nat) (s : State) : IssueRes :=
  if s.attnBusy c then .stall stQueue 0 s
  else
    match s.runLocal c pVector (bits w 32 12) 128 with
    | .error (k, chip, a) => .fault k chip a s
    | .ok ks =>
      let r := s.readKeys 128 ks
      let d := leNum r.1
      if anyPois r.1 then .fault kPoison s.ownChip (((ks.find? fun k => s.poisoned (k / 64 * 64)).getD 0) / 64 * 64) r.2
      else if ¬ attnOk o d then .fault kDesc 0 0 r.2
      else match (aTags d).find? (s.tagBusy c) with
      | some t => .stall stTag t s
      | none =>
        if (opAttends o ∨ o = 5) ∧ (s.boundTo c (aSA d) ≠ pTransfer ∨ s.boundTo c (aSB d) ≠ pTransfer) then
          .fault kBind s.ownChip (coreKey c (aSA d * 0x20000)) r.2
        else
          let s1 := (aTags d).foldl (fun a t => a.holdTag c t 0 (s.pc c)) r.2
          let s2 := (s1.wr (CORE_SEQ_STATUS_M_BUSY c) 1).wr (CORE_SEQ_STATUS_V_BUSY c) 1
          match s2.attnStep c (s.pc c) o d ⟨0, 0, 0, 0, 0, 0, 0⟩ (aWork c o d (aSeqs d) 0) with
          | (t, some (k, chip, a)) => .fault k chip a t
          | (t, none) => .done t none

def operIs (o : Nat) : Nat → Bool := fun w => bits w 10 8 == o

def execAttend (c : Fin 256) (s : State) : Out := .next (s.issueIf c 0x18 (operIs 0) (doAttn 0 c))
def execAppend (c : Fin 256) (s : State) : Out := .next (s.issueIf c 0x18 (operIs 1) (doAttn 1 c))
def execAppendAttend (c : Fin 256) (s : State) : Out := .next (s.issueIf c 0x18 (operIs 2) (doAttn 2 c))
def execFork (c : Fin 256) (s : State) : Out := .next (s.issueIf c 0x18 (operIs 3) (doAttn 3 c))
def execReleasePages (c : Fin 256) (s : State) : Out := .next (s.issueIf c 0x18 (operIs 4) (doAttn 4 c))
def execMovePages (c : Fin 256) (s : State) : Out := .next (s.issueIf c 0x18 (operIs 5) (doAttn 5 c))

/-! ### Claims and copies (R197, R198) -/

/-- The job of a claimer goes on with its claim granted; `fresh` is the page it was given, where the claim was a copy. -/
def State.claimGranted (s : State) (cl : Claim) (fresh : Option Page) (pushed : Bool) : State :=
  match s.core.attns.find? fun j => j.core == cl.core with
  | none => s
  | some j =>
    let c := cl.core
    let d := j.desc
    let b2 (x : AttnCnt) : AttnCnt := { x with copies := x.copies + b2n fresh.isSome, pops := x.pops + b2n fresh.isSome,
                                               pushes := x.pushes + b2n pushed }
    let m : AM (Option (Nat × Nat × Claim)) := do
      match fresh with
      | some p => aPutNum c (ptAddr d cl.seq (cl.ctx / 64)) 4 (pageEntry p)
      | none => pure ()
      let (_, nq, _) ← aLen c d cl.seq
      aAppendRest c d cl.seq j.row cl.ctx nq
      aWork c j.oper d ((aSeqs d).filter fun q => decide (cl.seq < q)) (j.row + nq)
    match s.attnStep c j.word j.oper d (b2 j.cnt) m with
    | (t, some (k, chip, a)) => t.planFault c k j.word chip a
    | (t, none) => t

/-- The claim of a claimer fails: its core faults with a kind. -/
def State.claimFault (s : State) (cl : Claim) (kind : Bad) : State :=
  match s.core.attns.find? fun j => j.core == cl.core with
  | none => s
  | some j => (s.attnEnd cl.core j.desc).planFault cl.core kind.1 j.word kind.2.1 kind.2.2

/-- The descriptor of the command a claim belongs to. -/
def State.claimDesc (s : State) (cl : Claim) : Nat :=
  match s.core.attns.find? fun j => j.core == cl.core with
  | some j => j.desc
  | none => 0

/-- Serve a copy claim (R197): the new page, or the failure. -/
def aCopy (cl : Claim) (d : Nat) : AM Page := do
  let c := cl.core
  let src : Page := (cl.slice, cl.page)
  let np ← aNP c d cl.slice
  match ← aPop c d cl.slice with
  | none => aDesc
  | some n => do
    let p : Page := (cl.slice, n)
    aPutNum c (rcAddr d p) 2 1
    let sz := cl.ctx % 64 * aTB d
    let data ← aData c false (pageAddr d np src) sz
    aPut c false (pageAddr d np p) data
    let rc ← aNum c (rcAddr d src) 2
    aPutNum c (rcAddr d src) 2 (rc - 1)
    let k ← aNum c (poolBase d cl.slice + 8) 4
    aPutNum c (poolBase d cl.slice + 8) 4 (k + 1)
    return p

/-- Decide the copies of a group in the order of R153: the claims with the pages given or the failures. -/
def State.copyGroup (s : State) : List Claim → List (Claim × Except Bad Page) × State
  | [] => ([], s)
  | cl :: t =>
    let d := s.claimDesc cl
    let r := (aCopy cl d).run.run (ARun.mk s ⟨0, 0, 0, 0, 0, 0, 0⟩ [])
    let s1 := match r.1 with
      | .ok p => r.2.s.mCore fun x => { x with copies := x.copies ++
          [PageCopy.mk cl.slice (poolBase d cl.slice + cl.page) (poolBase d cl.slice + p.2) (cl.ctx % 64 * aTB d) 0 cl.page] }
      | .error _ => r.2.s
    let rest := s1.copyGroup t
    ((cl, r.1) :: rest.1, rest.2)

/-- Mark the last copy from a page as the one after which the page is pushed. -/
def markLast (pool slice page : Nat) (l : List PageCopy) : List PageCopy :=
  match l.reverse with
  | [] => []
  | x :: t => if x.slice = slice ∧ x.page = page then (({ x with pool := pool } : PageCopy) :: t).reverse else l

/-- Insert a claim by ascending source. -/
def claimIn (x : Claim) : List Claim → List Claim
  | [] => [x]
  | y :: t => if x.core < y.core then x :: y :: t else y :: claimIn x t

/-- PAGE_CLAIM (R197): the first claim at the slice and those on the same page that entered with it (`group` claims in all)
are decided against the count as it stood. -/
def execPageClaim (slice : Fin 256) (group : Nat) (s : State) : Out :=
  match s.core.claims.find? fun cl => cl.slice == slice.val with
  | none => .next s
  | some first =>
    let same := s.core.claims.filter fun cl => cl.slice == first.slice && cl.page == first.page
    let grp := (same.take (max group 1)).foldl (fun l x => claimIn x l) []
    let s0 := s.mCore fun x => { x with claims := x.claims.filter fun cl => !grp.contains cl }
    let d := s.claimDesc first
    match (aNum first.core (rcAddr d (first.slice, first.page)) 2).run.run (ARun.mk s0 ⟨0, 0, 0, 0, 0, 0, 0⟩ []) with
    | (.error b, r) => .next (grp.foldl (fun a cl => a.claimFault cl b) r.s)
    | (.ok rc, r) =>
      if rc = 1 then .next (grp.foldl (fun a cl => a.claimGranted cl none false) r.s)
      else if rc < grp.length then .next (grp.foldl (fun a cl => a.claimFault cl (kDesc, 0, 0)) r.s)
      else
        let g := r.s.copyGroup grp
        let good := g.1.filter fun x => match x.2 with
          | .ok _ => true
          | .error _ => false
        let gone := decide (rc = good.length)
        let s1 := if gone then g.2.mCore fun x =>
            { x with copies := markLast (poolBase d first.slice) first.slice first.page x.copies } else g.2
        .next (g.1.zipIdx.foldl (fun a x => match x.1.2 with
          | .ok p => State.claimGranted a x.1.1 (some p) (gone && x.2 + 1 == g.1.length)
          | .error b => State.claimFault a x.1.1 b) s1)

/-- PAGE_COPY_DONE (R198): the oldest copy in the slice completes; a page whose count came to 0 is pushed. -/
def execPageCopyDone (slice : Fin 256) (s : State) : Out :=
  match s.core.copies.findIdx? fun x => x.slice == slice.val with
  | none => .next s
  | some i =>
    match s.core.copies[i]? with
    | none => .next s
    | some x =>
      let s1 := s.mCore fun y => { y with copies := y.copies.eraseIdx i }
      if x.pool = 0 then .next s1
      else
        let np := leNum (s1.readRun x.pool 4).1
        let top := leNum (s1.readRun (x.pool + 4) 4).1
        .next ((s1.writeRun (x.pool + 0x40 + 2 * np + 2 * top) (leBytes 2 x.page)).writeRun (x.pool + 4) (leBytes 4 (top + 1)))

end Sys2Proof.Machine
end

