-- ==== Sys2Proof/Machine/Arrivals.lean ====
section
/-! DEFINITION. What arrives over the mesh and what the home slices and LPDDR controllers serve (R126, R131 to R146, R152 to
R156, R160, R170, R346, R359, R584). -/

namespace Sys2Proof.Machine

/-- A message that fails its CRC-16 is delivered with every granule poisoned (R170). -/
def State.crcFail (s : State) : State := (s.wr MEM_EVENT_MESH_CRC 1).cause 7 0 0 0

/-- The payload as delivered. -/
def delivered (ok : Bool) (data : List MByte) : List MByte := if ok then data else data.map fun b => (b.1, true)

/-- The CRC's effect on the state. -/
def State.crcCheck (s : State) (ok : Bool) : State := if ok then s else s.crcFail

/-- A request passed its source check and fails at its target: a hardware fault (R346). -/
def State.hwchk (s : State) (m : Msg) (addr : Nat) : State :=
  ((s.wr PART_EVENT_HWCHK 1).cause 7 m.part m.src 0).send
    ⟨.rsp, m.dst, m.src, m.part, m.tag, m.epoch, m.chip, .error kIsolation addr⟩

/-- The answer to a request. -/
def Msg.reply (m : Msg) (b : MsgBody) : Msg := ⟨.rsp, m.dst, m.src, m.part, m.tag, m.epoch, m.chip, b⟩

/-- Units landing in a guarded window are counted by slot; a full slot's fill is complete (R143). -/
def State.landUnits (s : State) (c w : Nat) : List Nat → State
  | [] => s
  | u :: t =>
    let su := max (s.slotUnits c w) 1
    let i := u / su
    let x := s.gslot c w i
    let y : SlotInfo := if x.units + 1 = su then ⟨x.fg + 1, x.cg, 0⟩ else ⟨x.fg, x.cg, x.units + 1⟩
    (s.setGslot c w i y).landUnits c w t

/-- REMOTE_WRITE_ARRIVAL (R96, R139, R143). -/
def execRemoteWriteArrival (dst src : Fin 256) (crcOk : Bool) (s : State) : Out :=
  match (if s.awake dst then s.take fun m => m.src == src.val && m.dst == dst.val && m.cls == .req && (match m.body with
      | .remoteWrite .. => true
      | _ => false) else none) with
  | none => .next s
  | some (m, s1) =>
    match m.body with
    | .remoteWrite win off data =>
      let d := dst.val
      let s2 := s1.crcCheck crcOk
      let o := s2.rd (CORE_WIN_BASE_OFFSET d win) + off
      if s2.coreOwner d ≠ some m.part then .next (s2.hwchk m (coreKey d o))
      else if ¬ (s2.boundTo d (o / 0x20000) = pTransfer ∧ s2.boundTo d ((o + data.length - 1) / 0x20000) = pTransfer) then
        .next ((s2.arrivalFault d kBind (coreKey d o)).send (m.reply .ack))
      else
        let s3 := s2.writeRun (coreKey d o) (delivered crcOk data)
        let units := data.length / 64
        let s4 := s3.bumpWrap (CORE_CNT_VALUE d (s3.rd (CORE_WIN_BASE_CNT d win))) units
        let s5 := if s4.on (CORE_WIN_BASE_GUARD d win) then
          s4.landUnits d win ((List.range units).map (off / 64 + ·)) else s4
        .next ((s5.send (m.reply .ack)).advance d)
    | _ => .next s1

/-- SIGNAL_ARRIVAL (R139). -/
def execSignalArrival (dst src : Fin 256) (s : State) : Out :=
  match (if s.awake dst then s.take fun m => m.src == src.val && m.dst == dst.val && (match m.body with
      | .signal .. => true
      | _ => false) else none) with
  | none => .next s
  | some (m, s1) =>
    match m.body with
    | .signal cnt inc =>
      if s1.coreOwner dst.val ≠ some m.part then .next (s1.hwchk m (coreKey dst 0))
      else .next ((s1.bumpWrap (CORE_CNT_VALUE dst cnt) inc).send (m.reply .ack))
    | _ => .next s1

/-- NOTIFICATION_ARRIVAL (R139). -/
def execNotificationArrival (dst : Fin 256) (src : Nat) (s : State) : Out :=
  match (if s.awake dst then s.take fun m => m.src == src && m.dst == dst.val && (match m.body with
      | .notif .. => true
      | _ => false) else none) with
  | none => .next s
  | some (m, s1) =>
    match m.body with
    | .notif cnt units => .next (s1.bumpWrap (CORE_CNT_VALUE dst cnt) units)
    | _ => .next s1

/-- Serve a read, write or atomic at memory whose keys are given (R127, R135, R152, R154). -/
def State.serve (s : State) (m : Msg) (crcOk : Bool) : State :=
  match m.body with
  | .memRead a len back =>
    let r := s.readKeys 128 (s.runKeys a len)
    r.2.send (m.reply (.readData back r.1))
  | .memWrite a data nt =>
    let s1 := (s.crcCheck crcOk).writeKeys ((s.runKeys a data.length).zip (delivered crcOk data))
    let s2 := s1.send (m.reply .ack)
    match nt with
    | some (core, cnt) => s2.send ⟨.rsp, m.dst, core, m.part, 0, false, s.ownChip, .notif cnt (max (data.length / 64) 1)⟩
    | none => s2
  | .atomic a swap w64 x y p back =>
    let n := if w64 then 8 else 4
    let ks := s.runKeys a n
    let r := (s.crcCheck crcOk).readKeys 128 ks
    let old := leNum r.1
    let bad := anyPois r.1 || p || !crcOk
    let new := if swap then (if old = x then y else old) else (old + x) % 256 ^ n
    let s1 := if swap ∧ old ≠ x ∧ ¬ bad then r.2
      else r.2.writeKeys (ks.zip ((leBytes n new).map fun b => (b.1, bad)))
    s1.send (m.reply (.atomRes back w64 old (anyPois r.1)))
  | _ => s

/-- Is it a request of the Tun and LPDDR kind, and its address. -/
def MsgBody.addr? : MsgBody → Option (Bool × Nat)
  | .memRead a _ _ => some (false, a)
  | .memWrite a _ _ => some (true, a)
  | .atomic a .. => some (true, a)
  | _ => none

/-- TUN_REQUEST (R129, R152, R154, R180, R346, R348): the next request of a source is served; one to a group that sleeps, is
being filled or is in reset waits. -/
def execTunRequest (slice : Fin 256) (src : Nat) (crcOk : Bool) (s : State) : Out :=
  let g := slice.val / 16
  let busy := s.memory.filling || s.domState (tunDom g) != 0 || (match s.tunOwner g with
    | some p => s.rd (PART_STATUS_STATE p) == stResetting
    | none => false)
  match (if busy then none else s.take fun m => m.src == src && m.dst == epSlice slice && m.cls == .req) with
  | none => .next s
  | some (m, s1) =>
    match m.body.addr? with
    | none => .next s1
    | some (w, a) =>
      if s1.checkByte m.part w a = .ok then .next (s1.serve m crcOk) else .next (s1.hwchk m a)

/-- The LPDDR region of an address is filled (R182). -/
def State.lpReady (s : State) (a : Nat) : Bool :=
  match s.decode a with
  | .lpddr _ _ x => decide (x / 2 ^ 26 < s.rd MEM_LP_FILL_FILLED)
  | _ => true

/-- LPDDR_REQUEST (R160, R182): the n-th request waiting at a controller is served, if none before it is to its burst and its
region is filled. -/
def execLpddrRequest (ctl : Fin 4) (n : Nat) (crcOk : Bool) (s : State) : Out :=
  let here := s.msgs.filter fun m => m.dst == epLp ctl && m.cls == .req && !s.crosses m
  match here[n]? with
  | none => .next s
  | some m =>
    match m.body.addr? with
    | none => .next s
    | some (w, a) =>
      let burst (x : Msg) : Option Nat := x.body.addr?.map fun y => y.2 / 128
      if (here.take n).any (fun x => burst x == burst m) ∨ ¬ s.lpReady a then .next s
      else match s.take (fun x => x == m) with
      | none => .next s
      | some (_, s1) => if s1.checkByte m.part w a = .ok then .next (s1.serve m crcOk) else .next (s1.hwchk m a)

/-- A response belongs to a transfer in being: its tag's epoch is the message's (R359). -/
def State.current (s : State) (c : Nat) (m : Msg) : Bool := (s.tag c m.tag).epoch == m.epoch

/-- One response less is owed under a tag. -/
def State.paid (s : State) (c t : Nat) : State := s.setTag c t { s.tag c t with out := (s.tag c t).out - 1 }

/-- The half-bytes of read data for the places that take them. -/
def backNibs (back : List (Option Nat)) (data : List MByte) : List NibW :=
  let vals := data.flatMap fun b => [(b.1.toNat % 16, b.2), (b.1.toNat / 16, b.2)]
  (back.zip vals).filterMap fun p => p.1.map fun k => (k, p.2.1, p.2.2)

/-- READ_DATA_ARRIVAL (R126, R136). -/
def execReadDataArrival (c : Fin 256) (src : Nat) (crcOk : Bool) (s : State) : Out :=
  match s.take (fun m => m.src == src && m.dst == c.val && s.current c m && (match m.body with
      | .readData .. => true
      | .atomRes .. => true
      | _ => false)) with
  | none => .next s
  | some (m, s1) =>
    match m.body with
    | .readData back data => .next (((s1.crcCheck crcOk).writeNibs (backNibs back (delivered crcOk data))).paid c m.tag)
    | .atomRes back w64 old p =>
      .next (((s1.crcCheck crcOk).writeRun back ((leBytes (if w64 then 8 else 4) old).map fun b => (b.1, p || !crcOk))).paid c m.tag)
    | _ => .next s1

/-- WRITE_ACK_ARRIVAL (R136). -/
def execWriteAckArrival (c : Fin 256) (src : Nat) (s : State) : Out :=
  match s.take (fun m => m.src == src && m.dst == c.val && s.current c m && m.body == .ack) with
  | none => .next s
  | some (m, s1) => .next (s1.paid c m.tag)

/-- The tag belongs to an ATTN in progress (R186). -/
def State.attnTag (s : State) (c t : Nat) : Bool := s.core.attns.any fun j => j.core == c && (aTags j.desc).contains t

/-- TAG_COMPLETE (R136). -/
def execTagComplete (c : Fin 256) (tag : Fin 32) (s : State) : Out :=
  if s.tagBusy c tag && decide ((s.tag c tag).out = 0) && !s.xferLeft c tag && !s.attnTag c tag then .next (s.freeTag c tag)
  else .next s

/-- ERROR_RESPONSE (R40, R47, R93): the tag is freed and the command is a plan fault. -/
def execErrorResponse (c : Fin 256) (src : Nat) (s : State) : Out :=
  match s.take (fun m => m.src == src && m.dst == c.val && s.current c m && (match m.body with
      | .error .. => true
      | _ => false)) with
  | none => .next s
  | some (m, s1) =>
    match m.body with
    | .error kind addr =>
      let s2 := (s1.paid c m.tag).mCore fun x => { x with xfers := x.xfers.filter fun y => !(y.core == c.val && y.tag == m.tag) }
      let s3 := if (s2.tag c m.tag).out = 0 then s2.freeTag c m.tag else s2
      .next (s3.planFault c kind (s.tag c m.tag).word m.chip addr)
    | _ => .next s1

/-- LATE_RESPONSE (R359): a response for a retired tag is dropped by its epoch bit and counted. -/
def execLateResponse (c : Fin 256) (src : Nat) (s : State) : Out :=
  match s.take (fun m => m.src == src && m.dst == c.val && !s.current c m && m.cls == .rsp && (match m.body with
      | .readData .. => true
      | .atomRes .. => true
      | .ack => true
      | .error .. => true
      | _ => false)) with
  | none => .next s
  | some (m, s1) => .next (s1.bump (PART_FAULT_COUNT_LATE_RSP m.part))

/-- GUARD_WATCHDOG (R145). -/
def execGuardWatchdog (c : Fin 256) (s : State) : Out :=
  if ¬ s.on (CORE_GUARD_STATUS_STALLED c) then .next s
  else
    let word := match s.core.xfers.find? fun x => x.core == c.val with
      | some x => (s.tag c x.tag).word
      | none => s.pc c
    let w := s.rd (CORE_GUARD_STATUS_WIN c)
    let a := coreKey c (s.rd (CORE_WIN_BASE_OFFSET c w) + 64 * s.slotUnits c w * s.rd (CORE_GUARD_STATUS_SLOT c))
    .next ((s.wr (CORE_GUARD_STATUS_CYCLES c) 0xFFFF).planFault c kWatchdog word s.ownChip a)

/-- FLIT_PARITY_FAIL (R170): the flit is sent again; after the third failure in a row the link has failed. -/
def execFlitParityFail (x y : Fin 16) (dir : Fin 4) (sends : Fin 3) (s : State) : Out :=
  if sends.val < 2 then .next s
  else
    let l := (x.val, y.val, dir.val)
    let s1 := s.mMem fun z => { z with failed := if z.failed.contains l then z.failed else z.failed ++ [l] }
    .next ((s1.wr MEM_EVENT_MESH_LINK 1).cause 7 0 0 0)

/-- FAILED_LINK_DISCARD (R584): the n-th message that crosses a failed link is discarded. -/
def execFailedLinkDiscard (n : Nat) (s : State) : Out :=
  match (s.msgs.filter s.crosses)[n]? with
  | none => .next s
  | some m =>
    match s.msgs.findIdx? (fun x => x == m) with
    | none => .next s
    | some i =>
      let s1 := { s with msgs := s.msgs.eraseIdx i }.wr MEM_EVENT_MESH_LINK 1
      match m.cls with
      | .saf => .next s1
      | .req => .next (s1.send ⟨.rsp, m.src, m.src, m.part, m.tag, m.epoch, m.chip, .error kLink 0⟩)
      | _ => if m.dst < 256 then .next (s1.arrivalFault m.dst kLink 0) else .next (s1.partFault m.part kLink m.dst s.ownChip 0)

end Sys2Proof.Machine
end

