-- ==== Sys2Proof/Machine/Staging.lean ====
section
/-! DEFINITION. How deeply a domain may sleep, and the steps that wait for a ramp slot (R511 to R518). -/

namespace Sys2Proof.Machine

/-! ### Steps that wait for a slot (R517, R518) -/

/-- Show the steps that wait for a ramp slot (R518): groups and spares, and regions with steps to go. -/
def State.showSteps (s : State) : State :=
  let n := s.pwr.steps.length + ((List.range 8).filter fun r =>
    s.on (PWR_REG_STAT_BUSY r) && s.rd (PWR_REG_STAT_FREQ r) != s.rd (PWR_REG_CFG_TARGET r)).length
  (s.wr PWR_RAMP_STAT_QUEUED n).wr PWR_RAMP_STAT_MAXQ (max (s.rd PWR_RAMP_STAT_MAXQ) (min n 255))

/-- Put the steps that wait for a ramp slot. -/
def State.setSteps (s : State) (l : List RampStep) : State := (s.mPwr fun y => { y with steps := l }).showSteps

/-- Domain d is to reach a shallower state (R513, R514, R516): an entry under way is dropped; a core group asks for a ramp slot, any
other domain starts at once. -/
def State.wakeDom (s : State) (d aim : Nat) : State :=
  let rest := s.pwr.steps.filter fun x => x.spare || x.idx != d
  let s1 := if rest.length < s.pwr.steps.length then s.setSteps rest else s
  if s.domState d ≤ aim then s1
  else
    let goal := min aim (match s.pwr.steps.find? fun x => !x.spare && x.idx == d && x.rise with
      | some x => x.aim
      | none => aim)
    if mget (fun _ => 0) s.pwr.waking d ≠ 0 then
      s1.mPwr fun y => { y with waking := mset (fun _ => 0) y.waking d (min (mget (fun _ => 0) y.waking d) (goal + 1)) }
    else if 1 ≤ d ∧ d ≤ 68 then s1.setSteps (s1.pwr.steps ++ [⟨true, false, d, goal⟩])
    else s1.mPwr fun y => { y with waking := mset (fun _ => 0) y.waking d (goal + 1) }

/-- A spare core's switch is to close or to open (R511). -/
def State.switchSpare (s : State) (pos : Nat) (on : Bool) : State :=
  (s.mPwr fun y => { y with spareOn := y.spareOn.filter (· != pos) }).setSteps
    ((s.pwr.steps.filter fun x => !(x.spare && x.idx == pos)) ++ [⟨on, true, pos, if on then 0 else 3⟩])

/-! ### The choice of a state (R515, R516) -/

/-- The cores behind group domain d (1 to 68). -/
def State.coresIn (s : State) (d : Nat) : List Nat := (List.range s.nCores).filter fun c => s.coreDom c == d

/-- A core group holds a core of a class-S partition. -/
def State.groupS (s : State) (d : Nat) : Bool := (s.coresIn d).any fun c => match s.coreOwner c with
  | some p => s.classOf p == 0
  | none => false

/-- A core group holds a core of partition p. -/
def State.groupHas (s : State) (d p : Nat) : Bool := (s.coresIn d).any fun c => s.coreOwner c == some p

/-- K_p (R515). -/
def State.kOf (s : State) (p : Nat) : Nat :=
  let ds := (List.range 68).map (· + 1)
  let ns := (ds.filter s.groupS).length
  if s.classOf p = 0 then ns + 1
  else
    let top := (ds.filter fun d => s.groupHas d p).foldl max 0
    ns + (ds.filter fun d => decide (d ≤ top) && !s.groupS d).length + 1

/-- T(p, X) in units of 0.1 ns, X = 1 Rest, 2 Steep (R515). -/
def State.wakeTime (s : State) (p x : Nat) : Nat := (if x = 1 then 2000 else 60000) + s.kOf p * 1125

/-- The deepest state partition p tolerates, its budget in µs. -/
def State.tolerates (s : State) (p : Nat) : Nat :=
  let b := s.rd (PART_WAKE_BUDGET_US p) * 10000
  if s.wakeTime p 2 ≤ b then 2 else if s.wakeTime p 1 ≤ b then 1 else 0

/-- The deepest state the device chooses for domain d (R515). -/
def State.choice (s : State) (d : Nat) : Nat :=
  if 1 ≤ d ∧ d ≤ 68 then
    ((List.range 16).filter fun p => s.groupHas d p).foldl (fun a p => min a (s.tolerates p)) 2
  else if 69 ≤ d ∧ d ≤ 84 then
    match s.tunOwner (d - 69) with
    | some p =>
      let b := s.rd (PART_WAKE_BUDGET_US p) * 10000
      if 60000 ≤ b then 2 else if 2000 ≤ b then 1 else 0
    | none => 2
  else 0

/-- MODE of domain d: 0 AUTO, 1 RUN, 2 OFF (R510); domain 0 reads 1. -/
def State.domMode (s : State) (d : Nat) : Nat :=
  bits (s.rd (PWR_DOM_MODE_MODE (d / 16))) (2 * (d % 16) + 1) (2 * (d % 16))

/-- The choice is evaluated again (R516): a group found deeper than its new choice is woken to it. -/
def State.repower (s : State) : State :=
  (List.range 84).foldl (fun a i =>
    let d := i + 1
    let st := a.domState d
    if (st = 1 ∨ st = 2) ∧ a.choice d < st then a.wakeDom d (a.choice d) else a) s

/-! ### Idleness (R512) -/

/-- The core stands idle: unowned or IDLE, its plan ended, or stalled with its engines empty and no tag held. -/
def State.coreIdle (s : State) (c : Nat) : Bool :=
  (s.coreOwner c).isNone || s.rd (CORE_STATE_STATE c) == 0 ||
    ([1, 2, 4, 5].contains (s.rd (CORE_SEQ_STATUS_STALL c)) && s.rd (CORE_TAG_BUSY_BUSY c) == 0 &&
      !s.on (CORE_SEQ_STATUS_V_BUSY c) && !s.on (CORE_SEQ_STATUS_M_BUSY c) && !s.core.attns.any fun j => j.core == c)

/-- A floor-turning step works on group domain d. -/
def State.turning (s : State) (d : Nat) : Bool :=
  (List.range 4).any fun q =>
    let x : FtQuad := mget (fun _ => ⟨0, 0, 0, 0, 0⟩) s.saf.quads q
    x.step != 0 && [x.victim, x.spare].any fun k => 1 + 4 * (k / 16) + k % 16 / 4 == d

/-- Domain d is idle. -/
def State.domIdle (s : State) (d : Nat) : Bool :=
  if 1 ≤ d ∧ d ≤ 68 then !s.turning d && (s.coresIn d).all s.coreIdle && !s.msgs.any fun m => (s.coresIn d).contains m.dst
  else decide (69 ≤ d ∧ d ≤ 84) && !s.msgs.any fun m => decide (512 + 16 * (d - 69) ≤ m.dst ∧ m.dst < 512 + 16 * (d - 68))

/-- A group stalled only at WAITTIME. -/
def State.onlyTime (s : State) (d : Nat) : Bool :=
  decide (1 ≤ d ∧ d ≤ 68) && (s.coresIn d).all fun c =>
    (s.coreOwner c).isNone || s.rd (CORE_STATE_STATE c) == 0 || s.rd (CORE_SEQ_STATUS_STALL c) == 2

end Sys2Proof.Machine
end

