-- ==== Sys2Proof/Machine/RegAccess.lean ====
section
/-! DEFINITION. Access to register space: who reaches which register (R15, R47, R83, R370, R418, R422, R423, R465, R490, R502,
R528, R561, R583), the rules of a write (R17, R18, R20, R547) and of a read (R85). -/

namespace Sys2Proof.Machine

/-! ### Blocks without power (R510) -/

/-- The power domains of a block (chapter 1, Device blocks), by bits [27:20] of its register base. -/
def blockDoms (b : Nat) : List Nat :=
  match b with
  | 4 => [93] | 5 => [101, 102, 103, 104] | 6 => [85] | 7 => [100] | 8 => [86, 87] | 9 => [88, 89] | 10 => [90] | 11 => [91]
  | 12 => [92] | 13 => [94] | 14 => [95, 96, 97] | 15 => [98, 99] | 16 => [94] | 17 => [105] | _ => []

/-- All domains of a block are Off. -/
def State.blockOff (s : State) (b : Nat) : Bool := !(blockDoms b).isEmpty && (blockDoms b).all fun d => s.domState d == 3

/-! ### Owners of block resources (R423) -/

/-- Arrays of resources that have an OWNER: first offset, count, stride, bytes of each, offset of the word with the OWNER,
its lowest bit. -/
def ownedArrays : List (Nat × Nat × Nat × Nat × Nat × Nat) := [
  (0x900100, 16, 0x40, 0x40, 0, 20), (0xA00100, 16, 0x40, 0x40, 0, 20), (0xA01000, 128, 0x10, 0x10, 0, 20),
  (0xB00100, 16, 0x40, 0x40, 0, 20), (0xC01000, 64, 0x200, 0x200, 0, 26), (0xC09000, 16, 0x40, 0x40, 0, 26),
  (0xC0A000, 32, 0x10, 0x10, 0, 25), (0xC0A400, 16, 0x10, 0x10, 0, 26), (0xC0A600, 8, 0x20, 0x20, 0, 26),
  (0xC0B000, 24, 0x20, 0x20, 0, 25), (0xE80000, 2, 0x40, 0x40, 0, 26), (0xE82000, 256, 0x8, 0x8, 0, 27),
  (0xE90000, 512, 0x40, 0x40, 0, 26), (0xD03000, 64, 0x20, 0x20, 8, 26), (0x1002000, 32, 4, 4, 0, 27)]

/-- Arrays inside arrays: outer first offset, count, stride; inner first offset, count, stride, bytes, OWNER word and bit. -/
def nestedArrays : List ((Nat × Nat × Nat) × Nat × Nat × Nat × Nat × Nat × Nat) := [
  ((0xD01000, 16, 0x100), 0x40, 3, 0x40, 0x40, 0, 20), ((0xD01000, 16, 0x100), 0, 1, 0x40, 0x40, 0, 25),
  ((0xE01000, 10, 0x400), 0x100, 8, 0x40, 0x40, 0, 20), ((0xE01000, 10, 0x400), 0x300, 8, 0x20, 0x20, 8, 26),
  ((0xE01000, 10, 0x400), 0, 1, 0x100, 0x100, 0, 26),
  ((0x1001000, 8, 0x100), 0x40, 1, 0x40, 0x40, 0, 20), ((0x1001000, 8, 0x100), 0x80, 1, 0x40, 0x40, 8, 26),
  ((0x1001000, 8, 0x100), 0, 1, 0x40, 0x40, 0, 27)]

/-- The OWNER of the block resource a register belongs to. -/
def State.resOwner (s : State) (off : Nat) : Option Nat :=
  let at1 (b n st sz cw bt : Nat) : Option Nat :=
    if b ≤ off ∧ (off - b) / st < n ∧ (off - b) % st < sz then
      some (bits (s.word (b + (off - b) / st * st + cw)) (bt + 3) bt) else none
  if 0x601000 ≤ off ∧ off < 0x602000 then some ((off - 0x601000) / 0x100)
  else if 0x302000 ≤ off ∧ off < 0x302200 then some ((off - 0x302000) / 0x20)
  else if 0xB01000 ≤ off ∧ off < 0xB01100 then some (bits (s.word (0xB00100 + (off - 0xB01000) / 16 * 0x40)) 23 20)
  else if 0xE81000 ≤ off ∧ off < 0xE81800 then some (bits (s.word (0xE82000 + (off - 0xE81000) / 8 * 8)) 30 27)
  else match ownedArrays.findSome? fun (b, n, st, sz, cw, bt) => at1 b n st sz cw bt with
  | some p => some p
  | none => nestedArrays.findSome? fun (o, b, n, st, sz, cw, bt) =>
    if o.1 ≤ off ∧ (off - o.1) / o.2.2 < o.2.1 then at1 (o.1 + (off - o.1) / o.2.2 * o.2.2 + b) n st sz cw bt else none

/-! ### Reach -/

/-- What an access meets before its register's own rules. -/
inductive Reach where
  | ok
  | ignored (flag : Option Fld)
  | isolation
  | decode
  deriving DecidableEq, Repr

/-- Offsets at which no register space lies (R83, R583). -/
def State.unpopulated (s : State) (off : Nat) : Bool :=
  decide (0x4000000 ≤ off ∨ (0x1200000 ≤ off ∧ off < 0x2000000) ∨ (0x2000000 ≤ off ∧ s.nCores ≤ (off - 0x2000000) / 0x20000))

/-- The class-H partition behind a host slice, if it has one (R421). -/
def State.slicePart (s : State) (sl : Nat) : Option Nat :=
  if s.on (VMS_SL_CFG_PEN sl) then some (s.rd (VMS_SL_CFG_PART sl)) else none

/-- The rights of R422 in the VMS block. -/
def State.vmsReach (s : State) (sl off : Nat) (write : Bool) : Reach :=
  let admin := s.on (VMS_SL_CFG_ADMIN sl)
  let samePort (c : Nat) : Bool := s.rd (VMS_SL_CFG_PORT c) == s.rd (VMS_SL_CFG_PORT sl)
  if 0x701000 ≤ off ∧ off < 0x702000 then
    let c := (off - 0x701000) / 0x40
    let o := (off - 0x701000) % 0x40
    if write then
      if c = sl ∧ [0x14, 0x18, 0x1C, 0x20, 0x24, 0x2C].contains o then .ok
      else if admin && samePort c && [0, 8, 0xC, 0x10].contains o then .ok else .isolation
    else if c = sl ∨ (admin && samePort c) then .ok else .isolation
  else if 0x740000 ≤ off ∧ off < 0x780000 then (if (off - 0x740000) / 0x1000 = sl then .ok else .isolation)
  else if 0x780000 ≤ off ∧ off < 0x788000 then (if (off - 0x780000) / 0x200 = sl then .ok else .isolation)
  else if 0x788000 ≤ off ∧ off < 0x788100 then (if (off - 0x788000) / 4 = sl then .ok else .isolation)
  else if admin && !write then .ok else .isolation

/-- Registers every host slice reads (R423). -/
def globalReads (off : Nat) : Bool :=
  [0, 1, 2, 4, 15].contains (off >>> 20) || off == 0x600000 || decide (0x600010 ≤ off ∧ off < 0x6000C0) ||
    [0x500000, 0x504000, 0x500010].contains off

/-- A host slice's reach (R422, R423). -/
def State.hostReach (s : State) (sl off : Nat) (write : Bool) : Reach :=
  let owned (p : Option Nat) : Reach := if (s.slicePart sl).isSome && p == s.slicePart sl then .ok else .isolation
  if (regAt off).isNone then .ok
  else if !write && globalReads off then .ok
  else match off >>> 20 with
  | 0 => if off = 0x80 then .ok else .ignored none
  | 1 => .ignored (some PWR_EVENT_CFG_ERR)
  | 4 => .ignored (some SAF_WARN_CFG_ERR)
  | 15 => .ignored (some LNK_EVENT_CFG_ERR)
  | 2 =>
    if 0x200100 ≤ off ∧ off < 0x200300 then
      let n := (off - 0x200100) / 0x80
      if owned (some (s.rd (TIM_TS_CTL_OWNER n))) = .ok then .ok else .ignored (some (TIM_TS_CTL_ERR n))
    else .ignored (some TIM_EVENT_CFG_ERR)
  | 5 =>
    if 0x500100 ≤ off ∧ off < 0x500180 then (if (s.slicePart sl).isSome then .ok else .isolation)
    else if !write && decide (0x504100 ≤ off ∧ off < 0x504180) then
      let w := (off - 0x504100) / 8
      if s.on (MEM_LPW_CFG_DEV w) then .isolation else owned (some (s.rd (MEM_LPW_CFG_OWNER w)))
    else .isolation
  | 7 => s.vmsReach sl off write
  | _ =>
    if 0x1002080 ≤ off ∧ off < 0x1002090 then (if (s.slicePart sl).isSome then .ok else .isolation)
    else if 0x2000000 ≤ off then owned (s.coreOwner ((off - 0x2000000) / 0x20000))
    else match s.resOwner off with
      | some p => owned (some p)
      | none => .isolation

/-- What an access of register space meets. -/
def State.reach (s : State) (req : Requester) (off bytes : Nat) (write : Bool) : Reach :=
  if bytes ≠ 4 ∨ off % 4 ≠ 0 ∨ s.unpopulated off then .decode
  else match req with
  | .image => .ok
  | .debug => if s.on SYS_DBG_OPEN then .ok else .decode
  | .plan c => if 0x2000000 ≤ off ∧ (off - 0x2000000) / 0x20000 = c.val ∧ (regAt off).isSome then .ok else .decode
  | .host sl => s.hostReach sl off write

/-- An isolation violation of a host slice (R357, R423). -/
def State.hostIso (s : State) (sl : Nat) : State :=
  let s1 := (s.wr VMS_EVENT_ISO 1).bump (VMS_SL_STAT_ISO sl)
  match s.slicePart sl with
  | some p => s1.partFault p kIsolation 264 s.ownChip 0
  | none => s1

/-- What follows a refused access, beyond its answer (R15, R47, R83, R423). -/
def State.refused (s : State) (req : Requester) (r : Reach) (addr : Nat) : State :=
  match r, req with
  | .ok, _ => s
  | .ignored (some f), _ => s.wr f 1
  | .ignored none, _ => s
  | .isolation, .host sl => s.hostIso sl
  | .isolation, _ => s
  | .decode, .host _ => s.wr VMS_EVENT_UR 1
  | .decode, .plan c => s.planFault c kDecode (s.pc c) s.ownChip (0x200000000 + addr)
  | .decode, _ => s


/-! ### The rules of a write (R17, R18, R20, R547) -/

/-- The error bit of a block (R20). -/
def cfgErr (off : Nat) : Option Fld :=
  match off >>> 20 with
  | 1 => some PWR_EVENT_CFG_ERR | 2 => some TIM_EVENT_CFG_ERR | 3 => some EVT_EVENT_CFG_ERR | 4 => some SAF_WARN_CFG_ERR
  | 5 => some MEM_EVENT_CFG_ERR | 6 => some PART_EVENT_CFG_ERR | 7 => some VMS_EVENT_CFG_ERR | 8 => some ING_EVENT_CFG_REJ
  | 9 => some DEC_EVENT_CFG_ERR | 10 => some PRE_EVENT_CFG_ERR | 11 => some SOL_EVENT_CFG_ERR | 12 => some CTL_EVENT_CFG_ERR
  | 13 => some CAN_EVENT_CFG_ERR | 14 => some NET_EVENT_CFG_ERR | 15 => some LNK_EVENT_CFG_ERR | 16 => some SER_EVENT_CFG_ERR
  | 17 => some CKP_EVENT_CFG_ERR | _ => none

/-- Refuse a write under R20: the block records it. -/
def State.cfgRefuse (s : State) (off : Nat) : State :=
  match cfgErr off with
  | some f => s.wr f 1
  | none => s

/-- Do something if a requester's write reaches a register; a block whose domains are Off takes none (R510). -/
def State.asWriter (s : State) (req : Requester) (off bytes : Nat) (f : State → State) : State :=
  match s.reach req off bytes true with
  | .ok => if s.blockOff (off >>> 20) then s.cfgRefuse off else f s
  | r => s.refused req r off

/-- Bits of word k of a register that a field covers, as a shift and a width; none where it has none there. -/
def FieldRow.part (f : FieldRow) (k : Nat) : Option (Nat × Nat × Nat) :=
  let lo := max f.lo (32 * k)
  let hi := min f.hi (32 * k + 31)
  if lo ≤ hi then some (hi - 32 * k, lo - 32 * k, lo - f.lo) else none

/-- The value a field would take in the word of a write; a field that crosses words keeps its other bits. -/
def fieldNew (f : FieldRow) (old v k : Nat) : Nat :=
  match f.part k with
  | none => old
  | some (hi, lo, sh) => setBits old (sh + (hi - lo)) sh (bits v hi lo)

/-- The value of a field as it stands; `w` gives the words of its register. -/
def fieldOld (f : FieldRow) (w : Nat) : Nat := bits w f.hi f.lo

/-- A value is among a field's legal settings. -/
def FieldRow.ok (f : FieldRow) (v : Nat) : Bool := f.legal.isEmpty || f.legal.any fun r => decide (r.1 ≤ v ∧ v ≤ r.2)

/-- Registers whose RWL fields stay read-only across a compute reset, once the lock has been set (R547). -/
def lockKept (off : Nat) : Bool :=
  [1, 2, 7, 15].contains (off >>> 20) || decide (0xE80000 ≤ off ∧ off < 0xE81000) ||
    (decide (0xE01000 ≤ off ∧ off < 0xE03800) && decide ((off - 0xE01000) % 0x400 < 0x10)) || off == 0x504000 ||
    decide (0x504100 ≤ off ∧ off < 0x504180) || decide (0x600010 ≤ off ∧ off < 0x6000C0) ||
    (decide (0x601000 ≤ off ∧ off < 0x602000) && [0, 0x18, 0x1C].contains ((off - 0x601000) % 0x100))

/-- The RWL fields of a register are read-only now; after a wake from Cellar, of the kept registers those that kept their power. -/
def State.locked (s : State) (off : Nat) : Bool :=
  s.on SYS_LOCK_LOCK || (s.sys.lockEver && lockKept off && (!s.sys.woke || off >>> 20 == 1 || off >>> 20 == 2))

/-- Fields that a write may set. -/
def Acc.writable : Acc → Bool
  | .rw => true
  | .rwl => true
  | .rws => true
  | _ => false

/-- The whole register that a word belongs to, as it stands. -/
def State.wholeReg (s : State) (r : RegRow) (off k : Nat) : Nat :=
  (List.range r.words).foldl (fun a i => a + s.word (off - 4 * k + 4 * i) * 2 ^ (32 * i)) 0

/-- The first part of a write: a lock violation (R547), an illegal setting (R20), or neither. -/
inductive WriteCheck where
  | good
  | lock
  | illegal
  deriving DecidableEq, Repr

/-- Judge a write of a word by its register's table row. -/
def State.checkWrite (s : State) (r : RegRow) (off k v : Nat) : WriteCheck :=
  let w := s.wholeReg r off k
  let changed (f : FieldRow) : Bool := fieldNew f (fieldOld f w) v k != fieldOld f w
  let here := r.fields.filter fun f => (f.part k).isSome
  if s.locked off && here.any (fun f => f.acc == .rwl && changed f) then .lock
  else if here.any (fun f => f.acc.writable && !f.ok (fieldNew f (fieldOld f w) v k)) then .illegal
  else .good

/-- Store the writable fields of a word and clear its RW1C bits (R18). -/
def State.storeFields (s : State) (r : RegRow) (off k v : Nat) : State :=
  let old := s.word off
  let new := r.fields.foldl (fun a f => match f.part k with
    | none => a
    | some (hi, lo, _) =>
      if f.acc.writable then setBits a hi lo (bits v hi lo)
      else if f.acc == .rw1c then setBits a hi lo (bits a hi lo - (bits a hi lo &&& bits v hi lo))
      else a) old
  s.setWord off new

/-- Record a lock violation (R547). -/
def State.lockViol (s : State) (off : Nat) : State := (s.bump SYS_LOCK_VIOL_COUNT).wr SYS_LOCK_LASTVIOL off

/-- A write by the table alone, with something to do once it is applied. -/
def State.writeThen (s : State) (off v : Nat) (f : State → State) : State :=
  match regAt off with
  | none => s
  | some (r, _, k) =>
    match s.checkWrite r off k v with
    | .lock => s.lockViol off
    | .illegal => s.cfgRefuse off
    | .good => f (s.storeFields r off k v)

/-- A write whose fields pass the table's checks is handed to a further check before it is stored. -/
def State.writeIf (s : State) (off v : Nat) (f : State → (State → State) → State) : State :=
  match regAt off with
  | none => s
  | some (r, _, k) =>
    match s.checkWrite r off k v with
    | .lock => s.lockViol off
    | .illegal => s.cfgRefuse off
    | .good => f s fun t => t.storeFields r off k v

/-! ### Reads (R85) -/

/-- A requester's number for its holding registers: each host port, the image, the debug port, each plan. -/
def State.holder (s : State) (req : Requester) : Nat :=
  match req with
  | .host sl => s.rd (VMS_SL_CFG_PORT sl)
  | .image => 2
  | .debug => 3
  | .plan c => 4 + c.val

/-- A requester's number for what a read returned to it. -/
def reqKey : Requester → Nat
  | .host sl => sl.val
  | .image => 64
  | .debug => 65
  | .plan c => 66 + c.val

/-- Does a 64-bit register latch under R85 (R124, R343, R370, R383, R418, R443, R465, R490, R502, R528, R561). -/
def latches (r : RegRow) (off : Nat) : Bool :=
  r.words == 2 && ([0, 1, 2, 4, 6, 7, 13, 14, 15, 16, 17].contains (off >>> 20) ||
    decide (0x2000000 ≤ off ∧ ((off % 0x20000 / 8 * 8 = 0x20) ∨ off % 0x20000 / 8 * 8 = 0x28 ∨
      off % 0x20000 / 8 * 8 = 0x1020 ∨ off % 0x20000 / 8 * 8 = 0x1028)) || decide (0xB00000 ≤ off ∧ off < 0xB00100))

/-- Registers whose value is worked out when they are read (R26, R83, R305, R321 to R323, R398, R404, R407, R510, R519). -/
def State.liveWord (s : State) (req : Requester) (off : Nat) : Nat :=
  if 0x2000000 ≤ off ∧ off % 0x20000 = 0 then
    let c := (off - 0x2000000) / 0x20000
    match req with
    | .plan _ => c
    | _ =>
      let p := s.placeOf c
      c + (p / 16) * 2 ^ 8 + (p % 16) * 2 ^ 16 + (p % 16 / 2) * 2 ^ 20 + (4 * (p / 16) + p % 16 / 4) * 2 ^ 24
  else if 0x2000000 ≤ off ∧ off % 0x20000 = 4 then
    let c := (off - 0x2000000) / 0x20000
    s.rd (CORE_STATE_STATE c) + (match s.coreOwner c with
      | some p => 4 + p * 2 ^ 8
      | none => 0) + s.domState (s.coreDom c) * 2 ^ 16
  else if 0x2000000 ≤ off ∧ off % 0x20000 = 0x2004 ∧ bit (s.word off) 31 ∧ s.word off % 2 ^ 16 ≠ 0xFFFF then
    setBits (s.word off) 15 0 (Config.guardCycles ((off - 0x2000000) / 0x20000) s.now).toNat
  else if 0x200100 ≤ off ∧ off < 0x200300 ∧ (off - 0x200100) % 0x80 / 8 = 4 then
    s.time ((off - 0x200100) / 0x80) / 2 ^ (32 * ((off / 4) % 2)) % 2 ^ 32
  else if off < 0x2000000 ∧ s.blockOff (off >>> 20) then 0
  else if off = 0x100020 then setBits (s.word off) 1 0 1
  else if off = 0x100218 ∨ off = 0x100220 then s.word off ||| 2 ^ 31
  else if off = 0x40000C then s.word off ||| 0xB409
  else if 0x601000 ≤ off ∧ off < 0x602000 ∧ off % 0x100 = 8 then
    setBits (s.word off) 8 0 (s.coresOf ((off - 0x601000) / 0x100)).length
  else if 0x601000 ≤ off ∧ off < 0x602000 ∧ off % 0x100 / 8 = 5 ∧ s.classOf ((off - 0x601000) / 0x100) = 0 then 0xFFFFFFFF
  else if off = 0x400040 then
    (List.range 16).foldl (fun a p => if s.on (PART_CFG_EN p) && s.classOf p == 0 then a ||| 2 ^ p else a) (s.word off)
  else if 0x400110 ≤ off ∧ off < 0x400120 then setBits (s.word off) 19 0 (s.quadAge ((off - 0x400110) / 4))
  else if 0xC0B000 ≤ off ∧ off < 0xC0B300 ∧ (off - 0xC0B000) % 0x20 = 0x10 then
    setBits (s.word off) 1 1 (b2n (s.pairForced ((off - 0xC0B000) / 0x20)))
  else
    match regAt off with
    | none => 0
    | some (r, _, k) =>
      let wo := r.fields.foldl (fun a f => match f.part k with
        | some (hi, lo, _) => if f.acc == .wo then a ||| (2 ^ (hi + 1) - 2 ^ lo) else a
        | none => a) 0
      s.word off - (s.word off &&& wo)

/-- A read of a word by a requester: its value, and the state with the holding registers moved (R85). -/
def State.readWord (s : State) (req : Requester) (off : Nat) : Nat × State :=
  match regAt off with
  | none => (0, s)
  | some (r, _, k) =>
    let key := (off - 4 * k) * 512 + s.holder req
    if ¬ latches r off then (s.liveWord req off, s)
    else if k = 0 then
      (s.liveWord req off, { s with hold := mset (fun _ => none) s.hold key (some (BitVec.ofNat 32 (s.liveWord req (off + 4)))) })
    else
      match mget (fun _ => none) s.hold key with
      | some v => (v.toNat, { s with hold := mset (fun _ => none) s.hold key none })
      | none => (s.liveWord req off, s)

/-- A read by a requester whose value is shown to it. -/
def State.readBy (s : State) (req : Requester) (off : Nat) : State :=
  match s.reach req off 4 false with
  | .ok =>
    let r := s.readWord req off
    { r.2 with readback := mset (fun _ => (0 : Word)) r.2.readback (reqKey req) (BitVec.ofNat 32 r.1) }
  | x => s.refused req x off

/-- REG64_LOWER_READ (R85): the lower word of a latching register is read. -/
def execReg64LowerRead (req : Requester) (off : Nat) (s : State) : Host.Outcome State Fault Refusal :=
  match regAt off with
  | some (r, _, 0) => if latches r off then .next (s.readBy req off) else .next s
  | _ => .next s

/-- REG64_UPPER_READ (R85): the upper word of a latching register is read. -/
def execReg64UpperRead (req : Requester) (off : Nat) (s : State) : Host.Outcome State Fault Refusal :=
  match regAt off with
  | some (r, _, 1) => if latches r off then .next (s.readBy req off) else .next s
  | _ => .next s

end Sys2Proof.Machine
end

