-- ==== Sys2Proof/Machine/MemoryEv.lean ====
section
/-! DEFINITION. Scrubbing, triggered passes, fills, error injection and LPDDR windows (R159, R174 to R184). -/

namespace Sys2Proof.Machine

/-! ### Scrubber visits (R176, R179) -/

/-- The address an instance's log entry or MEM_UE_FIRST gives a granule, and its class. -/
def State.logAddr (s : State) (g : Nat) : Nat :=
  match s.keyAddr g with
  | some a => a
  | none => (g - 2 ^ 48) % 2 ^ 36

/-- A granule was corrected in two successive sweeps (R176, R405). -/
def State.hardCE (s : State) (g : Nat) : State :=
  let i := instOf g
  let s1 := (((s.wr (instST i 3) 1).wr MEM_EVENT_HARD_CE 1).wr SAF_WARN_HARD_CE 1).log 0x83
    [s.logAddr g, if i < 256 then 0 else if i < 512 then 1 else 2]
  if i < 256 then s1.addVictim 2 (s1.placeOf i) else s1

/-- Which row of the table of R176 a granule falls under. -/
inductive Found where
  | clean
  | fixed (words : Nat)
  | newBad
  | carried
  deriving DecidableEq, Repr

def State.found (s : State) (g : Nat) : Found :=
  if s.carried g then .carried
  else if s.newBad g then .newBad
  else
    let n := ((granuleWords g).filter s.correctable).length
    if n = 0 then .clean else .fixed n

/-- One visit of a granule (R176). -/
def State.visit (s : State) (g : Nat) : State :=
  let i := instOf g
  match s.found g with
  | .clean => s
  | .fixed _ =>
    let s1 := (granuleWords g).foldl (fun a w =>
      if s.correctable w then ((a.setRaw w (s.wordAt w)).setSynd w 0).countCE i else a) s
    let now := mget (fun _ => 0) s.memory.sweep i + 1
    let last := mget (fun _ => 0) s.memory.fixedIn g
    let s2 := s1.mMem fun x => { x with fixedIn := mset (fun _ => 0) x.fixedIn g now }
    if last ≠ 0 ∧ last + 1 = now then s2.hardCE g else s2
  | .newBad => (granuleWords g).foldl (fun a w => a.setSynd w 0x7F) (s.countUE g)
  | .carried => s.countPS g

/-- Bytes of an instance, the key of its first byte, its power domain and its scrub rate. -/
def State.instSize (s : State) (i : Nat) : Nat := if i < 256 then 0x180000 else if i < 512 then 0x200000 else s.lpDensity * 2 ^ 26
def instKey (i : Nat) : Nat := if i < 256 then coreKey i 0 else if i < 512 then 0x100000000 + (i - 256) * 0x200000 else lpKey (i - 512) 0
def State.instDom (s : State) (i : Nat) : Nat := if i < 256 then s.coreDom i else if i < 512 then tunDom ((i - 256) / 16) else 101 + (i - 512) / 4
def State.instRate (s : State) (i : Nat) : Nat :=
  if i < 256 then s.rd MEM_SCRUB_RATE_CORE else if i < 512 then s.rd MEM_SCRUB_RATE_TUN else s.rd MEM_SCRUB_RATE_LP

/-- The next granule of an instance's background scrubber. -/
def State.scrubPos (s : State) (i : Nat) : Nat :=
  if i < 256 then s.rd (CORE_SCRUB_POS_OFFSET i) else mget (fun _ => 0) s.memory.scrub i
def State.setScrub (s : State) (i v : Nat) : State :=
  if i < 256 then s.wr (CORE_SCRUB_POS_OFFSET i) v else s.mMem fun x => { x with scrub := mset (fun _ => 0) x.scrub i v }

/-- SCRUB_VISIT (R174, R176): only in Run, with the class's rate on and the memory filled. -/
def execScrubVisit (inst : Fin 528) (s : State) : Out :=
  let i := inst.val
  let p := s.scrubPos i
  if s.instRate i = 0 ∨ s.domState (s.instDom i) ≠ 0 ∨ (i < 512 ∧ s.memory.filling) ∨
      (512 ≤ i ∧ s.rd MEM_LP_FILL_FILLED ≤ p / 2 ^ 26) ∨ s.memory.excluded.contains i then .next s
  else
    let s1 := s.visit (instKey i + p)
    if s.instSize i ≤ p + 64 then
      .next ((s1.setScrub i 0).mMem fun x => { x with sweep := mset (fun _ => 0) x.sweep i (mget (fun _ => 0) x.sweep i + 1) })
    else .next (s1.setScrub i (p + 64))

/-! ### Triggered passes (R177, R178) -/

def tsReset : Nat → TsCtx := fun _ => ⟨0, 0, 0, 0, 0, []⟩
def State.tsCtx (s : State) (t : Nat) : TsCtx := mget tsReset s.memory.ts t
def State.setTs (s : State) (t : Nat) (v : TsCtx) : State := s.mMem fun x => { x with ts := mset tsReset x.ts t v }

/-- The partition a requester acts for in an ownership check: none for the image and the debug port, which reach any. -/
def State.actsFor (s : State) : Requester → Option Nat
  | .host sl => some ((s.slicePart sl).getD 16)
  | .plan c => some (s.partOf c)
  | _ => none

/-- May the requester use the byte at an address. -/
def State.mayUse (s : State) (req : Requester) (a : Nat) : Bool :=
  match s.actsFor req with
  | none => true
  | some p => s.checkByte p true a == .ok

/-- The class of a range (0 core memory, 1 Tun, 2 LPDDR) and addresses that stand for its parts; none if it lies in more than
one class or includes an unpopulated address. -/
def State.rangeClass (s : State) (a len : Nat) : Option (Nat × List Nat) :=
  match s.decode a with
  | .core _ o => if o + len ≤ 0x180000 then some (0, [a]) else none
  | .tun _ => if a + len ≤ 0x120000000 then
      some (1, a :: ((List.range (len / 0x200000 + 1)).map fun i => (a / 0x200000 + 1 + i) * 0x200000).filter (· < a + len)) else none
  | .lpddr .. =>
    let ps := a :: ((List.range (len / 2 ^ 30 + 1)).map fun i => (a / 2 ^ 30 + 1 + i) * 2 ^ 30).filter (· < a + len)
    if ps.all (fun x => match s.decode x with
      | .lpddr .. => true
      | _ => false) then some (2, ps) else none
  | _ => none

/-- The ERR code of a start, 0 for none (R177). -/
def State.tsCheck (s : State) (req : Requester) (t cls : Nat) : Nat :=
  let a := s.rd (MEM_TS_BASE_ADDR t)
  let out := s.rd (MEM_TS_OUT_ADDR t)
  let n := s.rd (MEM_TS_LEN_GRANULES t)
  match s.rangeClass a (64 * max n 1) with
  | none => 1
  | some (c, ps) =>
    if c ≠ cls ∨ n = 0 ∨ 2 ^ 30 < n ∨ (s.memKey out).isNone then 1
    else if ¬ ps.all (s.mayUse req) ∨ ¬ s.mayUse req out then 2
    else if ps.any (fun x => match s.memKey x with
      | some k => s.domState (s.instDom (instOf k)) == 3
      | none => true) then 3
    else 0

/-- The behaviour of a write of MEM_TS_CTLt (R177): while a pass runs, GO stays 1 and a write of GO = 1 is refused whole. -/
def State.writeTsCtl (s : State) (req : Requester) (t v : Nat) : State :=
  let off := (MEM_TS_CTL_GO t).off
  s.writeIf off v fun s0 put =>
    if s0.on (MEM_TS_CTL_GO t) then
      if bit v 31 then s0.wr (MEM_TS_CTL_ERR t) 4 else (put s0).wr (MEM_TS_CTL_GO t) 1
    else if ¬ bit v 31 then put s0
    else
      let e := s0.tsCheck req t (bits v 29 28)
      let s1 := (put s0).wr (MEM_TS_CTL_ERR t) e
      if e ≠ 0 then s1.wr (MEM_TS_CTL_GO t) 0 else s1.setTs t ⟨0, s1.now, 0, 0, 0, []⟩

/-- MEM_TS_GO (R177). -/
def execMemTsGo (req : Requester) (t : Fin 4) (value : BitVec 32) (s : State) : Out :=
  .next (s.asWriter req (MEM_TS_CTL_GO t).off 4 fun a => a.writeTsCtl req t value.toNat)

/-- TS_GRANULE (R176, R177): the next granule of a running pass is visited. -/
def execTsGranule (t : Fin 4) (s : State) : Out :=
  let x := s.tsCtx t
  let a := s.rd (MEM_TS_BASE_ADDR t) + 64 * x.done
  match s.memKey a with
  | none => .next s
  | some g =>
    if ¬ s.on (MEM_TS_CTL_GO t) ∨ s.rd (MEM_TS_LEN_GRANULES t) ≤ x.done ∨ s.memory.filling ∨ ¬ s.lpReady a then .next s
    else
      let y : TsCtx := { x with done := x.done + 1 }
      let z := match s.found g with
        | .clean => y
        | .fixed n => { y with ce := y.ce + n }
        | .newBad => { y with ue := y.ue + 1, found := if y.found.length < 16 then y.found ++ [(false, a)] else y.found }
        | .carried => { y with ps := y.ps + 1, found := if y.found.length < 16 then y.found ++ [(true, a)] else y.found }
      .next ((s.visit g).setTs t z)

/-- The summary record (R178). -/
def tsRecord (x : TsCtx) (fin : Nat) : List MByte :=
  leBytes 8 x.start ++ leBytes 8 fin ++ leBytes 4 x.done ++ leBytes 4 x.ce ++ leBytes 4 x.ue ++ leBytes 4 x.ps ++
    ((List.range 16).flatMap fun i => match x.found[i]? with
      | some (c, a) => leBytes 8 (2 ^ 63 + b2n c * 2 ^ 62 + a % 2 ^ 48)
      | none => leBytes 8 0) ++ leBytes 32 0

/-- TS_DONE (R178). -/
def execTsDone (t : Fin 4) (s : State) : Out :=
  let x := s.tsCtx t
  if ¬ s.on (MEM_TS_CTL_GO t) ∨ x.done ≠ s.rd (MEM_TS_LEN_GRANULES t) then .next s
  else .next ((((s.blkWrite (s.rd (MEM_TS_OUT_ADDR t)) (tsRecord x s.now)).wr (MEM_TS_CTL_GO t) 0).wr (MEM_TS_CTL_DONE t) 1).wr
    MEM_EVENT_TS_DONE 1)

/-! ### Injection (R184) -/

/-- The behaviour of a write of MEM_INJ_CTL. -/
def State.writeInjCtl (s : State) (v : Nat) : State :=
  let lim := match bits v 30 29 with | 0 => 64 | 1 => 8 | 2 => 71 | _ => 128
  s.writeIf MEM_INJ_CTL_ARM.off v fun s0 put => if lim ≤ bits v 22 16 then s0.cfgRefuse MEM_INJ_CTL_ARM.off else put s0

/-- MEM_INJ_ARM (R184). -/
def execMemInjArm (req : Requester) (value : BitVec 32) (s : State) : Out :=
  .next (s.asWriter req MEM_INJ_CTL_ARM.off 4 fun a => a.writeInjCtl value.toNat)

/-! ### Fills (R180, R182) -/

/-- Every word of every on-chip memory and buffer zero, the operand buffers with correct parity. -/
def State.fillAll (s : State) : State :=
  (s.fillRange 0 (2 ^ 48)).mCore fun x =>
    { x with acc := [], accMark := [], vreg := [], vMark := [], feedUses := [], upsets := [] }

/-- LPDDR_REGION_FILLED (R180, R182): once every channel has trained or is excluded, the next region. -/
def execLpddrRegionFilled (s : State) : Out :=
  let r := s.rd MEM_LP_FILL_FILLED
  let ready := (List.range 16).all fun ch => bit s.memory.lpTrained ch || s.memory.excluded.contains (512 + ch)
  if ¬ ready ∨ s.lpDensity ≤ r then .next s
  else
    let s1 := (List.range 16).foldl (fun a ch => a.fillRange (lpKey ch (r * 2 ^ 26)) (lpKey ch ((r + 1) * 2 ^ 26))) s
    let s2 := s1.wr MEM_LP_FILL_FILLED (r + 1)
    .next (if r + 1 = s.lpDensity then (s2.wr MEM_LP_FILL_DONE 1).wr MEM_EVENT_FILL_DONE 1 else s2)

/-! ### LPDDR windows (R159) -/

/-- Record a refused write of a window's registers. -/
def State.lpwErr (s : State) (w reason : Nat) : State :=
  ((s.wr MEM_LPW_ERR_ERR 1).wr MEM_LPW_ERR_WIN w).wr MEM_LPW_ERR_REASON reason

/-- The check of R159 of window w with a CFG value: 0, or the REASON. -/
def State.lpwCheck (s : State) (w v : Nat) : Nat :=
  let mask := s.rd (MEM_LPW_MAP_CHMASK w)
  let n := (setBitsOf 16 mask).length
  let base := bits v 13 8
  let size := bits v 21 16 + 1
  let lo (k : Nat) : Nat := s.rd (MEM_LPW_MAP_CHBASE k) * 2 ^ 26
  let per := size * 2 ^ 30 / max n 1
  let others := (List.range 16).filter fun k => k != w && s.on (MEM_LPW_CFG_EN k)
  if ¬ [1, 2, 4, 8, 16].contains n then 1
  else if bits v 1 0 = 3 then 2
  else if s.lpDensity < base + size then 3
  else if others.any (fun k => decide (base < s.rd (MEM_LPW_CFG_BASE k) + s.rd (MEM_LPW_CFG_SIZE k) + 1 ∧
      s.rd (MEM_LPW_CFG_BASE k) < base + size)) then 4
  else if s.lpDensity * 2 ^ 26 < lo w + per then 5
  else if others.any (fun k =>
      let m := s.rd (MEM_LPW_MAP_CHMASK k)
      let per' := (s.rd (MEM_LPW_CFG_SIZE k) + 1) * 2 ^ 30 / max (setBitsOf 16 m).length 1
      decide (m &&& mask ≠ 0 ∧ lo w < lo k + per' ∧ lo k < lo w + per)) then 6
  else 0

/-- The behaviour of a write of MEM_LPW_CFGw. -/
def State.writeLpwCfg (s : State) (w v : Nat) : State :=
  let off := (MEM_LPW_CFG_EN w).off
  let old := s.word off
  let fields (x : Nat) : List Nat := [bits x 27 24, bits x 23 23, bits x 21 16, bits x 13 8, bits x 1 0]
  match regAt off with
  | none => s
  | some (r, _, k) =>
    if s.checkWrite r off k v = .lock then s.lockViol off
    else if bit old 31 then
      if fields v ≠ fields old then s.lpwErr w 7
      else if ¬ bit v 31 ∧ ¬ bit old 23 ∧ s.on (PART_CFG_EN (bits old 27 24)) then s.lpwErr w 8
      else s.storeFields r off k v
    else if bit v 31 then
      let e := s.lpwCheck w v
      if e ≠ 0 then s.lpwErr w e else s.storeFields r off k v
    else if s.checkWrite r off k v = .illegal then s.cfgRefuse off
    else s.storeFields r off k v

/-- The behaviour of a write of MEM_LPW_MAPw: ignored while the window is enabled. -/
def State.writeLpwMap (s : State) (w v : Nat) : State :=
  s.writeIf (MEM_LPW_MAP_CHMASK w).off v fun s0 put => if s0.on (MEM_LPW_CFG_EN w) then s0.lpwErr w 7 else put s0

/-- MEM_LPW_CFG_WRITE (R159). -/
def execMemLpwCfgWrite (req : Requester) (w : Fin 16) (value : BitVec 32) (s : State) : Out :=
  .next (s.asWriter req (MEM_LPW_CFG_EN w).off 4 fun a => a.writeLpwCfg w value.toNat)

end Sys2Proof.Machine
end

