-- ==== Sys2Proof/Machine/Queue.lean ====
section
/-! DEFINITION. What the device blocks share: sources of R134, failing accesses of a block, submission and completion rings
(R237, R252, R266), MSI-X messages (R434) and the time-slot gate of R355. -/

namespace Sys2Proof.Machine

/-! ### Sources (R134) -/
def srcIng : Nat := 256
def srcDec : Nat := 257
def srcPre : Nat := 258
def srcSol : Nat := 259
def srcCtl : Nat := 260
def srcCan : Nat := 261
def srcNet : Nat := 262
def srcCkp : Nat := 263
def srcHost : Nat := 264
def srcSeq : Nat := 265
/-- The safety block's place on the SAF class, above the requesters of R134. -/
def epSaf : Nat := 850

def State.mVis (s : State) (f : VisSt → VisSt) : State := { s with vis := f s.vis }

/-! ### Failing accesses of a block (R47, R346, R357) -/

/-- A block's access that fails its source check faults the owner. -/
def State.blkFail (s : State) (p src : Nat) (c : Check) (a : Nat) : State :=
  match c with
  | .ok => s
  | .decode => s.partFault p kDecode src s.ownChip a
  | .isolation => s.partFault p kIsolation src s.ownChip a

/-- A bite of poison in a block (R173). -/
def State.bite (s : State) (p src a : Nat) : State := s.partFault p kPoison src s.ownChip (a / 64 * 64)

/-- An address lies in Tun. -/
def State.inTun (s : State) (a : Nat) : Bool :=
  match s.decode a with
  | .tun _ => true
  | _ => false

/-- A run of addresses lies in Tun slice groups of partition p. -/
def State.tunOwned (s : State) (p a len : Nat) : Bool :=
  s.inTun a && s.inTun (a + len - 1) && s.checkRun p true a len == .ok

/-- A core is one of partition p. -/
def State.coreIn (s : State) (c p : Nat) : Bool := s.coreOwner c == some p

/-! ### Submission and completion rings, by the offset of their registers (R237) -/

def qEn (b : Nat) : Fld := ⟨b, 31, 31, false⟩
def qPsrc (b : Nat) : Fld := ⟨b, 30, 30, false⟩
def qOwner (b : Nat) : Fld := ⟨b, 23, 20, false⟩
def qLog (b : Nat) : Fld := ⟨b, 3, 0, false⟩
def qPidx (b : Nat) : Fld := ⟨b + 4, 31, 0, false⟩
def qCidx (b : Nat) : Fld := ⟨b + 8, 31, 0, false⟩
def qNoteEn (b : Nat) : Fld := ⟨b + 0xC, 15, 15, false⟩
def qNoteCnt (b : Nat) : Fld := ⟨b + 0xC, 12, 8, false⟩
def qNoteCore (b : Nat) : Fld := ⟨b + 0xC, 7, 0, false⟩
def qSq (b : Nat) : Fld := ⟨b + 0x10, 47, 0, true⟩
def qCq (b : Nat) : Fld := ⟨b + 0x18, 47, 0, true⟩
def qPword (b : Nat) : Fld := ⟨b + 0x20, 47, 0, true⟩

/-- The queues of DEC, PRE and SOL. -/
def decQ (q : Nat) : Nat := 0x900100 + 0x40 * q
def preQ (q : Nat) : Nat := 0xA00100 + 0x40 * q
def solQ (q : Nat) : Nat := 0xB00100 + 0x40 * q

/-- The source number behind a queue. -/
def qSrc (b : Nat) : Nat :=
  match b >>> 20 with
  | 9 => srcDec | 10 => srcPre | 11 => srcSol | 13 => srcCan | 16 => srcCan | 14 => srcNet | 17 => srcCkp | _ => srcNet

/-- Only the queues of DEC, PRE and SOL reach host memory (R429). -/
def qHost (b : Nat) : Bool := decide (9 ≤ b >>> 20 ∧ b >>> 20 ≤ 11)

/-- The number VMS_QVEC gives a queue (R434). -/
def qVec (b : Nat) : Option Nat :=
  match b >>> 20 with
  | 9 => some ((b - 0x900100) / 0x40)
  | 10 => some (16 + (b - 0xA00100) / 0x40)
  | 11 => some (32 + (b - 0xB00100) / 0x40)
  | _ => none

def queueReset : Nat → QueueSt := fun _ => ⟨0, 0⟩
def State.queue (s : State) (b : Nat) : QueueSt := mget queueReset s.queues b
def State.setQueue (s : State) (b : Nat) (v : QueueSt) : State := { s with queues := mset queueReset s.queues b v }
def State.qSize (s : State) (b : Nat) : Nat := 2 ^ s.rd (qLog b)
def State.qPart (s : State) (b : Nat) : Nat := s.rd (qOwner b)

/-- The partition's blocks fetch descriptors: it is not stopped by a fault, in reset or frozen (R358, R435). -/
def State.fetchOk (s : State) (p : Nat) : Bool :=
  s.rd (PART_STATUS_STATE p) != stFault && s.rd (PART_STATUS_STATE p) != stResetting &&
    !mget (fun _ => false) s.part.frozen p

/-- A new SOL, DEC or PRE sample job of the partition may start in the present slot (R355). -/
def State.slotOpen (s : State) (p : Nat) : Bool :=
  !s.on PART_SLOT_CFG_EN || s.classOf p == 0 || bit (s.rd (PART_SLOTMASK_MASK p)) s.part.slot

/-- Descriptors wait in an enabled queue. -/
def State.qReady (s : State) (b : Nat) : Bool :=
  s.on (qEn b) && s.fetchOk (s.qPart b) && (s.queue b).prod != (s.queue b).next

/-- The head descriptor's address. -/
def State.qHeadAddr (s : State) (b : Nat) : Nat := s.rd (qSq b) + (s.queue b).next % s.qSize b * 64

/-- The head descriptor as a read would return it, uncounted. -/
def State.qPeek (s : State) (b : Nat) : Nat := leNum ((s.runKeys (s.qHeadAddr b) 64).map s.byteAt)

/-- Take the head descriptor: its 512 bits and whether it is poisoned; none where its address fails the owner's check (the
owner is faulted). -/
def State.qTake (s : State) (b : Nat) : Option (Nat × Bool) × State :=
  let a := s.qHeadAddr b
  match s.checkRun (s.qPart b) false a 64 (qHost b) with
  | .ok =>
    let r := s.blkRead a 64
    (some (leNum r.1, anyPois r.1), r.2.setQueue b ⟨(s.queue b).prod, ((s.queue b).next + 1) % 2 ^ 32⟩)
  | c => (none, s.blkFail (s.qPart b) (qSrc b) c a)

/-- Write a completion record of n bytes (R237, R274): into the next completion slot, the target notified, CIDX advanced, the
MSI-X vector of the queue sent (R434). -/
def State.complete (s : State) (b n : Nat) (rec : List MByte) : State :=
  let p := s.qPart b
  let a := s.rd (qCq b) + s.rd (qCidx b) % s.qSize b * n
  match s.checkRun p true a n (qHost b) with
  | .ok =>
    let s1 := s.blkWrite a rec
    let s2 := if s1.on (qNoteEn b) then s1.notify (qSrc b) p (s1.rd (qNoteCore b)) (s1.rd (qNoteCnt b)) 1 else s1
    let s3 := s2.bumpWrap (qCidx b) 1
    match qVec b with
    | some i => if s3.on (VMS_QVEC_EN i) then s3.msix (s3.rd (VMS_QVEC_SLICE i)) (s3.rd (VMS_QVEC_VEC i)) else s3
    | none => s3
  | c => s.blkFail p (qSrc b) c a

/-- Read the Tun producer word (R237): a 4 B aligned Tun address of the owner. -/
def State.readPword (s : State) (b : Nat) : State :=
  let a := s.rd (qPword b)
  let p := s.qPart b
  if ¬ s.inTun a then s.blkFail p (qSrc b) .decode a
  else match s.checkRun p false a 4 with
  | .ok =>
    let r := s.blkRead a 4
    if anyPois r.1 then r.2.bite p (qSrc b) a
    else r.2.setQueue b ⟨leNum r.1, (s.queue b).next⟩
  | c => s.blkFail p (qSrc b) c a

/-- The producer index moves (R237): from PIDX, or, where PSRC is 1, from the producer word. -/
def State.newPidx (s : State) (b : Nat) : State :=
  if ¬ s.on (qEn b) ∨ ¬ s.fetchOk (s.qPart b) then s
  else if s.on (qPsrc b) then s.readPword b
  else s.setQueue b ⟨s.rd (qPidx b), (s.queue b).next⟩

/-- An enable or disable of a queue, the other checks made: enabling starts both rings at index 0. -/
def State.qEnabled (s : State) (b : Nat) : State := (s.setQueue b ⟨0, 0⟩).wr (qCidx b) 0

/-- A write of a register of a queue: while EN is 1 only a write of CFG that clears EN and leaves the rest is accepted
(R252); PIDX is written freely. `enable` judges and completes an enabling write, `disable` follows a disabling one. -/
def State.writeQueue (s : State) (off b v : Nat) (enable disable : State → State) : State :=
  s.writeIf off v fun s0 put =>
    if off = b + 4 then (put s0).newPidx b
    else if off = b + 0xC then put s0
    else if s0.on (qEn b) then
      if off = b ∧ ¬ bit v 31 ∧ (put s0).word b = s0.word b - 2 ^ 31 then disable (put s0) else s0.cfgRefuse off
    else if off = b ∧ bit v 31 then enable (put s0)
    else put s0

/-- The offset of a DEC, PRE or SOL queue's first register, from an offset inside it. -/
def queueAt (off : Nat) : Option Nat :=
  [0x900100, 0xA00100, 0xB00100].find? (fun x => decide (x ≤ off ∧ off < x + 0x400)) |>.map fun x => x + (off - x) / 0x40 * 0x40

end Sys2Proof.Machine
end

