-- ==== Sys2Proof/Machine/Preproc.lean ====
section
/-! DEFINITION. The pre-processing chain as a function of image, descriptor and grid (R228 to R232), contexts and their
output buffers (R222 to R227, R252), the enabling of contexts and PRE queues. -/

namespace Sys2Proof.Machine

/-! ### The context descriptor (R228) -/

def pcSrc (d : Nat) : Bool := bit d 0
def pcCfa (d : Nat) : Nat := bits d 3 1
def pcBin (d : Nat) : Nat := 2 ^ bits d 5 4
def pcFmt (d : Nat) : Nat := bits d 11 8
def pcOch (d : Nat) : Nat := bits d 13 12
def pcGs (d : Nat) : Nat := bits d 18 16
def pcNbuf (d : Nat) : Nat := bits d 23 20 + 1
def pcOutW (d : Nat) : Nat := rdHalf d 4
def pcOutH (d : Nat) : Nat := rdHalf d 6
def pcWarp (d : Nat) : Nat := rdByte d 8
def pcStripe (d : Nat) : Nat := rdByte d 9
def pcPitch (d : Nat) : Nat := rdWord d 0xC
def pcObase (d : Nat) : Nat := bits d (8 * 0x10 + 47) (8 * 0x10)
def pcOstride (d : Nat) : Nat := bits d (8 * 0x18 + 63) (8 * 0x18)
def pcRel (d : Nat) : Nat := bits d (8 * 0x20 + 47) (8 * 0x20)
def pcRecBase (d : Nat) : Nat := bits d (8 * 0x28 + 47) (8 * 0x28)
def pcNrec (d : Nat) : Nat := bits d (8 * 0x30 + 8) (8 * 0x30)
def pcRecCore (d : Nat) : Nat := bits d (8 * 0x30 + 23) (8 * 0x30 + 16)
def pcRecCnt (d : Nat) : Nat := bits d (8 * 0x30 + 28) (8 * 0x30 + 24)
/-- Notification target i: enabled, core, counter. -/
def pcNote (d i : Nat) : Bool × Nat × Nat := (bit d (8 * (0x34 + 4 * i) + 15), rdByte d (0x34 + 4 * i), bits d (8 * (0x34 + 4 * i) + 12) (8 * (0x34 + 4 * i) + 8))
def pcGrid (d : Nat) : Nat := bits d (8 * 0x48 + 47) (8 * 0x48)
def pcBorder (d : Nat) : Nat := rdHalf d 0x60
def pcPadv (d : Nat) : Nat := rdHalf d 0x62
def pcLstamp (d : Nat) : Nat := bits d (8 * 0x98 + 47) (8 * 0x98)
def pcInW (d : Nat) : Nat := rdHalf d 0xA0
def pcInH (d : Nat) : Nat := rdHalf d 0xA2
/-- Channels written and element size in bytes. -/
def pcChans (d : Nat) : Nat := match pcOch d with | 0 => 1 | 1 => 3 | _ => 4
def pcElem (d : Nat) : Nat := fmtNibs (pcFmt d) / 2
def ceilDiv (a b : Nat) : Nat := (a + b - 1) / b
/-- Grid entries to a row, and rows, for an output size. -/
def gridW (d w : Nat) : Nat := ceilDiv w (2 ^ pcGs d) + 1
/-- Stripes of a frame, and rows of stripe k. -/
def pcStripes (d : Nat) : Nat := ceilDiv (pcOutH d) (max (pcStripe d) 1)
def pcStripeRows (d k : Nat) : Nat := min (pcStripe d) (pcOutH d - k * pcStripe d)

/-- The legal values of R228 that the descriptor alone shows. -/
def pcOk (d : Nat) : Bool :=
  decide (pcCfa d ≠ 7 ∧ bits d 5 4 ≠ 3 ∧ pcOch d ≠ 3 ∧ 3 ≤ pcGs d ∧ 1 ≤ pcOutW d ∧ pcOutW d ≤ 8192 ∧ 1 ≤ pcOutH d ∧
    pcOutH d ≤ 8192 ∧ 2 ≤ pcWarp d ∧ pcWarp d ≤ 128 ∧ 1 ≤ pcStripe d ∧ pcPitch d % 64 = 0 ∧
    pcOutW d * pcChans d * pcElem d ≤ pcPitch d ∧ pcObase d % 64 = 0 ∧ pcOstride d % 64 = 0 ∧
    pcOutH d * pcPitch d ≤ pcOstride d ∧ pcRel d % 8 = 0 ∧ pcRecBase d % 64 = 0 ∧ 2 ≤ pcNrec d ∧ pcNrec d ≤ 256 ∧
    pcGrid d % 8 = 0 ∧ pcLstamp d % 8 = 0 ∧ 1 ≤ pcInW d ∧ 1 ≤ pcInH d) &&
  [0, 2, 3, 4].contains (pcFmt d) &&
  [0x64, 0x68, 0x6C, 0x70, 0x74, 0x78].all fun o => match f32 (rdWord d o) with
    | .fin .. => true
    | _ => false

/-! ### The chain (R229 to R232) -/

/-- An image: the components of the pixel at a row and column. -/
abbrev Image := Nat → Nat → List Nat

/-- A neighbour's index, mirrored at the edges (R230). -/
def mirror (n : Nat) (i : Int) : Nat := if i < 0 then (-i).toNat else if (n : Int) ≤ i then n - 2 else i.toNat

/-- Black level and gain at a CFA position (stage 2). -/
def blackLevel (d y x v : Nat) : Nat :=
  let p := 2 * (y % 2) + x % 2
  min 65535 (((v - rdHalf d (0x50 + 2 * p)) * rdHalf d (0x58 + 2 * p) + 2048) / 4096)

/-- The colour of a Bayer site: 0 R, 1 G, 2 B. -/
def bayerAt (cfa y x : Nat) : Nat :=
  let p := 2 * (y % 2) + x % 2
  (match cfa with
  | 0 => [0, 1, 1, 2]
  | 1 => [1, 0, 2, 1]
  | 2 => [1, 2, 0, 1]
  | _ => [2, 1, 1, 0]).getD p 1

/-- One pixel after stage 3: its channels (one for mono, else R, G, B). -/
def demosaic (d h w : Nat) (img : Image) (y x : Nat) : List Nat :=
  let comp (l : List Nat) (i : Nat) : Nat := match l[i]? with
    | some v => v
    | none => Config.preComp i
  let raw (yy xx : Nat) : Nat := blackLevel d yy xx (comp (img yy xx) 0)
  let at1 (dy dx : Int) : Nat := raw (mirror h (y + dy)) (mirror w (x + dx))
  match pcCfa d with
  | 4 => [raw y x]
  | 5 =>
    let px := img y x
    (List.range 3).map fun i =>
      let sum := (List.range 3).foldl (fun a j =>
        a + toSigned 16 (rdHalf d (0x80 + 2 * (3 * i + j))) * ((comp px j : Int) - (rdHalf d (0x92 + 2 * j) : Nat))) (8192 : Int)
      (clampInt 0 65535 (sum / 16384)).toNat
  | 6 => (List.range 3).map fun i => comp (img y x) i
  | cfa =>
    let own := bayerAt cfa y x
    let cross := (at1 (-1) 0 + at1 1 0 + at1 0 1 + at1 0 (-1) + 2) / 4
    let diag := (at1 (-1) 1 + at1 (-1) (-1) + at1 1 1 + at1 1 (-1) + 2) / 4
    let rowHas := bayerAt cfa y (x + 1)
    let horiz := (at1 0 (-1) + at1 0 1 + 1) / 2
    let vert := (at1 (-1) 0 + at1 1 0 + 1) / 2
    (List.range 3).map fun c =>
      if c = own then raw y x
      else if c = 1 then cross
      else if own = 1 then (if rowHas = c then horiz else vert)
      else diag

/-- One pixel after stage 4. -/
def binned (d h w : Nat) (img : Image) (y x : Nat) : List Nat :=
  let b := pcBin d
  let cells := (List.range (b * b)).map fun k => demosaic d h w img (b * y + k / b) (b * x + k % b)
  (List.range (if pcCfa d = 4 then 1 else 3)).map fun c =>
    (cells.foldl (fun a l => a + l.getD c 0) 0 + b * b / 2) / (b * b)

/-- A grid: SX and SY of an entry by its number. -/
abbrev Grid := Nat → Int × Int

/-- The source position of an output pixel, in 1/256 (R231). -/
def warpPos (d outW : Nat) (g : Grid) (x y : Nat) : Int × Int :=
  let gs := pcGs d
  let c := 2 ^ gs
  let gw := gridW d outW
  let e (i j : Nat) : Int × Int := g ((y / c + j) * gw + x / c + i)
  let fx := x % c
  let fy := y % c
  let mix (f : Int × Int → Int) : Int :=
    (f (e 0 0) * ((c - fx) * (c - fy) : Nat) + f (e 1 0) * (fx * (c - fy) : Nat) + f (e 0 1) * ((c - fx) * fy : Nat) +
      f (e 1 1) * (fx * fy : Nat) + (c * c / 2 : Nat)) / (2 ^ (2 * gs) : Nat)
  (mix (·.1), mix (·.2))

/-- The largest source row that output row y needs (R231); rows outside the binned source are not source rows. -/
def rowNeed (d outW hb : Nat) (g : Grid) (y : Nat) : Nat :=
  (List.range outW).foldl (fun a x => max a (min (max ((warpPos d outW g x y).2 / 256 + 1) 0).toNat (hb - 1))) 0

/-- R_y: the largest source row that output rows 0 to y need. -/
def rowReach (d outW hb : Nat) (g : Grid) (y : Nat) : Nat :=
  (List.range (y + 1)).foldl (fun a k => max a (rowNeed d outW hb g k)) 0

/-- One channel of an output pixel before conversion, for each channel, and the samples lost for lack of warp reach; `top` is
the lowest row the pipeline still holds. -/
def warpPixel (d outW hb wb top : Nat) (src : Image) (g : Grid) (x y : Nat) : List Nat × Nat :=
  let p := warpPos d outW g x y
  let ix := p.1 / 256
  let ux := (p.1 % 256).toNat
  let iy := p.2 / 256
  let uy := (p.2 % 256).toNat
  let inside (dy dx : Int) : Bool := decide (0 ≤ iy + dy ∧ iy + dy < hb ∧ 0 ≤ ix + dx ∧ ix + dx < wb)
  let lost (dy dx : Int) : Bool := inside dy dx && decide (iy + dy < top)
  let px (dy dx : Int) : List Nat := if inside dy dx && !lost dy dx then src (iy + dy).toNat (ix + dx).toNat else []
  let a := px 0 0
  let b := px 0 1
  let c := px 1 0
  let e := px 1 1
  ((List.range (if pcCfa d = 4 then 1 else 3)).map fun k =>
    let v (l : List Nat) : Nat := l.getD k (pcBorder d)
    (v a * ((256 - ux) * (256 - uy)) + v b * (ux * (256 - uy)) + v c * ((256 - ux) * uy) + v e * (ux * uy) + 32768) / 65536,
   ([lost 0 0, lost 0 1, lost 1 0, lost 1 1].filter id).length)

/-- The bytes of an output pixel and how many elements saturation changed (R232). Channel 3 is PADV. -/
def convertPixel (d : Nat) (vs : List Nat) : List Nat × Nat :=
  let n := pcElem d
  let rs := (List.range (min (pcChans d) 3)).map fun c =>
    let t := f32fma (fp32.encode (FVal.ofInt (vs.getD c (vs.getD 0 0) : Nat))) (rdWord d (0x64 + 4 * c)) (rdWord d (0x70 + 4 * c))
    outStage ⟨pcFmt d, 0, false, 0, 0, 0⟩ (f32 t)
  let codes := rs.map (·.code) ++ (if pcChans d = 4 then [pcPadv d] else [])
  (codes.flatMap fun v => (List.range n).map fun i => v / 256 ^ i % 256, (rs.filter (·.sat)).length)

/-- An output row: its bytes, samples lost, elements saturated. The binned source has hb rows of wb pixels. -/
def preRow (d outW h w : Nat) (img : Image) (g : Grid) (y : Nat) : List Nat × Nat × Nat :=
  let hb := h / pcBin d
  let wb := w / pcBin d
  let top := rowReach d outW hb g y + 1 - pcWarp d
  let px := (List.range outW).map fun x => warpPixel d outW hb wb top (binned d h w img) g x y
  let cv := px.map fun p => convertPixel d p.1
  (cv.flatMap (·.1), px.foldl (fun a p => a + p.2) 0, cv.foldl (fun a p => a + p.2) 0)

/-! ### Contexts -/

def ctxReset : Nat → Option PreCtx := fun _ => none
def State.ctx (s : State) (x : Nat) : Option PreCtx := mget ctxReset s.vis.ctx x
def State.setCtx (s : State) (x : Nat) (v : Option PreCtx) : State := s.mVis fun y => { y with ctx := mset ctxReset y.ctx x v }
def State.ctxPart (s : State) (x : Nat) : Nat := s.rd (PRE_CTX_CFG_OWNER x)

/-- The grid at an address, as a read returns it, its poison, and the state with the reads counted. -/
def State.readGrid (s : State) (a n : Nat) : Grid × Bool × State :=
  let r := s.blkRead a (8 * n)
  let arr := r.1.toArray
  let w (k : Nat) : Nat := (List.range 4).foldl (fun acc i => acc + (arr.getD (k + i) (0, false)).1.toNat * 256 ^ i) 0
  (fun e => (toSigned 32 (w (8 * e)), toSigned 32 (w (8 * e + 4))), anyPois r.1, r.2)

/-- Grid entries for an output size. -/
def gridLen (d w h : Nat) : Nat := gridW d w * gridW d h

/-- Poison bites a context (R173). -/
def State.preBite (s : State) (p a : Nat) : State := (s.wr PRE_EVENT_POISON 1).bite p srcPre a

/-- Write output row y of a frame: its bytes and, up to the pitch, padding of open value (R223). -/
def State.writeRow (s : State) (d base y : Nat) (row : List Nat) (pois : Bool) : State :=
  let r := s.draw
  let pad := (List.range (pcPitch d - row.length)).map fun i => (Config.rowPad r.1 i, pois)
  r.2.blkWrite (base + y * pcPitch d) ((row.map fun v => (BitVec.ofNat 8 v, pois)) ++ pad)

/-- The base of buffer j mod NBUF. -/
def bufBase (d j : Nat) : Nat := pcObase d + (j % pcNbuf d) * pcOstride d

/-- Write rows lo to hi − 1 of a frame: the new state, samples lost. -/
def State.writeRows (s : State) (d h w j : Nat) (img : Image) (g : Grid) (pois : Bool) (lo hi : Nat) : Nat × State :=
  ((List.range (hi - lo)).map (lo + ·)).foldl (fun (a : Nat × State) y =>
    let r := preRow d (pcOutW d) h w img g y
    (a.1 + r.2.1, ((a.2.writeRow d (bufBase d j) y r.1 pois).bumpBy PRE_SAT_COUNT_COUNT r.2.2))) (0, s)

/-- Source rows of the binned image that n delivered lines make ready: Bayer debayering needs the row below. -/
def rowsReady (d h n : Nat) : Nat :=
  let bayer := decide (pcCfa d < 4)
  (if h ≤ n then h else if bayer then n - 1 else n) / pcBin d

/-- Carry a context's open camera frame on after lines were delivered (R231): rows whose source is held are written; at FE
(`all`) every row is. -/
def State.ctxAdvance (s : State) (x : Nat) (img : Image) (n : Nat) (all : Bool) : State :=
  match s.ctx x with
  | none => s
  | some c =>
    let d := c.desc.toNat
    match c.frames.reverse with
    | f :: older =>
      if f.job.isSome ∨ f.closed.isSome then s
      else
        let gr := s.readGrid (pcGrid d) (gridLen d (pcOutW d) (pcOutH d))
        if gr.2.1 then gr.2.2.preBite (s.ctxPart x) (pcGrid d)
        else
          let hb := pcInH d / pcBin d
          let avail := rowsReady d (pcInH d) n
          let hi := if all then pcOutH d
            else ((List.range (pcOutH d)).map fun k => k + 1).foldl (fun a k =>
              if a + 1 = k ∧ rowReach d (pcOutW d) hb gr.1 a < avail then k else a) f.rows
          let w := gr.2.2.writeRows d (pcInH d) (pcInW d) f.idx img gr.1 false f.rows hi
          w.2.setCtx x (some { c with frames := (({ f with rows := max hi f.rows, lost := f.lost + w.1 } :: older).reverse) })
    | [] => s

/-- The 64 B frame record (R224). -/
def frameRecord (r : FrameRec) (num idx lost buf flags : Nat) : List MByte :=
  leBytes 8 r.fs ++ leBytes 8 r.fe ++ leBytes 4 num ++ leBytes 4 idx ++ leBytes 8 r.hash ++ leBytes 4 r.cnt ++
    leBytes 2 r.lines ++ leBytes 2 r.replaced ++ leBytes 2 r.firstRep ++ leBytes 1 r.stream ++ leBytes 1 r.ts ++
    leBytes 4 flags ++ leBytes 4 lost ++ leBytes 1 buf ++ leBytes 11 0

/-- Write a frame's record, notify its target, and report its flags (R224, R236). -/
def State.writeFrameRec (s : State) (x : Nat) (d : Nat) (r : FrameRec) (num : Nat) (idx : Option Nat) (lost : Nat) : State :=
  let p := s.ctxPart x
  let flags := r.flags + (if idx.isNone then 1 else 0) + (if 0 < lost then 2 ^ 15 else 0)
  let bytes := frameRecord r num (idx.getD (2 ^ 32 - 1)) lost (match idx with
    | some j => j % pcNbuf d
    | none => 0xFF) flags
  let s1 := s.blkWrite (pcRecBase d + (num % pcNrec d) * 64) bytes
  let s2 := s1.notify srcPre p (pcRecCore d) (pcRecCnt d) 1
  let s3 := s2.wr (ING_STR_STAT_FLAGS r.stream) (s2.rd (ING_STR_STAT_FLAGS r.stream) ||| flags)
  let sel := flags &&& s3.rd (ING_FRZ_ACT_MASK r.stream)
  let s4 := if sel = 0 then s3 else s3.wr ING_EVENT_VERDICT 1
  s4.send ⟨.saf, srcIng, epSaf, p, 0, false, s.ownChip, .frame r.stream sel false⟩

/-- Write the records of a context's frames that are closed and wholly notified. -/
def State.ctxRecords (s : State) (x : Nat) : State :=
  match s.ctx x with
  | none => s
  | some c =>
    let d := c.desc.toNat
    match c.frames with
    | f :: rest =>
      match f.closed with
      | some r =>
        if f.job.isNone ∧ f.notified = pcStripes d then
          (s.setCtx x (some { c with frames := rest })).writeFrameRec x d r f.num (some f.idx) f.lost
        else s
      | none => s
    | [] => s

/-! ### Enabling and disabling contexts (R226 to R228, R252) -/

/-- The camera streams that feed a context. -/
def State.feeders (s : State) (x : Nat) : List Nat :=
  (List.range 64).filter fun t => (s.on (ING_STR_CFG_CTX0_EN t) && s.rd (ING_STR_CFG_CTX0 t) == x) ||
    (s.on (ING_STR_CFG_CTX1_EN t) && s.rd (ING_STR_CFG_CTX1 t) == x)

/-- Every address the descriptor names lies in the owner's slice groups and every target is a core of it (R226). -/
def State.ctxOwned (s : State) (p d : Nat) : Bool :=
  s.tunOwned p (pcObase d) (pcNbuf d * pcOstride d) && s.tunOwned p (pcRel d) 8 &&
    (pcSrc d || (s.tunOwned p (pcRecBase d) (pcNrec d * 64) && s.coreIn (pcRecCore d) p)) &&
    s.tunOwned p (pcGrid d) (8 * gridLen d (pcOutW d) (pcOutH d)) &&
    (pcLstamp d == 0 || s.tunOwned p (pcLstamp d) (8 * pcNbuf d * pcInH d)) &&
    (List.range 4).all fun i => !(pcNote d i).1 || s.coreIn (pcNote d i).2.1 p

/-- Line memory an enabled context takes of its pipeline (R227). -/
def lineMem (d : Nat) : Nat := pcWarp d * (pcInW d / pcBin d) * 6

/-- Class S shares no pipeline with another class (R350). -/
def State.pipeMixed (s : State) (x p pipe : Nat) : Bool :=
  (List.range 128).any fun y => y != x && (s.ctx y).isSome && s.rd (PRE_CTX_CFG_PIPE y) == pipe &&
    ((s.classOf (s.ctxPart y) == 0) != (s.classOf p == 0))

/-- The behaviour of a write of PRE_CTX_CFGx or PRE_CTX_DESCx (R228, R252). -/
def State.writeCtx (s : State) (x off v : Nat) : State :=
  let cfg := (PRE_CTX_CFG_EN x).off
  s.writeIf off v fun s0 put =>
    if s0.on (PRE_CTX_CFG_EN x) then
      if off = cfg ∧ ¬ bit v 31 ∧ (put s0).word cfg = s0.word cfg - 2 ^ 31 then (put s0).setCtx x none
      else s0.wr PRE_EVENT_CFG_ERR 1
    else if off ≠ cfg ∨ ¬ bit v 31 then put s0
    else
      let p := bits ((put s0).word cfg) 23 20
      let pipe := bits v 26 24
      let a := s0.rd (PRE_CTX_DESC_ADDR x)
      match s0.checkRun p false a 256 with
      | .ok =>
        let r := s0.blkRead a 256
        let d := leNum r.1
        let t := r.2
        let used := ((List.range 128).filter fun y => s0.rd (PRE_CTX_CFG_PIPE y) = pipe).foldl (fun acc y =>
          acc + (match s0.ctx y with
            | some c => lineMem c.desc.toNat
            | none => 0)) 0
        if anyPois r.1 then t.preBite p a
        else if ¬ pcOk d ∨ (¬ pcSrc d ∧ (s0.feeders x).any fun q =>
            decide (s0.rd (ING_STR_GEOM_WIDTH q) ≠ pcInW d ∨ s0.rd (ING_STR_GEOM_HEIGHT q) ≠ pcInH d)) then
          t.wr PRE_EVENT_DESC 1
        else if ¬ s0.ctxOwned p d ∨ s0.pipeMixed x p pipe then t.wr PRE_EVENT_ISO 1
        else if 2 ^ 21 < used + lineMem d then t.wr PRE_EVENT_LINEMEM 1
        else (put t).setCtx x (some ⟨BitVec.ofNat 2048 d, 0, 0, []⟩)
      | _ => s0.wr PRE_EVENT_ISO 1

/-- PRE_CTX_ENABLE (R228): a write that sets EN. -/
def execPreCtxEnable (req : Requester) (x : Fin 128) (value : BitVec 32) (s : State) : Out :=
  if bit value.toNat 31 ∧ ¬ s.on (PRE_CTX_CFG_EN x) then
    .next (s.asWriter req (PRE_CTX_CFG_EN x).off 4 fun a => a.writeCtx x (PRE_CTX_CFG_EN x).off value.toNat)
  else .next s

/-- PRE_CTX_DISABLE (R252): a write that clears EN. -/
def execPreCtxDisable (req : Requester) (x : Fin 128) (value : BitVec 32) (s : State) : Out :=
  if ¬ bit value.toNat 31 ∧ s.on (PRE_CTX_CFG_EN x) then
    .next (s.asWriter req (PRE_CTX_CFG_EN x).off 4 fun a => a.writeCtx x (PRE_CTX_CFG_EN x).off value.toNat)
  else .next s

end Sys2Proof.Machine
end

