-- ==== Sys2Proof/Machine/Ingest.lean ====
section
/-! DEFINITION. The ingest block ING: packets, frames, stamps, the frozen-frame detector and the camera sync outputs (R213 to
R225, R233 to R236). -/

namespace Sys2Proof.Machine

def strReset : Nat → IngStr := fun _ => ⟨none, [], none, none, true, none⟩
def State.str (s : State) (t : Nat) : IngStr := mget strReset s.vis.streams t
def State.setStr (s : State) (t : Nat) (v : IngStr) : State := s.mVis fun y => { y with streams := mset strReset y.streams t v }

/-- Components of a pixel of a data type (R214). -/
def dtComps (dt : Nat) : Nat := if dt = 0x24 then 3 else if dt = 0x1E then 2 else 1

/-- Bits of a pixel of a data type. -/
def dtBits (dt : Nat) : Nat :=
  match dt with
  | 0x1E => 16 | 0x24 => 24 | 0x2A => 8 | 0x2B => 10 | 0x2C => 12 | 0x2D => 14 | _ => 16

/-- The word count of a whole line. -/
def lineBytes (dt width : Nat) : Nat := (dtBits dt * width + 7) / 8

/-- Pixel x of a delivered line, as PRE takes it (stage 1 of R229): Y, U, V or R, G, B or one sample. -/
def linePixel (dt : Nat) (l : Array (BitVec 16)) (x : Nat) : List Nat :=
  let c (i : Nat) : Nat := (l.getD i 0).toNat
  if dt = 0x24 then [c (3 * x + 2), c (3 * x + 1), c (3 * x)]
  else if dt = 0x1E then [c (4 * (x / 2) + 1 + 2 * (x % 2)), c (4 * (x / 2)), c (4 * (x / 2) + 2)]
  else [c x]

/-- The image of the lines delivered so far. -/
def linesImage (dt : Nat) (lines : List (List (BitVec 16))) : Image :=
  let a := (lines.map List.toArray).toArray
  fun y x => linePixel dt (a.getD y #[]) x

/-! ### The detector (R233 to R235) -/

/-- One byte into the CRC-64 of R233, high bit first. -/
def crc64Byte (crc b : Nat) : Nat :=
  (List.range 8).foldl (fun c i =>
    let out := (bit c 63) != (bit b (7 - i))
    (2 * c % 2 ^ 64) ^^^ (if out then 0x42F0E1EBA9EA3693 else 0)) crc

/-- The grid hash of a frame's delivered lines. -/
def State.gridHash (s : State) (t : Nat) (lines : List (List (BitVec 16))) : Nat :=
  let dt := s.rd (ING_STR_CFG_DT t)
  let nx := s.rd (ING_FRZ_CFG_NX t) + 1
  let ny := s.rd (ING_FRZ_CFG_NY t) + 1
  let a := (lines.map List.toArray).toArray
  (List.range (nx * ny)).foldl (fun crc k =>
    let x := s.rd (ING_FRZ_GRID_X0 t) + k % nx * s.rd (ING_FRZ_STEP_DX t)
    let y := s.rd (ING_FRZ_GRID_Y0 t) + k / nx * s.rd (ING_FRZ_STEP_DY t)
    let v := ((a.getD y #[]).getD (dtComps dt * x) 0).toNat >>> s.rd (ING_FRZ_CFG_LSB_DROP t)
    crc64Byte (crc64Byte crc (v % 256)) (v / 256)) 0

/-- The embedded counter in a packet's bytes, if it lies inside. -/
def State.embCounter (s : State) (t : Nat) (l : List (BitVec 16)) : Option Nat :=
  let n := 2 ^ s.rd (ING_FRZ_CFG_EMB_W t)
  let bs := ((l.drop (s.rd (ING_FRZ_ACT_EMB_OFF t))).take n).map fun b => b.toNat % 256
  if bs.length < n then none
  else some ((if s.on (ING_FRZ_CFG_EMB_BE t) then bs else bs.reverse).foldl (fun a b => 256 * a + b) 0)

/-! ### Frames -/

/-- Frame-record flags (R224). -/
def fRepeat : Nat := 2
def fCntFrozen : Nat := 2 ^ 4
def fCntJump : Nat := 2 ^ 5
def fCntMissing : Nat := 2 ^ 6
def fEarly : Nat := 2 ^ 7
def fLate : Nat := 2 ^ 8
def fShort : Nat := 2 ^ 9
def fLong : Nat := 2 ^ 10
def fNoFe : Nat := 2 ^ 11
def fHdrErr : Nat := 2 ^ 12
def fCrcErr : Nat := 2 ^ 13
def fLineLen : Nat := 2 ^ 14
def fFirst : Nat := 2 ^ 16

/-- The contexts a stream feeds. -/
def State.fed (s : State) (t : Nat) : List Nat :=
  dedup ((if s.on (ING_STR_CFG_CTX0_EN t) then [s.rd (ING_STR_CFG_CTX0 t)] else []) ++
    (if s.on (ING_STR_CFG_CTX1_EN t) then [s.rd (ING_STR_CFG_CTX1 t)] else []))

/-- The camera contexts among them. -/
def State.fedCtx (s : State) (t : Nat) : List (Nat × PreCtx) :=
  (s.fed t).filterMap fun x => match s.ctx x with
    | some c => if pcSrc c.desc.toNat then none else some (x, c)
    | none => none

/-- Hand the lines delivered so far to the stream's contexts. -/
def State.feed (s : State) (t : Nat) (lines : List (List (BitVec 16))) (all : Bool) : State :=
  (s.fedCtx t).foldl (fun a xc => a.ctxAdvance xc.1 (linesImage (s.rd (ING_STR_CFG_DT t)) lines) lines.length all) s

/-- Write the stamp of line i of the frame a context is taking (R225). -/
def State.lineStamp (s : State) (t i stamp : Nat) : State :=
  (s.fedCtx t).foldl (fun a xc =>
    let d := xc.2.desc.toNat
    match xc.2.frames.reverse with
    | f :: _ =>
      if pcLstamp d = 0 ∨ f.closed.isSome ∨ f.job.isSome then a
      else a.blkWrite (pcLstamp d + ((f.idx % pcNbuf d) * pcInH d + i) * 8) (leBytes 8 stamp)
    | [] => a) s

/-- Deliver a line, its own or a replacement (R216). -/
def State.deliver (s : State) (t : Nat) (f : IngFrame) (own : Option (List (BitVec 16))) (stamp flag : Nat) : State :=
  let i := f.lines.length
  let line := own.getD (f.lines.getLast?.getD (List.replicate (dtComps (s.rd (ING_STR_CFG_DT t)) * s.rd (ING_STR_GEOM_WIDTH t)) 0))
  let g : IngFrame := { f with
    lines := f.lines ++ [line], stamps := f.stamps ++ [stamp], received := f.received + 1, flags := f.flags ||| flag,
    replaced := f.replaced + (if own.isNone then 1 else 0), ls := none,
    firstRep := if own.isNone then some (f.firstRep.getD i) else f.firstRep }
  ((s.setStr t { s.str t with frame := some g }).lineStamp t i stamp).feed t g.lines false

/-- Close the open frame of a stream (R216, R224, R233 to R236). -/
def State.closeFrame (s : State) (t stamp flag : Nat) : State :=
  let st := s.str t
  match st.frame with
  | none => s
  | some f =>
    let h := s.rd (ING_STR_GEOM_HEIGHT t)
    let n := f.lines.length
    let fill := f.lines.getLast?.getD (List.replicate (dtComps (s.rd (ING_STR_CFG_DT t)) * s.rd (ING_STR_GEOM_WIDTH t)) 0)
    let lines := f.lines ++ List.replicate (h - n) fill
    let s1 := (List.range (h - n)).foldl (fun a i => a.lineStamp t (n + i) stamp) s
    let s2 := s1.feed t lines true
    let hash := s.gridHash t lines
    let rep := if st.first ∨ ¬ s.on (ING_FRZ_CFG_HASH_EN t) then 0
      else match st.hist.findIdx? (· = hash) with
        | some k => fRepeat + 4 * k
        | none => 0
    let emb := s.on (ING_FRZ_CFG_EMB_EN t)
    let w := 8 * 2 ^ s.rd (ING_FRZ_CFG_EMB_W t)
    let cntF := if st.first ∨ ¬ emb then 0
      else match f.emb, st.cnt with
        | none, _ => fCntMissing
        | some v, some p => if v = p then fCntFrozen else if v = (p + 1) % 2 ^ w then 0 else fCntJump
        | some _, none => 0
    let shortF := if n < h then fShort else 0
    let flags := f.flags ||| flag ||| rep ||| cntF ||| shortF ||| (if st.first then fFirst else 0)
    let r : FrameRec := ⟨f.fs, stamp, hash, (if emb then f.emb.getD 0 else 0), f.received, f.replaced + (h - n),
      (match f.firstRep with
        | some i => i
        | none => if n < h then n else 0xFFFF), t, s.rd (ING_STR_CFG_TS t), flags⟩
    let s3 := s2.setStr t { st with
      frame := none, hist := (hash :: st.hist).take 4, cnt := (if emb then f.emb else none), first := false }
    (s3.fedCtx t).foldl (fun a xc =>
      match xc.2.frames.reverse with
      | g :: older =>
        if g.closed.isNone ∧ g.job.isNone then
          (a.setCtx xc.1 (some { xc.2 with frames := ({ g with closed := some r } :: older).reverse })).ctxRecords xc.1
        else if xc.2.num = 0 then a
        else a.writeFrameRec xc.1 xc.2.desc.toNat r ((xc.2.num + 2 ^ 32 - 1) % 2 ^ 32) none 0
      | [] => if xc.2.num = 0 then a
        else a.writeFrameRec xc.1 xc.2.desc.toNat r ((xc.2.num + 2 ^ 32 - 1) % 2 ^ 32) none 0) s3

/-- A context meets an FS: it accepts the frame or drops it (R222). -/
def State.ctxFrame (s : State) (x : Nat) : State :=
  match s.ctx x with
  | none => s
  | some c =>
    let d := c.desc.toNat
    if pcSrc d then s
    else
      let r := s.blkRead (pcRel d) 8
      let bump : PreCtx := { c with num := (c.num + 1) % 2 ^ 32 }
      if anyPois r.1 then (r.2.setCtx x (some bump)).preBite (s.ctxPart x) (pcRel d)
      else if (c.acc + 2 ^ 64 - leNum r.1) % 2 ^ 64 < pcNbuf d then
        r.2.setCtx x (some { bump with acc := (c.acc + 1) % 2 ^ 64,
                                       frames := c.frames ++ [⟨c.num, c.acc, none, 0, 0, 0, none⟩] })
      else r.2.setCtx x (some bump)

/-- The behaviour of an FS packet of stream t (R216 to R218, R222, R235). -/
def State.frameStart (s : State) (t : Nat) : State :=
  if ¬ s.on (ING_STR_CFG_EN t) then s
  else
    let stamp := s.stamp
    let s1 := s.closeFrame t stamp fNoFe
    let st := s1.str t
    let per := s.rd (ING_STR_PERIOD_VALUE t)
    let tol := s.rd (ING_STR_TOL_VALUE t)
    let timing := match st.lastFs with
      | some p =>
        let dl := (stamp + 2 ^ 64 - p) % 2 ^ 64
        if per = 0 ∨ st.first then 0 else if dl + tol < per then fEarly else if per + tol < dl then fLate else 0
      | none => 0
    let s2 := s1.setStr t { st with
      frame := some ⟨stamp, [], [], 0, 0, none, timing, 0, none, none⟩, lastFs := some stamp,
      missAt := if per = 0 then none else some ((stamp + per + tol) % 2 ^ 64) }
    (s2.fed t).foldl (fun a x => a.ctxFrame x) s2

/-- The behaviour of an FE packet. -/
def State.frameEnd (s : State) (t : Nat) : State := s.closeFrame t s.stamp 0

/-- Count a discarded packet at a port (R214, R216). -/
def State.csiDrop (s : State) (p : Nat) : State := (s.bump (ING_PORT_ERRCNT_UNCORR p)).wr ING_EVENT_PORT_ERR 1

/-- An image line of stream t. -/
def State.csiLine (s : State) (p t : Nat) (k : CsiPkt) (now : Nat) : State :=
  match (s.str t).frame with
  | none => s.csiDrop p
  | some f =>
    let stamp := if s.on (ING_STR_CFG_LSMODE t) then f.ls.getD now else now
    if s.rd (ING_STR_GEOM_HEIGHT t) ≤ f.lines.length then
      (s.csiDrop p).setStr t { s.str t with frame := some { f with flags := f.flags ||| fLong, received := f.received + 1 } }
    else if ¬ k.crcOk then (s.wr (ING_PORT_STAT_CRC p) 1).deliver t f none stamp fCrcErr
    else if k.wc.toNat ≠ lineBytes (s.rd (ING_STR_CFG_DT t)) (s.rd (ING_STR_GEOM_WIDTH t)) then s.deliver t f none stamp fLineLen
    else s.deliver t f (some k.comps) stamp 0

/-- An embedded-data packet of stream t (R234). -/
def State.csiEmbedded (s : State) (p t : Nat) (k : CsiPkt) : State :=
  match (s.str t).frame with
  | none => s.csiDrop p
  | some f =>
    let s1 := if k.crcOk then s else s.wr (ING_PORT_STAT_CRC p) 1
    let v := if s.on (ING_FRZ_CFG_EMB_EN t) ∧ k.crcOk ∧ f.embSeen = s.rd (ING_FRZ_CFG_EMB_LINE t) then s.embCounter t k.comps else f.emb
    s1.setStr t { s.str t with frame := some { f with embSeen := f.embSeen + 1, emb := v } }

/-- A packet whose header cannot be corrected (R216): discarded; the open frames of the port carry HDR_ERR. -/
def State.csiBadHdr (s : State) (p : Nat) : State :=
  let s1 := (s.csiDrop p).wr (ING_PORT_STAT_HDR_UNCORR p) 1
  (List.range 4).foldl (fun a v =>
    let t := 4 * p + v
    match (a.str t).frame with
    | some f => a.setStr t { a.str t with frame := some { f with flags := f.flags ||| fHdrErr } }
    | none => a) s1

/-- A packet received by an enabled, locked port (R214, R216). -/
def State.csiPacket (s : State) (p : Nat) (k : CsiPkt) : State :=
  if k.hdr = .bad then s.csiBadHdr p
  else
    let s1 := if k.hdr = .corrected then
      ((s.wr (ING_PORT_STAT_HDR_CORR p) 1).bump (ING_PORT_ERRCNT_CORR p)).wr ING_EVENT_PORT_ERR 1 else s
    let t := 4 * p + k.vc.val
    let now := s.stamp
    let drop := (s1.csiDrop p).wr (ING_PORT_STAT_DT_DROP p) 1
    let dt := k.dt.toNat
    if dt = 0 then s1.frameStart t
    else if dt = 1 then s1.frameEnd t
    else if dt = 2 then
      match (s1.str t).frame with
      | some f => s1.setStr t { s1.str t with frame := some { f with ls := some now } }
      | none => s1
    else if dt = 3 then s1
    else if ¬ (dt = 0x12 ∨ dt = 0x1E ∨ dt = 0x24 ∨ (0x2A ≤ dt ∧ dt ≤ 0x2E)) then drop
    else if ¬ s.on (ING_STR_CFG_EN t) then s1
    else if dt = 0x12 then s1.csiEmbedded p t k
    else if dt ≠ s.rd (ING_STR_CFG_DT t) then drop
    else s1.csiLine p t k now

/-- The port receives (R213, R544). -/
def State.csiLive (s : State) (p : Nat) : Bool := s.on (ING_PORT_CFG_EN p) && s.on (ING_PORT_STAT_LOCK p)

/-- CSI_PACKET (R214, R216, R218, R225). -/
def execCsiPacket (port : Fin 16) (k : CsiPkt) (s : State) : Out :=
  if s.csiLive port then .next (s.csiPacket port k) else .next s

/-- FRAME_START (R215, R216, R218, R222): an FS packet of a stream. -/
def execFrameStart (stream : Fin 64) (s : State) : Out :=
  if s.csiLive (stream.val / 4) then .next (s.frameStart stream) else .next s

/-- FRAME_END (R216, R224, R233 to R236): an FE packet of a stream. -/
def execFrameEnd (stream : Fin 64) (s : State) : Out :=
  if s.csiLive (stream.val / 4) then .next (s.frameEnd stream) else .next s

/-- MISSING (R235, R236): no FS came by the time due. -/
def execMissing (stream : Fin 64) (s : State) : Out :=
  let t := stream.val
  match (s.str t).missAt with
  | some m =>
    if s.on (ING_STR_CFG_EN t) ∧ m < s.stamp then
      let s1 := (s.wr (ING_STR_STAT_MISSING t) 1).wr ING_EVENT_MISSING 1
      let s2 := s1.setStr t { s.str t with missAt := some ((m + s.rd (ING_STR_PERIOD_VALUE t)) % 2 ^ 64) }
      .next (s2.send ⟨.saf, srcIng, epSaf, 0, 0, false, s.ownChip, .frame t 0 true⟩)
    else .next s
  | none => .next s

/-! ### Configuration (R217, R20) -/

/-- The detector's grid and the timing bounds fit the stream's settings. -/
def State.strLegal (s : State) (t : Nat) : Bool :=
  let x := s.rd (ING_FRZ_GRID_X0 t) + s.rd (ING_FRZ_CFG_NX t) * s.rd (ING_FRZ_STEP_DX t)
  let y := s.rd (ING_FRZ_GRID_Y0 t) + s.rd (ING_FRZ_CFG_NY t) * s.rd (ING_FRZ_STEP_DY t)
  decide (x < s.rd (ING_STR_GEOM_WIDTH t) ∧ y < s.rd (ING_STR_GEOM_HEIGHT t) ∧
    (s.rd (ING_STR_PERIOD_VALUE t) = 0 ∨ s.rd (ING_STR_TOL_VALUE t) < s.rd (ING_STR_PERIOD_VALUE t)))

/-- Abandon a stream's open frame: no record, no further stripes. -/
def State.abandon (s : State) (t : Nat) : State :=
  (s.fedCtx t).foldl (fun a xc =>
    a.setCtx xc.1 (some { xc.2 with frames := xc.2.frames.filter fun f => f.closed.isSome || f.job.isSome })) (s.setStr t (strReset t))

/-- The behaviour of a write of a register of stream t (R217). -/
def State.writeStr (s : State) (t off v : Nat) : State :=
  let cfg := (ING_STR_CFG_EN t).off
  s.writeIf off v fun s0 put =>
    if off = (ING_STR_STAT_FLAGS t).off then put s0
    else if s0.on (ING_STR_CFG_EN t) then
      if off = cfg ∧ ¬ bit v 31 ∧ (put s0).word cfg = s0.word cfg - 2 ^ 31 then
        if (s0.str t).frame.isSome then put (s0.abandon t) else put (s0.setStr t (strReset t))
      else s0.wr ING_EVENT_CFG_REJ 1
    else if off = cfg ∧ bit v 31 ∧ ¬ s0.strLegal t then s0.wr ING_EVENT_CFG_REJ 1
    else put s0

/-- ING_STR_CFG_WRITE (R217). -/
def execIngStrCfgWrite (req : Requester) (stream : Fin 64) (value : BitVec 32) (s : State) : Out :=
  .next (s.asWriter req (ING_STR_CFG_EN stream).off 4 fun a => a.writeStr stream (ING_STR_CFG_EN stream).off value.toNat)

/-! ### Camera sync outputs (R220, R221) -/

def State.camNext (s : State) (n : Nat) : Nat := mget (fun _ => 0) s.tim.camNext n
def State.setCam (s : State) (n next : Nat) : State := s.mTim fun x => { x with camNext := mset (fun _ => 0) x.camNext n next }

/-- Advance NEXT by whole periods to the first value not yet passed, and count the periods skipped (R221). -/
def State.camSkip (s : State) (n next c : Nat) : State :=
  let per := max (s.rd (ING_SYNC_PERIOD_PERIOD n)) 1
  let r := s.timeAt (s.rd (ING_SYNC_CFG_TS n)) c
  if r ≤ next then s.setCam n next
  else
    let k := ceilDiv (r - next) per
    (s.setCam n (next + k * per)).bumpBy (ING_SYNC_STAT_SKIPPED n) k

/-- The behaviour of a write of ING_SYNC_CFGn or ING_SYNC_PERIODn: WIDTH × 8 ns must stay below PERIOD. -/
def State.writeSync (s : State) (n off v : Nat) : State :=
  s.writeIf off v fun s0 put =>
    let s1 := put s0
    if s1.rd (ING_SYNC_PERIOD_PERIOD n) ≤ 8 * s1.rd (ING_SYNC_CFG_WIDTH n) then s0.wr ING_EVENT_CFG_REJ 1
    else if off = (ING_SYNC_CFG_EN n).off ∧ bit v 31 ∧ ¬ s0.on (ING_SYNC_CFG_EN n) then
      s1.camSkip n (s0.rd (ING_SYNC_START_START n)) s0.now
    else if off = (ING_SYNC_CFG_EN n).off ∧ ¬ bit v 31 then
      s1.mTim fun x => { x with camOut := mset (fun _ => false) x.camOut n false }
    else s1

/-- CAMSYNC_ENABLE (R220, R221). -/
def execCamsyncEnable (req : Requester) (n : Fin 16) (value : BitVec 32) (s : State) : Out :=
  .next (s.asWriter req (ING_SYNC_CFG_EN n).off 4 fun a => a.writeSync n (ING_SYNC_CFG_EN n).off value.toNat)

/-- CAMSYNC_PULSE (R220, R221, R332). -/
def execCamsyncPulse (n : Fin 16) (s : State) : Out :=
  let c := s.stamp
  if s.on (ING_SYNC_CFG_EN n) ∧ s.camNext n ≤ s.timeAt (s.rd (ING_SYNC_CFG_TS n)) c then
    let s1 := s.mTim fun x => { x with
      camOut := mset (fun _ => false) x.camOut n true,
      camEnd := mset (fun _ => 0) x.camEnd n ((c + 8 * s.rd (ING_SYNC_CFG_WIDTH n)) % 2 ^ 64) }
    .next (s1.camSkip n (s.camNext n + s.rd (ING_SYNC_PERIOD_PERIOD n)) c)
  else .next s

/-- CAMSYNC_PULSE_END (R220). -/
def execCamsyncPulseEnd (n : Fin 16) (s : State) : Out :=
  if mget (fun _ => false) s.tim.camOut n ∧ mget (fun _ => 0) s.tim.camEnd n ≤ s.now then
    .next (s.mTim fun x => { x with camOut := mset (fun _ => false) x.camOut n false })
  else .next s

end Sys2Proof.Machine
end

