-- ==== Sys2Proof/Machine/PreJobs.lean ====
section
/-! DEFINITION. PRE queues: sample, flush and frame jobs, size buckets and the order of their records (R237, R246 to R252). -/

namespace Sys2Proof.Machine

def preqReset : Nat → PreQueue := fun _ => ⟨[], [], [], [], [], false⟩
def State.preq (s : State) (q : Nat) : PreQueue := mget preqReset s.vis.preq q
def State.setPreq (s : State) (q : Nat) (v : PreQueue) : State := s.mVis fun y => { y with preq := mset preqReset y.preq q v }

/-! ### Bucket entries (R248, R251) -/

def bkF (e : BitVec 512) (i : Nat) : Nat := Config.bucketField i e
def bkEn (e : BitVec 512) : Bool := bkF e 0 != 0
def bkH (e : BitVec 512) : Nat := bkF e 1
def bkW (e : BitVec 512) : Nat := bkF e 2
def bkB (e : BitVec 512) : Nat := bkF e 3
def bkNbatch (e : BitVec 512) : Nat := bkF e 4
def bkBase (e : BitVec 512) : Nat := bkF e 5
def bkStride (e : BitVec 512) : Nat := bkF e 6
def bkRel (e : BitVec 512) : Nat := bkF e 7
def bkSpan (e : BitVec 512) : Nat := bkF e 8
def bkTimeout (e : BitVec 512) : Nat := bkF e 9

/-- The legal values of an enabled entry, for a class (R248, R249, R251). -/
def bkLegal (cls : Nat) (e : BitVec 512) : Bool :=
  !bkEn e || decide (1 ≤ bkB e ∧ bkB e ≤ 256 ∧ 2 ≤ bkNbatch e ∧ bkNbatch e ≤ 64 ∧ 1 ≤ bkSpan e ∧ bkSpan e ≤ 65535 ∧
    ceilDiv (bkSpan e) (bkB e) + 2 ≤ bkNbatch e ∧ (cls ≠ 0 ∨ bkTimeout e = 0))

def State.bucket (s : State) (q k : Nat) : BitVec 512 := (s.preq q).entries.getD k 0

/-- Enable a PRE queue: its bucket table is read and checked; an illegal entry refuses the enable, and CFG reads as before the write
(R20). -/
def State.preqEnable (s : State) (q old : Nat) : State :=
  let p := s.qPart (preQ q)
  let a := s.rd (PRE_Q_BKT_ADDR q)
  let off (t : State) : State := t.setWord (preQ q) old
  match s.checkRun p false a 1024 true with
  | .ok =>
    let r := s.blkRead a 1024
    let es := (List.range 16).map fun k => BitVec.ofNat 512 (leNum ((r.1.drop (64 * k)).take 64))
    if anyPois r.1 then (off r.2).preBite p a
    else if ¬ es.all (bkLegal (s.classOf p)) then (off r.2).wr PRE_EVENT_CFG_ERR 1
    else ((r.2.setPreq q ⟨es, [], [], [], [], false⟩).qEnabled (preQ q))
  | c => ((off s).wr PRE_EVENT_ISO 1).blkFail p srcPre c a

/-! ### Jobs -/

def jCtx (d : Nat) : Nat := bits d 6 0
def jKind (d : Nat) : Nat := bits d 9 8
def jBucket (d : Nat) : Nat := bits d 15 12
def jSrc (d : Nat) : Nat := bits d (8 * 8 + 47) (8 * 8)
def jW (d : Nat) : Nat := rdHalf d 0x10
def jH (d : Nat) : Nat := rdHalf d 0x12
def jPitch (d : Nat) : Nat := rdWord d 0x14
def jLayout (d : Nat) : Nat := bits d (8 * 0x18 + 1) (8 * 0x18)
def jGrid (d : Nat) : Nat := bits d (8 * 0x20 + 47) (8 * 0x20)
def jOutW (d : Nat) : Nat := rdHalf d 0x28
def jOutH (d : Nat) : Nat := rdHalf d 0x2A

/-- Bytes a source occupies (R246): RAW16, NV12, P010, RGB888. -/
def jBytes (d : Nat) : Nat :=
  match jLayout d with
  | 0 => jPitch d * jH d
  | 3 => jPitch d * jH d
  | _ => jPitch d * jH d + jPitch d * ((jH d + 1) / 2)

/-- The source image of a job (stage 1 of R229). -/
def jImage (d : Nat) (bytes : Array MByte) : Image := fun y x =>
  let b (i : Nat) : Nat := (bytes.getD i (0, false)).1.toNat
  let h16 (i : Nat) : Nat := b i + 256 * b (i + 1)
  let p := jPitch d
  match jLayout d with
  | 0 => [h16 (p * y + 2 * x)]
  | 1 => [b (p * y + x), b (p * jH d + p * (y / 2) + x / 2 * 2), b (p * jH d + p * (y / 2) + x / 2 * 2 + 1)]
  | 2 => [h16 (p * y + 2 * x) / 64, h16 (p * jH d + p * (y / 2) + x / 2 * 4) / 64, h16 (p * jH d + p * (y / 2) + x / 2 * 4 + 2) / 64]
  | _ => [b (p * y + 3 * x), b (p * y + 3 * x + 1), b (p * y + 3 * x + 2)]

/-- Hold a completion for its turn (R250), its samples by number. -/
def State.preHold (s : State) (q : Nat) (r : PreDone) (seqs : List Nat) : State :=
  let pq := s.preq q
  s.setPreq q { pq with held := pq.held ++ [(r, seqs)] }

/-- The address of the batch buffer a bucket's partial batch fills. -/
def State.batchAddr (s : State) (q k : Nat) : Nat :=
  let e := s.bucket q k
  bkBase e + (mget (fun _ => 0) (s.preq q).started k - 1) % max (bkNbatch e) 1 * bkStride e

/-- Complete a partial batch (R249). -/
def State.batchDone (s : State) (q : Nat) (b : PreBatch) : State :=
  let pq := s.preq q
  let s1 := s.setPreq q { pq with partials := pq.partials.filter fun x => x.bucket != b.bucket }
  s1.preHold q ⟨b.bucket, b.seqs.length, s.batchAddr q b.bucket, b.seqs.headD 0, b.seqs.getLastD 0, .ok⟩ b.seqs

/-- Complete, in ascending order of earliest sample, the partial batches that satisfy a test. -/
def State.batchesDone (s : State) (q : Nat) (test : PreBatch → Bool) : State :=
  let ps := (s.preq q).partials.filter test
  let firsts := (ps.map fun b => b.seqs.headD 0).mergeSort (fun a b => decide (a ≤ b))
  firsts.foldl (fun a f => match ps.find? (fun b => b.seqs.headD 0 == f) with
    | some b => a.batchDone q b
    | none => a) s

/-- The head job of a PRE queue may be taken now: in a slot closed to its partition no sample job starts (R355). -/
def State.preReady (s : State) (q : Nat) : Bool :=
  s.qReady (preQ q) && (jKind (s.qPeek (preQ q)) != 0 || s.slotOpen (s.qPart (preQ q)))

/-- A job's arrival (R249, condition 3): the batches whose span it ends, and, for one that makes a record, its number among
those waiting. -/
def State.jobArrives (s : State) (q n : Nat) (waits : Bool) : State :=
  let s1 := s.batchesDone q fun b => decide (b.seqs.headD 0 + bkSpan (s.bucket q b.bucket) ≤ n)
  let pq := s1.preq q
  s1.setPreq q { pq with waiting := if waits then pq.waiting ++ [n] else pq.waiting, stalled := false }

/-- A job ends alone (R246 to R248, R250). -/
def State.jobAlone (s : State) (q n addr : Nat) (st : PreStatus) : State := s.preHold q ⟨15, 1, addr, n, n, st⟩ [n]

/-- A job waits at the head of its queue for a buffer (R247, R250). -/
def State.jobWaits (s : State) (q : Nat) : State :=
  (s.setPreq q { s.preq q with stalled := true }).wr PRE_EVENT_STALL 1

/-- The bucket a sample goes to: the lowest enabled one large enough, or the one it names; none where none fits (R248). -/
def State.pickBucket (s : State) (q d : Nat) : Option Nat :=
  let fits (k : Nat) : Bool := let e := s.bucket q k
    bkEn e && decide (jOutH d ≤ bkH e ∧ jOutW d ≤ bkW e)
  if jBucket d = 15 then (List.range 16).find? fits else if fits (jBucket d) then some (jBucket d) else none

/-- What the head of a PRE queue is, once fetched. -/
inductive JobHead where
  | bad (s : State)
  | job (d : Nat) (pois : Bool) (n : Nat) (s : State)

def State.preFetch (s : State) (q : Nat) : JobHead :=
  let n := (s.queue (preQ q)).next
  match s.qTake (preQ q) with
  | (none, t) => .bad (t.wr PRE_EVENT_ISO 1)
  | (some (d, po), t) => .job d po n t

/-- A sample is converted and placed (R246, R248). -/
def State.sampleInto (s : State) (q n k d cd : Nat) (img : Image) (g : Grid) (pois : Bool) : State :=
  let e := s.bucket q k
  let pq := s.preq q
  let (b, s1) : PreBatch × State := match pq.partials.find? fun x => x.bucket == k with
    | some b => (b, s)
    | none =>
      let b : PreBatch := ⟨k, [], s.now⟩
      (b, s.setPreq q { pq with partials := pq.partials ++ [b], started := mset (fun _ => 0) pq.started k (mget (fun _ => 0) pq.started k + 1) })
  let i := b.seqs.length
  let px := pcChans cd * pcElem cd
  let base := s1.batchAddr q k
  let rows := (List.range (jOutH d)).map fun y => preRow cd (jOutW d) (jH d) (jW d) img g y
  let pad := (List.range (pcElem cd)).map fun j => pcPadv cd / 256 ^ j % 256
  let padPx := (List.replicate (pcChans cd) pad).flatMap id
  let tensor := (List.range (bkH e)).flatMap fun y => match rows[y]? with
    | some r => r.1 ++ (List.replicate (bkW e - jOutW d) padPx).flatMap id
    | none => (List.replicate (bkW e) padPx).flatMap id
  let s2 := (s1.blkWrite (base + 4 * i) (leBytes 4 n)).blkWrite (base + 1024 + i * bkH e * bkW e * px)
    (tensor.map fun v => (BitVec.ofNat 8 v, pois))
  let s3 := s2.bumpBy PRE_SAT_COUNT_COUNT (rows.foldl (fun a r => a + r.2.2) 0)
  let b' : PreBatch := { b with seqs := b.seqs ++ [n] }
  let pq' := s3.preq q
  let s4 := s3.setPreq q { pq' with partials := pq'.partials.map fun x => if x.bucket = k then b' else x }
  if b'.seqs.length = bkB e then s4.batchDone q b' else s4

/-- The context of a job: its owner's, with SRC = 1; its descriptor. -/
def State.jobCtx (s : State) (q d : Nat) : Option Nat :=
  match s.ctx (jCtx d) with
  | some c => if pcSrc c.desc.toNat ∧ s.ctxPart (jCtx d) = s.qPart (preQ q) then some c.desc.toNat else none
  | none => none

/-- A sample job (KIND 0) at the head of queue q. -/
def State.sampleJob (s : State) (q : Nat) : State :=
  let peek := s.qPeek (preQ q)
  let p := s.qPart (preQ q)
  let n := (s.queue (preQ q)).next
  let pick := s.pickBucket q peek
  -- a bucket with no partial batch and no free buffer makes its job wait
  let room : Bool × State := match pick with
    | none => (true, s)
    | some k =>
      if ((s.preq q).partials.any fun b => b.bucket == k && decide (n < b.seqs.headD 0 + bkSpan (s.bucket q k))) then (true, s)
      else
        let e := s.bucket q k
        if s.checkRun p false (bkRel e) 8 ≠ .ok then (true, s)
        else
          let r := s.blkRead (bkRel e) 8
          (decide ((mget (fun _ => 0) (s.preq q).started k + 2 ^ 64 - leNum r.1) % 2 ^ 64 < bkNbatch e), r.2)
  if ¬ room.1 then (room.2.batchesDone q fun b => decide (b.seqs.headD 0 + bkSpan (s.bucket q b.bucket) ≤ n)).jobWaits q
  else
    match room.2.preFetch q with
    | .bad t => t
    | .job d po n t0 =>
      let t := t0.jobArrives q n true
      if po then (t.jobAlone q n 0 .poison).preBite p (s.qHeadAddr (preQ q))
      else match t.jobCtx q d with
      | none => (t.jobAlone q n 0 .desc).wr PRE_EVENT_DESC 1
      | some cd =>
        let gl := gridLen cd (jOutW d) (jOutH d)
        if jW d = 0 ∨ jH d = 0 ∨ pcInW cd < jW d ∨ pcInH cd < jH d ∨ jOutW d = 0 ∨ jOutH d = 0 ∨ 8192 < jOutW d ∨ 8192 < jOutH d then
          (t.jobAlone q n 0 .desc).wr PRE_EVENT_DESC 1
        else match pick with
        | none => t.jobAlone q n 0 .noFit
        | some k =>
          let e := t.bucket q k
          let size := bkNbatch e * bkStride e
          match t.checkRun p false (jSrc d) (jBytes d) true, t.checkRun p false (jGrid d) (8 * gl) true,
              t.checkRun p true (bkBase e) size true, t.checkRun p false (bkRel e) 8 with
          | .ok, .ok, .ok, .ok =>
            let r := t.blkRead (jSrc d) (jBytes d)
            let g := r.2.readGrid (jGrid d) gl
            if g.2.1 then (g.2.2.jobAlone q n 0 .poison).preBite p (jGrid d)
            else g.2.2.sampleInto q n k d cd (jImage d r.1.toArray) g.1 (anyPois r.1)
          | a, b, c, f =>
            let bad := ([a, b, c, f].find? (· ≠ .ok)).getD .isolation
            ((t.jobAlone q n 0 .desc).wr PRE_EVENT_ISO 1).blkFail p srcPre bad (jSrc d)

/-- A flush job (KIND 1). -/
def State.flushJob (s : State) (q : Nat) : State :=
  match s.preFetch q with
  | .bad t => t
  | .job _ po n t0 =>
    if po then ((t0.jobArrives q n true).jobAlone q n 0 .poison).preBite (s.qPart (preQ q)) (s.qHeadAddr (preQ q))
    else (t0.jobArrives q n false).batchesDone q fun _ => true

/-- A frame job (KIND 2): converted into the context's buffers; its stripes are notified by STRIPE_NOTIFY (R247). -/
def State.frameJob (s : State) (q : Nat) : State :=
  let peek := s.qPeek (preQ q)
  let p := s.qPart (preQ q)
  let room : Bool × State := match s.jobCtx q peek, s.ctx (jCtx peek) with
    | some cd, some c =>
      if jW peek ≠ pcInW cd ∨ jH peek ≠ pcInH cd then (true, s)
      else
        let r := s.blkRead (pcRel cd) 8
        (decide ((c.acc + 2 ^ 64 - leNum r.1) % 2 ^ 64 < pcNbuf cd), r.2)
    | _, _ => (true, s)
  if ¬ room.1 then room.2.jobWaits q
  else
    match room.2.preFetch q with
    | .bad t => t
    | .job d po n t0 =>
      let t := t0.jobArrives q n true
      if po then (t.jobAlone q n 0 .poison).preBite p (s.qHeadAddr (preQ q))
      else match t.jobCtx q d, t.ctx (jCtx d) with
      | some cd, some c =>
        if jW d ≠ pcInW cd ∨ jH d ≠ pcInH cd then (t.jobAlone q n 0 .desc).wr PRE_EVENT_DESC 1
        else
          match t.checkRun p false (jSrc d) (jBytes d) true with
          | .ok =>
            let r := t.blkRead (jSrc d) (jBytes d)
            let g := r.2.readGrid (pcGrid cd) (gridLen cd (pcOutW cd) (pcOutH cd))
            if g.2.1 then (g.2.2.jobAlone q n 0 .poison).preBite p (pcGrid cd)
            else
              let w := g.2.2.writeRows cd (jH d) (jW d) c.acc (jImage d r.1.toArray) g.1 (anyPois r.1) 0 (pcOutH cd)
              w.2.setCtx (jCtx d) (some { c with
                acc := (c.acc + 1) % 2 ^ 64, frames := c.frames ++ [⟨0, c.acc, some (q, n), pcOutH cd, 0, w.1, none⟩] })
          | e => ((t.jobAlone q n 0 .desc).wr PRE_EVENT_ISO 1).blkFail p srcPre e (jSrc d)
      | _, _ => (t.jobAlone q n 0 .desc).wr PRE_EVENT_DESC 1

/-- Complete the frame jobs of a context whose stripes are all notified (R247). -/
def State.jobsDone (s : State) (x : Nat) : State :=
  match s.ctx x with
  | some c =>
    let d := c.desc.toNat
    match c.frames with
    | f :: rest =>
      match f.job with
      | some (q, n) =>
        if f.notified = pcStripes d then (s.setCtx x (some { c with frames := rest })).jobAlone q n (bufBase d f.idx) .ok else s
      | none => s
    | [] => s
  | none => s

/-- The head of queue q is a job of a kind, that waits for a buffer or not. -/
def State.headJob (s : State) (q kind : Nat) (waits : Bool) : Bool :=
  s.preReady q && (s.preq q).stalled == waits && jKind (s.qPeek (preQ q)) == kind

/-- A descriptor of KIND 3 ends its job at the fetch (R246). -/
def State.preIllegal (s : State) (q : Nat) : State :=
  if s.headJob q 3 false then
    match s.preFetch q with
    | .bad t => t
    | .job _ po n t =>
      let t1 := (t.jobArrives q n true).jobAlone q n 0 (if po then .poison else .desc)
      if po then t1.preBite (s.qPart (preQ q)) (s.qHeadAddr (preQ q)) else t1.wr PRE_EVENT_DESC 1
  else s

/-- End the illegal descriptors at the head of a queue. -/
def State.preSkip (s : State) (q : Nat) : State := (List.range (s.qSize (preQ q))).foldl (fun a _ => a.preIllegal q) s

/-- SAMPLE_JOB (R246, R248, R249). -/
def execSampleJob (q : Fin 16) (s : State) : Out := if s.headJob q 0 false then .next ((s.sampleJob q).preSkip q) else .next s

/-- FLUSH_JOB (R249). -/
def execFlushJob (q : Fin 16) (s : State) : Out := if s.headJob q 1 false then .next ((s.flushJob q).preSkip q) else .next s

/-- FRAME_JOB (R247, R386). -/
def execFrameJob (q : Fin 16) (s : State) : Out := if s.headJob q 2 false then .next ((s.frameJob q).preSkip q) else .next s

/-- PRE_BUFFER_RESUME (R247, R250): a job that waits at the head of its queue is tried again. -/
def execPreBufferResume (q : Fin 16) (s : State) : Out :=
  if s.headJob q 0 true then .next ((s.sampleJob q).preSkip q)
  else if s.headJob q 2 true then .next ((s.frameJob q).preSkip q)
  else .next s

/-- STRIPE_NOTIFY (R223, R224): the next stripe of a context's oldest frame is written and acknowledged. -/
def execStripeNotify (x : Fin 128) (s : State) : Out :=
  match s.ctx x with
  | none => .next s
  | some c =>
    let d := c.desc.toNat
    match c.frames with
    | [] => .next s
    | f :: rest =>
      let k := f.notified
      if pcStripes d ≤ k ∨ f.rows < k * pcStripe d + pcStripeRows d k then .next s
      else
        let units := pcStripeRows d k * pcPitch d / 64
        let s1 := (List.range 4).foldl (fun a i =>
          let t := pcNote d i
          if t.1 then a.notify srcPre (s.ctxPart x) t.2.1 t.2.2 units else a) s
        .next (((s1.setCtx x (some { c with frames := { f with notified := k + 1 } :: rest })).ctxRecords x).jobsDone x)

/-- BUCKET_TIMEOUT (R249, R383): TIMEOUT µs passed since a partial batch's first sample. -/
def execBucketTimeout (q bucket : Fin 16) (s : State) : Out :=
  match (s.preq q).partials.find? fun b => b.bucket == bucket.val with
  | some b =>
    let e := s.bucket q bucket
    if bkTimeout e ≠ 0 ∧ b.began + 1000 * bkTimeout e ≤ s.now then .next ((s.batchDone q b).detChoice (s.qPart (preQ q)) 2) else .next s
  | none => .next s

/-- BATCH_RECORD_EMIT (R250): the held completion with the earliest sample leaves once no earlier sample waits. -/
def execBatchRecordEmit (q : Fin 16) (s : State) : Out :=
  let pq := s.preq q
  match pq.held.find? fun h => pq.waiting.all fun n => decide (h.1.lo ≤ n) with
  | some h =>
    let s1 := s.setPreq q { pq with held := pq.held.filter (fun x => x.1.lo != h.1.lo),
                                    waiting := pq.waiting.filter fun n => !h.2.contains n }
    .next (s1.complete (preQ q) 64 (leBytes 64 (Config.preRecord h.1).toNat))
  | none => .next s

end Sys2Proof.Machine
end

