-- ==== Sys2Proof/Machine/Video.lean ====
section
/-! DEFINITION. The decoder block DEC: streams, access units, the output ring and the decoded-frame cache (R237 to R245).  What
the codecs themselves compute is in their own standards: free functions of the bitstream (Config). -/

namespace Sys2Proof.Machine

def decReset : Nat → Option DecStream := fun _ => none
def State.dec (s : State) (t : Nat) : Option DecStream := mget decReset s.vis.dec t
def State.setDec (s : State) (t : Nat) (v : Option DecStream) : State := s.mVis fun y => { y with dec := mset decReset y.dec t v }

/-! ### Descriptors (R239) -/
def dkKind (d : Nat) : Nat := bits d 3 0
def dkStream (d : Nat) : Nat := bits d 10 4
def doCodec (d : Nat) : Nat := bits d 32 32
def doOut10 (d : Nat) : Bool := bit d 33
def doFg (d : Nat) : Bool := bit d 34
def doNout (d : Nat) : Nat := bits d 44 40
def doBase (d : Nat) : Nat := bits d (8 * 8 + 47) (8 * 8)
def doStride (d : Nat) : Nat := rdWord d 0x10
def doMaxW (d : Nat) : Nat := rdHalf d 0x14
def doMaxH (d : Nat) : Nat := rdHalf d 0x16
def doDpb (d : Nat) : Nat := bits d (8 * 0x18 + 47) (8 * 0x18)
def doSlots (d : Nat) : Nat := rdByte d 0x1F
def doRel (d : Nat) : Nat := bits d (8 * 0x20 + 47) (8 * 0x20)
def doCbase (d : Nat) : Nat := bits d (8 * 0x28 + 47) (8 * 0x28)
def doNent (d : Nat) : Nat := bits d (8 * 0x30 + 16) (8 * 0x30)
def doFbase (d : Nat) : Nat := rdWord d 0x34
def ddAddr (d : Nat) : Nat := bits d (8 * 8 + 47) (8 * 8)
def ddLen (d : Nat) : Nat := rdWord d 0x10
def ddIdx (d : Nat) : Nat := rdWord d 0x14
def ddCwr (d : Nat) : Bool := bit d (8 * 0x18)
def dfFrame (d : Nat) : Nat := rdWord d 8
def dfDst (d : Nat) : Nat := bits d (8 * 0xC + 47) (8 * 0xC)

/-- The reserved bits of a descriptor of a kind are 0: all but bits 10:0 and the fields listed as (low, high). -/
def onlyFields (d : Nat) (fs : List (Nat × Nat)) : Bool :=
  decide (d &&& (2 ^ 512 - 1 - coverMask (((0, 10) :: fs).map fun r => (r.2, r.1))) = 0)

/-- STATUS bits (R241). -/
def dsOk : Nat := 1
def dsSeqGap : Nat := 2 ^ 6
def dsHit : Nat := 2 ^ 7
def dsMiss : Nat := 2 ^ 8
def dsPoison : Nat := 2 ^ 9
def dsUnsupported : Nat := 2 ^ 10
def dsTooBig : Nat := 2 ^ 11
def dsNoPic : Nat := 2 ^ 12

/-- A completion record (R241). -/
def decRecord (kind stream status frame auidx first last w h addr time : Nat) : List MByte :=
  leBytes 1 kind ++ leBytes 1 stream ++ leBytes 2 status ++ leBytes 4 frame ++ leBytes 4 auidx ++ leBytes 4 first ++
    leBytes 4 last ++ leBytes 2 w ++ leBytes 2 h ++ leBytes 8 addr ++ leBytes 8 time ++ leBytes 24 0

/-- Complete a descriptor that outputs no picture. -/
def State.decPlain (s : State) (q kind stream status frame auidx : Nat) : State :=
  s.complete (decQ q) 64 (decRecord kind stream status frame auidx (2 ^ 32 - 1) (2 ^ 32 - 1) 0 0 0 s.now)

/-- A DECODE that releases nothing: NOPIC, every other field 0 (R241). -/
def State.decNoPic (s : State) (q status : Nat) : State :=
  s.complete (decQ q) 64 (decRecord 0 0 status 0 0 0 0 0 0 0 0)

/-- A descriptor with an illegal value ends with none of its effects. -/
def State.decBad (s : State) (q d : Nat) (f : Fld) : State := (s.wr f 1).decPlain q (dkKind d) (dkStream d) 0 0 0

/-- A descriptor that bit poison ends with status POISON and faults the owner (R172, R173). -/
def State.decPoison (s : State) (q d a : Nat) : State :=
  ((s.wr DEC_EVENT_POISON 1).decPlain q (dkKind d) (dkStream d) dsPoison 0 0).bite (s.qPart (decQ q)) srcDec a

/-- A descriptor with an address outside the owner's resources. -/
def State.decIso (s : State) (q d : Nat) (c : Check) (a : Nat) : State :=
  (s.decBad q d DEC_EVENT_ISO).blkFail (s.qPart (decQ q)) srcDec c a

/-- Take the head descriptor of a DEC queue and do something with it. -/
def State.decHead (s : State) (q : Nat) (f : State → Nat → State) : State :=
  let a := s.qHeadAddr (decQ q)
  match s.qTake (decQ q) with
  | (none, t) => t.wr DEC_EVENT_ISO 1
  | (some (d, po), t) => if po then t.decPoison q d a else f t d

/-- A stream the queue's owner opened. -/
def State.decOwn (s : State) (q d : Nat) : Option DecStream :=
  match s.dec (dkStream d) with
  | some x => if x.part = s.qPart (decQ q) then some x else none
  | none => none

/-- The descriptor's stream waits for room in its output ring. -/
def State.decHeld (s : State) (q d : Nat) : Bool :=
  match s.decOwn q d with
  | some x => !x.wait.isEmpty
  | none => false

/-- The descriptor's stream was opened by another partition's queue. -/
def State.decForeign (s : State) (q d : Nat) : Bool :=
  match s.dec (dkStream d) with
  | some x => x.part != s.qPart (decQ q)
  | none => false

/-! ### OPEN and CLOSE (R239) -/

def openOk (d : Nat) : Bool :=
  onlyFields d [(32, 35), (40, 44), (64, 111), (128, 159), (160, 191), (192, 239), (248, 255), (256, 303), (320, 367), (384, 400), (416, 447)] &&
  decide (1 ≤ doNout d ∧ doBase d % 64 = 0 ∧ doStride d % 64 = 0 ∧ 64 ≤ doMaxW d ∧ doMaxW d ≤ 8192 ∧ 64 ≤ doMaxH d ∧
    doMaxH d ≤ 4352 ∧ 2 ≤ doSlots d ∧ doSlots d ≤ 17 ∧ doRel d % 8 = 0 ∧ doCbase d % 64 = 0 ∧ 1 ≤ doNent d ∧ doNent d ≤ 65536)

/-- First failing check of a list of address ranges (writable?, address, length). -/
def State.firstFail (s : State) (p : Nat) : List (Bool × Nat × Nat) → Option (Check × Nat)
  | [] => none
  | (w, a, n) :: t => match s.checkRun p w a n true with
    | .ok => s.firstFail p t
    | c => some (c, a)

/-- OPEN (R239): a stream context is opened on an engine. -/
def execOpenStream (q : Fin 16) (s : State) : Out :=
  if ¬ s.qReady (decQ q) ∨ dkKind (s.qPeek (decQ q)) ≠ 0 then .next s
  else .next (s.decHead q fun t d =>
    let p := t.qPart (decQ q)
    if ¬ openOk d ∨ ¬ t.inTun (doRel d) ∨ t.decForeign q d then t.decBad q d DEC_EVENT_DESC
    else match t.firstFail p ([(true, doBase d, doNout d * doStride d), (true, doDpb d, doSlots d * doStride d), (false, doRel d, 8)] ++
        (if doCbase d = 0 then [] else [(true, doCbase d, doNent d * (doStride d + 64))])) with
      | some (c, a) => t.decIso q d c a
      | none => (t.setDec (dkStream d) (some ⟨p, BitVec.ofNat 512 d, 0, none, [], false, []⟩)).decPlain q 0 (dkStream d) dsOk 0 0)

/-- CLOSE (R239). -/
def execCloseStream (q : Fin 16) (s : State) : Out :=
  if ¬ s.qReady (decQ q) ∨ dkKind (s.qPeek (decQ q)) ≠ 3 ∨ s.decHeld q (s.qPeek (decQ q)) then .next s
  else .next (s.decHead q fun t d =>
    if ¬ onlyFields d [] then t.decBad q d DEC_EVENT_DESC
    else match t.decOwn q d with
    | none => t.decBad q d DEC_EVENT_DESC
    | some _ => (t.setDec (dkStream d) none).decPlain q 3 (dkStream d) dsOk 0 0)

/-! ### DECODE (R240 to R244) -/

/-- The header of a cache entry (R244). R244 gives its contents and not their places: DESIGN CHOICE (log). -/
def cacheHeader (frame status first last : Nat) : List MByte :=
  leBytes 4 1 ++ leBytes 4 frame ++ leBytes 4 status ++ leBytes 4 first ++ leBytes 4 last ++ leBytes 44 0

/-- Output picture n of a stream: into its slot and, with CWR, its cache entry; its record (R240, R241, R244). -/
def State.decEmit (s : State) (t : Nat) (x : DecStream) (o : DecOut) : State :=
  let d := x.desc.toNat
  let frame := (doFbase d + x.outs) % 2 ^ 32
  let big := decide (doMaxW d < o.pic.width ∨ doMaxH d < o.pic.height ∨ doStride d < o.pic.image.length)
  let addr := doBase d + x.outs % max (doNout d) 1 * doStride d
  let bytes := o.pic.image.map fun b => (b, o.pois)
  let status := bits o.pic.status 5 1 * 2 + (if bits o.pic.status 5 1 = 0 ∧ ¬ o.pois ∧ ¬ big then dsOk else 0) +
    (if o.pois then dsPoison else 0) + (if big then dsTooBig else 0)
  let s1 := if big then s else s.blkWrite addr bytes
  let ent := doCbase d + frame % max (doNent d) 1 * (doStride d + 64)
  let s2 := if o.cwr ∧ doCbase d ≠ 0 ∧ ¬ big then
    s1.blkWrite ent (cacheHeader frame status o.pic.firstBad o.pic.lastBad ++ bytes) else s1
  (s2.setDec t (some { x with outs := x.outs + 1, wait := x.wait.tail })).complete (decQ o.queue) 64
    (decRecord 1 t status frame o.auidx o.pic.firstBad o.pic.lastBad o.pic.width o.pic.height addr s.now)

/-- Output the pictures of a stream for which the consumer left room (R240). -/
def State.decDrain (s : State) (t : Nat) : Nat → State
  | 0 => s
  | n + 1 =>
    match s.dec t with
    | none => s
    | some x =>
      match x.wait with
      | [] => s
      | o :: _ =>
        let d := x.desc.toNat
        let r := s.blkRead (doRel d) 8
        if anyPois r.1 then (r.2.wr DEC_EVENT_POISON 1).bite x.part srcDec (doRel d)
        else if (x.outs + 2 ^ 64 - leNum r.1) % 2 ^ 64 < doNout d then (r.2.decEmit t x o).decDrain t n
        else r.2.wr DEC_EVENT_STALL 1

/-- DECODE (R240, R242, R243): one access unit is decoded and the released pictures output. -/
def execDecode (q : Fin 16) (s : State) : Out :=
  let pk := s.qPeek (decQ q)
  if ¬ s.qReady (decQ q) ∨ ¬ s.slotOpen (s.qPart (decQ q)) ∨ dkKind pk ≠ 1 ∨ s.decHeld q pk then .next s
  else .next (s.decHead q fun t d =>
    let p := t.qPart (decQ q)
    let k := dkStream d
    match t.decOwn q d with
    | none => t.decBad q d DEC_EVENT_DESC
    | some x =>
      if ¬ onlyFields d [(64, 111), (128, 159), (160, 191), (192, 192)] ∨ ddLen d = 0 ∨ 2 ^ 24 < ddLen d then t.decBad q d DEC_EVENT_DESC
      else match t.checkRun p false (ddAddr d) (ddLen d) true with
      | .ok =>
        let od := x.desc.toNat
        let r := t.blkRead (ddAddr d) (ddLen d)
        let au := r.1.map (·.1)
        let po := anyPois r.1
        let rap := Config.decRap (doCodec od) au
        let follows : Bool := match x.last with
          | some l => decide (ddIdx d = (l + 1) % 2 ^ 32)
          | none => false
        if ¬ follows ∧ ¬ rap then r.2.decPlain q 1 k dsSeqGap 0 (ddIdx d)
        else
          let units := if rap then [au] else x.units ++ [au]
          let pois := po || (x.pois && !rap)
          let f := r.2.draw
          let t1 := f.2.blkWrite (doDpb od) ((List.range (doSlots od * doStride od)).map fun i => (Config.decDpb f.1 i, pois))
          let pics := Config.decPics (doCodec od) (doFg od) (doOut10 od) units
          let y : DecStream := { x with last := some (ddIdx d), units := units, pois := pois }
          if Config.decUnsupported (doCodec od) units then (t1.setDec k (some y)).decPlain q 1 k dsUnsupported 0 (ddIdx d)
          else if pics.isEmpty then (t1.setDec k (some y)).decNoPic q dsNoPic
          else (t1.setDec k (some { y with wait := pics.map fun pc => ⟨pc, pois, q, ddIdx d, ddCwr d⟩ })).decDrain k pics.length
      | c => t.decIso q d c (ddAddr d))

/-- DEC_OUTPUT_RESUME (R240): the consumer released a slot of a waiting stream. -/
def execDecOutputResume (stream : Fin 128) (s : State) : Out :=
  match s.dec stream with
  | some x => .next (s.decDrain stream x.wait.length)
  | none => .next s

/-- FETCH (R245). -/
def execFetchFrame (q : Fin 16) (s : State) : Out :=
  let pk := s.qPeek (decQ q)
  if ¬ s.qReady (decQ q) ∨ dkKind pk ≠ 2 ∨ s.decHeld q pk then .next s
  else .next (s.decHead q fun t d =>
    let p := t.qPart (decQ q)
    let k := dkStream d
    match t.decOwn q d with
    | none => t.decBad q d DEC_EVENT_DESC
    | some x =>
      let od := x.desc.toNat
      if ¬ onlyFields d [(64, 95), (96, 143)] ∨ dfDst d % 64 ≠ 0 ∨ doCbase od = 0 then t.decBad q d DEC_EVENT_DESC
      else match t.checkRun p true (dfDst d) (doStride od) true with
      | .ok =>
        let ent := doCbase od + dfFrame d % max (doNent od) 1 * (doStride od + 64)
        let h := t.blkRead ent 64
        let w (o : Nat) : Nat := leNum ((h.1.drop o).take 4)
        if anyPois h.1 then h.2.decPoison q d ent
        else if w 0 % 2 = 1 ∧ w 4 = dfFrame d then
          let b := h.2.blkRead (ent + 64) (doStride od)
          (b.2.blkWrite (dfDst d) b.1).complete (decQ q) 64
            (decRecord 2 k (w 8 ||| dsHit) (dfFrame d) 0 (w 12) (w 16) 0 0 (dfDst d) t.now)
        else h.2.decPlain q 2 k dsMiss (dfFrame d) 0
      | c => t.decIso q d c (dfDst d))

/-- An illegal KIND ends its descriptor at the fetch. -/
def State.decIllegal (s : State) (q : Nat) : State :=
  if s.qReady (decQ q) ∧ 3 < dkKind (s.qPeek (decQ q)) then s.decHead q fun t d => t.decBad q d DEC_EVENT_DESC else s

/-- End the illegal descriptors at the head of a DEC queue. -/
def State.decSkip (s : State) (q : Nat) : State := (List.range (s.qSize (decQ q))).foldl (fun a _ => a.decIllegal q) s

end Sys2Proof.Machine
end

