-- ==== Sys2Proof/Machine/Solver.lean ====
section
/-! DEFINITION. The solver SOL: S32E arithmetic, the dense and sparse kinds, scheduling, check points and commits (R253 to
R276). -/

namespace Sys2Proof.Machine

/-! ### S32E (R255): exact values m × 2^e -/

structure Dy where
  m : Int
  e : Int
  deriving DecidableEq, Repr

def Dy.add (a b : Dy) : Dy :=
  if a.m = 0 then b else if b.m = 0 then a
  else
    let e := min a.e b.e
    ⟨a.m * 2 ^ (a.e - e).toNat + b.m * 2 ^ (b.e - e).toNat, e⟩
def Dy.mul (a b : Dy) : Dy := ⟨a.m * b.m, a.e + b.e⟩
def Dy.neg (a : Dy) : Dy := ⟨-a.m, a.e⟩
def Dy.sub (a b : Dy) : Dy := a.add b.neg
def Dy.zero : Dy := ⟨0, 0⟩
/-- a ≤ b. -/
def Dy.le (a b : Dy) : Bool := decide ((a.sub b).m ≤ 0)
def Dy.abs (a : Dy) : Dy := ⟨a.m.natAbs, a.e⟩

/-- A quotient of integers rounded to nearest, ties to even (den > 0). -/
def rneQuot (num : Int) (den : Nat) : Int :=
  let q := num / (den : Int)
  let r := num % (den : Int)
  if 2 * r < den then q else if (den : Int) < 2 * r then q + 1 else if q % 2 = 0 then q else q + 1

/-- A rounded result and how many saturations it took. -/
abbrev Rnd := Int × Nat

/-- Saturate to 32 bits. -/
def satS32 (v : Int) : Rnd :=
  let y := clampInt (-(2 ^ 31)) (2 ^ 31 - 1) v
  (y, if y = v then 0 else 1)

/-- x / d rounded into exponent E. -/
def roundQuot (ex : Int) (x d : Dy) : Rnd :=
  if d.m = 0 then (toSigned 32 (Config.solDivZero x.m ex).toNat, 0)
  else
    let k := x.e - d.e - ex
    let num := x.m * 2 ^ k.toNat * (if d.m < 0 then -1 else 1)
    satS32 (rneQuot num (d.m.natAbs * 2 ^ (-k).toNat))

/-- x rounded into exponent E. -/
def roundTo (ex : Int) (x : Dy) : Rnd := roundQuot ex x ⟨1, 0⟩

/-- The square root of x ≥ 0 rounded into exponent E. -/
def roundSqrt (ex : Int) (x : Dy) : Rnd :=
  let k := x.e - 2 * ex
  let n := x.m.toNat * 2 ^ k.toNat
  let j := (-k).toNat
  let r := isqrt (n >>> j)
  let half := 2 ^ j * (2 * r + 1) * (2 * r + 1)
  satS32 (if half < 4 * n ∨ (half = 4 * n ∧ r % 2 = 1) then r + 1 else r)

/-- Sum of products, exact. -/
def dyDot (n : Nat) (f g : Nat → Dy) : Dy := (List.range n).foldl (fun a k => a.add ((f k).mul (g k))) Dy.zero

/-! ### The descriptor (R258) -/
def sdKind (d : Nat) : Nat := bits d 3 0
def sdPrec (d : Nat) : Nat := bits d 5 4
def sdDl (d : Nat) : Nat := bits d 7 6
def sdUplo (d : Nat) : Bool := bit d 8
def sdTrans (d : Nat) : Bool := bit d 9
def sdUnit (d : Nat) : Bool := bit d 10
def sdWarm (d : Nat) : Bool := bit d 11
def sdWfact (d : Nat) : Bool := bit d 12
def sdChain (d : Nat) : Nat := bits d 17 16
def sdChEn (d : Nat) : Bool := bit d 18
def sdTs (d : Nat) : Nat := bits d 22 20
def sdN (d : Nat) : Nat := bits d 52 32
def sdNb (d : Nat) : Nat := bits d 76 64
def sdNrhs (d : Nat) : Nat := bits d 86 80
def sdBs (d : Nat) : Nat := bits d 94 88
def sdMaxit (d : Nat) : Nat := rdHalf d 0xC
def sdStopat (d : Nat) : Nat := rdHalf d 0xE
def sdA (d : Nat) : Nat := bits d (8 * 0x10 + 47) (8 * 0x10)
def sdAcol (d : Nat) : Nat := bits d (8 * 0x18 + 47) (8 * 0x18)
def sdAval (d : Nat) : Nat := bits d (8 * 0x20 + 47) (8 * 0x20)
def sdB (d : Nat) : Nat := bits d (8 * 0x28 + 47) (8 * 0x28)
def sdXout (d : Nat) : Nat := bits d (8 * 0x30 + 47) (8 * 0x30)
def sdXprev (d : Nat) : Nat := bits d (8 * 0x38 + 47) (8 * 0x38)
def sdScr (d : Nat) : Nat := bits d (8 * 0x40 + 47) (8 * 0x40)
def sdScrlen (d : Nat) : Nat := rdWord d 0x48
def sdNnz (d : Nat) : Nat := bits d (8 * 0x4C + 24) (8 * 0x4C)
def sdDeadline (d : Nat) : Nat := bits d (8 * 0x50 + 63) (8 * 0x50)
def sdTol2 (d : Nat) : Nat := rdWord d 0x58
def sdStg (d : Nat) : Nat := rdHalf d 0x5C
def sdShift (d : Nat) : Nat := rdByte d 0x5E
def sdExp (d i : Nat) : Int := toSigned 8 (rdByte d (0x60 + i))
def sdNote (d : Nat) : Bool × Nat × Nat := (bit d (8 * 0x70 + 15), rdByte d 0x70, bits d (8 * 0x70 + 12) (8 * 0x70 + 8))
def sdUser (d : Nat) : Nat := rdWord d 0x74
def sdDense (d : Nat) : Bool := decide (sdKind d < 4)
def up64 (n : Nat) : Nat := (n + 63) / 64 * 64
/-- Elements of the solution; bytes of a member's matrix and right-hand side (R259, R265). -/
def sdLx (d : Nat) : Nat := if sdDense d then sdNb d * sdN d * sdNrhs d else sdN d
def sdMs (d : Nat) : Nat := up64 (4 * sdN d * sdN d)
def sdRs (d : Nat) : Nat := up64 (4 * sdN d * sdNrhs d)
/-- Where solution element i lies past its base. -/
def sdXoff (d i : Nat) : Nat :=
  let per := max (sdN d * sdNrhs d) 1
  if sdDense d then i / per * sdRs d + 4 * (i % per) else 4 * i
def sdXlen (d : Nat) : Nat := if sdDense d then sdNb d * sdRs d else 4 * sdN d

/-- The exponent roles of R257. -/
def rA : Nat := 0
def rB : Nat := 1
def rX : Nat := 2
def rF : Nat := 3
def rD : Nat := 4
def rY : Nat := 5
def rR : Nat := 6
def rZ : Nat := 7
def rP : Nat := 8
def rQ : Nat := 9
def rRho : Nat := 10
def rAlpha : Nat := 11
def rBeta : Nat := 12

/-- Scratch bytes a job needs (R265). -/
def sdScratch (d : Nat) : Nat :=
  if sdDense d then up64 (sdNb d) + up64 (4 * sdLx d)
  else 64 + up64 (4 * sdN d) + up64 (4 * sdN d * sdBs d) + up64 (32 * sdN d)

/-- Legal values (R253, R254, R258, R265, R271). -/
def sdOk (d : Nat) : Bool :=
  let dense := sdDense d
  let aligned := [sdA d, sdB d, sdXout d, sdXprev d, sdScr d, sdAval d].all (· % 64 = 0)
  decide (sdKind d ≤ 5 ∧ sdTs d ≤ 4 ∧ sdPrec d ≤ 1 ∧ bits d 1023 (8 * 0x78) = 0 ∧ 1 ≤ sdStg d ∧ sdA d ≠ 0 ∧ sdScr d ≠ 0) && aligned &&
  (if dense then
    decide (sdPrec d = 0 ∧ 1 ≤ sdN d ∧ sdN d ≤ 64 ∧ 1 ≤ sdNb d ∧ sdNb d ≤ 4096 ∧ sdNrhs d ≤ 64 ∧ (sdKind d = 3 → 1 ≤ sdNrhs d) ∧
      (sdNrhs d ≠ 0 → sdB d ≠ 0 ∧ sdXout d ≠ 0)) && (!(sdKind d < 3 && sdWfact d) || sdAval d != 0)
  else
    decide (1 ≤ sdN d ∧ sdN d ≤ 2 ^ 20 ∧ sdNb d = 1 ∧ sdNrhs d = 1 ∧ 1 ≤ sdNnz d ∧ sdNnz d ≤ 2 ^ 24 ∧ 1 ≤ sdMaxit d ∧
      sdAcol d % 64 = 0 ∧ sdAcol d ≠ 0 ∧ sdAval d ≠ 0 ∧ sdB d ≠ 0 ∧ sdXout d ≠ 0 ∧ (sdPrec d = 1 → 1 ≤ sdBs d ∧ sdBs d ≤ 64))) &&
  decide (sdScratch d ≤ 64 * sdScrlen d ∧ sdLx d % sdStg d = 0 ∧ ((sdDl d ≠ 0 ∨ (sdWarm d ∧ ¬ dense)) → sdXprev d ≠ 0) ∧
    (sdXprev d = 0 ∨ sdXprev d = sdXout d ∨ sdXprev d + sdXlen d ≤ sdXout d ∨ sdXout d + sdXlen d ≤ sdXprev d))

/-- The address ranges of a job (writable?, address, length). -/
def sdRanges (d : Nat) : List (Bool × Nat × Nat) :=
  (if sdDense d then
    [(false, sdA d, sdNb d * sdMs d)] ++ (if sdNrhs d = 0 then [] else [(false, sdB d, sdXlen d), (true, sdXout d, sdXlen d)]) ++
      (if sdKind d < 3 ∧ sdWfact d then [(true, sdAval d, sdNb d * (sdMs d + 64))] else [])
  else [(false, sdA d, 4 * (sdN d + 1)), (false, sdAcol d, 4 * sdNnz d), (false, sdAval d, 4 * sdNnz d), (false, sdB d, 4 * sdN d),
      (true, sdXout d, 4 * sdN d)]) ++
  (if sdXprev d = 0 ∨ sdLx d = 0 then [] else [(false, sdXprev d, sdXlen d)]) ++ [(true, sdScr d, 64 * sdScrlen d)]

/-! ### The dense kinds (R261, R262) -/

/-- A square matrix by rows. -/
abbrev Mat := Array Int
def mAt (n : Nat) (a : Mat) (i j : Nat) : Int := a.getD (n * i + j) 0
def mPut (n : Nat) (a : Mat) (i j : Nat) (v : Int) : Mat := a.setIfInBounds (n * i + j) v

/-- A factorisation: factors, pivot rows, failed (a status bit, 0 for none), saturations. -/
structure Fact where
  f : Mat
  piv : List Nat
  fail : Nat
  sat : Nat

def stNotPd : Nat := 4
def stZeroPivot : Nat := 8

/-- CHOL: the lower triangle of A, given as exact values. -/
def cholFact (n : Nat) (ef : Int) (a : Nat → Nat → Dy) : Fact :=
  (List.range n).foldl (fun (x : Fact) j =>
    if x.fail ≠ 0 then x
    else
      let l (i k : Nat) : Dy := ⟨mAt n x.f i k, ef⟩
      let rad := (a j j).sub (dyDot j (l j) (l j))
      if rad.m ≤ 0 then { x with fail := stNotPd }
      else
        let dj := roundSqrt ef rad
        ((List.range (n - j - 1)).map (j + 1 + ·)).foldl (fun (y : Fact) i =>
          let v := roundQuot ef ((a i j).sub (dyDot j (l i) (l j))) ⟨dj.1, ef⟩
          { y with f := mPut n y.f i j v.1, sat := y.sat + v.2 })
          { x with f := mPut n x.f j j dj.1, sat := x.sat + dj.2 }) ⟨(List.replicate (n * n) (0 : Int)).toArray, [], 0, 0⟩

/-- LDLT: L below the diagonal, D on it. -/
def ldltFact (n : Nat) (ef ed : Int) (a : Nat → Nat → Dy) : Fact :=
  (List.range n).foldl (fun (x : Fact) j =>
    if x.fail ≠ 0 then x
    else
      let l (i k : Nat) : Dy := ⟨mAt n x.f i k, ef⟩
      let dd (k : Nat) : Dy := ⟨mAt n x.f k k, ed⟩
      let dj := roundTo ed ((a j j).sub (dyDot j (fun k => (l j k).mul (l j k)) dd))
      if dj.1 = 0 then { x with fail := stZeroPivot, sat := x.sat + dj.2 }
      else
        ((List.range (n - j - 1)).map (j + 1 + ·)).foldl (fun (y : Fact) i =>
          let v := roundQuot ef ((a i j).sub (dyDot j (fun k => (l i k).mul (l j k)) dd)) ⟨dj.1, ed⟩
          { y with f := mPut n y.f i j v.1, sat := y.sat + v.2 })
          { x with f := mPut n x.f j j dj.1, sat := x.sat + dj.2 }) ⟨(List.replicate (n * n) (0 : Int)).toArray, [], 0, 0⟩

/-- LU with partial pivoting; rows of the packed factors stand in pivot order, `l` holds the multipliers by original row. -/
def luFact (n : Nat) (ef : Int) (a : Nat → Nat → Dy) : Fact :=
  let go := (List.range n).foldl (fun (st : Fact × Mat) j =>
    let x := st.1
    if x.fail ≠ 0 then st
    else
      let u (k t : Nat) : Dy := ⟨mAt n x.f k t, ef⟩
      let l (i k : Nat) : Dy := ⟨mAt n st.2 i k, ef⟩
      let free := (List.range n).filter fun i => !x.piv.contains i
      let c (i : Nat) : Dy := (a i j).sub (dyDot j (l i) fun k => u k j)
      let p := free.foldl (fun b i => if (c b).abs.le (c i).abs && !(c i).abs.le (c b).abs then i else b) (free.headD 0)
      if (c p).m = 0 then ({ x with fail := stZeroPivot }, st.2)
      else
        let ups := ((List.range (n - j)).map (j + ·)).map fun t => (t, roundTo ef ((a p t).sub (dyDot j (l p) fun k => u k t)))
        let f1 := (List.range j).foldl (fun f k => mPut n f j k (mAt n st.2 p k)) x.f
        let f2 := ups.foldl (fun f q => mPut n f j q.1 q.2.1) f1
        let ujj : Dy := ⟨mAt n f2 j j, ef⟩
        let ls := (free.filter (· ≠ p)).map fun i => (i, roundQuot ef (c i) ujj)
        ({ x with f := f2, piv := x.piv ++ [p],
                  sat := x.sat + ups.foldl (fun s q => s + q.2.2) 0 + ls.foldl (fun s q => s + q.2.2) 0 },
         ls.foldl (fun m q => mPut n m q.1 j q.2.1) st.2))
    (⟨(List.replicate (n * n) (0 : Int)).toArray, [], 0, 0⟩, (List.replicate (n * n) (0 : Int)).toArray)
  go.1

/-- One triangular pass: `low` in ascending order, otherwise descending; results into exponent eo. -/
def triPass (n : Nat) (low unit : Bool) (t : Nat → Nat → Dy) (rhs : Nat → Dy) (eo : Int) : Array Int × Nat :=
  let order := if low then List.range n else (List.range n).reverse
  order.foldl (fun (y : Array Int × Nat) i =>
    let ks := (List.range n).filter fun k => if low then decide (k < i) else decide (i < k)
    let sum := ks.foldl (fun acc k => acc.add ((t i k).mul ⟨y.1.getD k 0, eo⟩)) Dy.zero
    let v := if unit then roundTo eo ((rhs i).sub sum) else roundQuot eo ((rhs i).sub sum) (t i i)
    (y.1.setIfInBounds i v.1, y.2 + v.2)) ((List.replicate n (0 : Int)).toArray, 0)

/-- Solve with a factorisation: forward into role ey, backward into role ex; `rhs` gives B. -/
def denseSolve (kind n : Nat) (ef ed ey ex : Int) (f : Fact) (rhs : Nat → Dy) : Array Int × Nat :=
  let l (i k : Nat) : Dy := ⟨mAt n f.f i k, ef⟩
  match kind with
  | 0 =>
    let y := triPass n true false l rhs ey
    let x := triPass n false false (fun i k => l k i) (fun i => ⟨y.1.getD i 0, ey⟩) ex
    (x.1, y.2 + x.2)
  | 1 =>
    let y := triPass n true true l rhs ey
    let z := (List.range n).map fun i => roundQuot ey ⟨y.1.getD i 0, ey⟩ ⟨mAt n f.f i i, ed⟩
    let za := (z.map (·.1)).toArray
    let x := triPass n false true (fun i k => l k i) (fun i => ⟨za.getD i 0, ey⟩) ex
    (x.1, y.2 + z.foldl (fun a q => a + q.2) 0 + x.2)
  | _ =>
    let y := triPass n true true l (fun i => rhs (f.piv.getD i 0)) ey
    let x := triPass n false false l (fun i => ⟨y.1.getD i 0, ey⟩) ex
    (x.1, y.2 + x.2)

/-! ### Reading data -/

/-- Consecutive signed words at an address, with poison seen. -/
def State.readWords (s : State) (a n : Nat) : List (Nat × Bool) × State :=
  let r := s.blkRead a (4 * n)
  let arr := r.1.toArray
  ((List.range n).map fun i =>
    let b (j : Nat) : MByte := arr.getD (4 * i + j) (0, false)
    ((b 0).1.toNat + 256 * (b 1).1.toNat + 65536 * (b 2).1.toNat + 16777216 * (b 3).1.toNat,
     (b 0).2 || (b 1).2 || (b 2).2 || (b 3).2), r.2)

def asInts (l : List (Nat × Bool)) : List Int := l.map fun v => toSigned 32 v.1
def anyMark (l : List (Nat × Bool)) : Bool := l.any (·.2)

/-- The XPREV element that element i of XOUT receives (R271). -/
def shiftMap (d i : Nat) : Nat :=
  let g := max (sdStg d) 1
  min (i / g + sdShift d) (sdLx d / g - 1) * g + i % g

/-- The shifted XPREV element for i, and whether it is poisoned. -/
def State.prevAt (s : State) (d i : Nat) : (Int × Bool) × State :=
  let r := s.readWords (sdXprev d + sdXoff d (shiftMap d i)) 1
  ((toSigned 32 ((r.1.headD (0, false)).1), anyMark r.1), r.2)

/-- The shifted XPREV elements for a list of indices. -/
def State.prevList (s : State) (d : Nat) : List Nat → List (Int × Bool) × State
  | [] => ([], s)
  | i :: t =>
    let v := s.prevAt d i
    let w := v.2.prevList d t
    (v.1 :: w.1, w.2)

/-! ### Jobs -/

def State.mSol (s : State) (f : SolSt → SolSt) : State := { s with sol := f s.sol }
def solPart (s : State) (j : SolJob) : Nat := s.qPart (solQ j.queue)

/-- STATUS bits (R274). -/
def ssOk : Nat := 1
def ssStale : Nat := 2
def ssMaxit : Nat := 4
def ssBreak : Nat := 8
def ssNumfail : Nat := 16
def ssSat : Nat := 32
def ssPoisonData : Nat := 64
def ssDesc : Nat := 128
def ssIso : Nat := 256
def ssPoison : Nat := 512
def ssAddr : Nat := 1024
def ssNostart : Nat := 2048

/-- The completion record (R274). -/
def solRecord (q d status progress res sat fails t0 t1 run : Nat) : List MByte :=
  leBytes 2 status ++ leBytes 1 q ++ leBytes 1 (sdKind d) ++ leBytes 4 (sdUser d) ++ leBytes 4 progress ++ leBytes 4 res ++
    leBytes 4 sat ++ leBytes 4 fails ++ leBytes 8 t0 ++ leBytes 8 t1 ++ leBytes 1 run ++ leBytes 23 0

/-- Write a job's record and notify its targets (R237, R266, R274). -/
def State.solDone (s : State) (q d status progress res sat fails t0 run : Nat) : State :=
  let s1 := s.complete (solQ q) 64 (solRecord q d status progress res (min sat (2 ^ 32 - 1)) fails t0 s.now run)
  let nt := sdNote d
  let s2 := if nt.1 ∧ s.coreIn nt.2.1 (s.qPart (solQ q)) then s1.notify srcSol (s.qPart (solQ q)) nt.2.1 nt.2.2 1 else s1
  s2.bumpWrap SOL_JOBS_COUNT 1

/-- The chain counter a descriptor selects (R273). -/
def solChain (q d : Nat) : Nat := 4 * q + sdChain d
def State.chainRun (s : State) (q d : Nat) : Nat := if sdChEn d then s.rd (SOL_CHAIN_RUN (solChain q d)) else 0

/-- A job ends at its fetch or setup with none of its effects (R275). -/
def State.solAbort (s : State) (q d t0 status : Nat) : State :=
  let ev := if status = ssDesc then SOL_EVENT_DESC else if status = ssIso then SOL_EVENT_ISO else SOL_EVENT_POISON
  let s1 := if status = ssAddr then s else s.wr ev 1
  s1.solDone q d status 0 0 0 0 t0 (s1.chainRun q d)

/-- Show the engine's state in SOL_STATUS. -/
def State.solShow (s : State) : State :=
  let s1 := (s.wr SOL_STATUS_BUSY (b2n s.sol.run.isSome)).wr SOL_STATUS_SUSP s.sol.susp.length
  match s.sol.run with
  | some j => s1.wr SOL_STATUS_RUNQ j.queue
  | none => s1

def State.setRun (s : State) (j : Option SolJob) : State := (s.mSol fun x => { x with run := j }).solShow

/-- Stop a job STALE (R269, R270): `nostart` at its fetch. -/
def SolJob.stop (j : SolJob) (nostart : Bool) : SolJob :=
  { j with ended := some (ssStale + (if nostart then ssNostart else 0)), stale := true, check := false }

/-- The deadline of a job has passed now (R269). -/
def State.late (s : State) (d : Nat) : Bool := sdDl d == 1 && decide (sdDeadline d ≤ s.time (sdTs d))

/-- A fresh SolJob. -/
def freshJob (q : Nat) (d : Nat) (t0 : Nat) : SolJob :=
  ⟨q, BitVec.ofNat 1024 d, t0, false, false, 0, none, false, 0, 0, 0, false, [], [], [], [], [], [], [], [], [], 0, (0, 0)⟩

/-! ### Scheduling (R267, R268) -/

/-- The queue has a job that may start: a descriptor waits. -/
def State.solPending (s : State) (q : Nat) : Bool :=
  s.qReady (solQ q) && s.slotOpen (s.qPart (solQ q)) && !(s.sol.susp.any fun j => j.queue == q)

/-- Queues with something to run: a suspended job or a pending descriptor. -/
def State.solReady (s : State) (q : Nat) : Bool := s.solPending q || s.sol.susp.any fun j => j.queue == q

/-- The queue whose turn it is: highest priority; among equals suspended jobs first, then round robin after the last. -/
def State.solPick (s : State) : Option Nat :=
  let qs := (List.range 16).filter s.solReady
  let top := qs.foldl (fun a q => max a (s.rd (SOL_Q_CFG_PRIO q))) 0
  let best := qs.filter fun q => s.rd (SOL_Q_CFG_PRIO q) == top
  match best.find? fun q => s.sol.susp.any fun j => j.queue == q with
  | some q => some q
  | none => ((List.range 16).map fun i => (s.sol.last + 1 + i) % 16).find? best.contains

/-- Fetch and check the head descriptor of queue q; its first check point is the fetch (R258, R269, R275). -/
def State.solFetch (s : State) (q : Nat) : State :=
  let p := s.qPart (solQ q)
  let a := s.rd (SOL_Q_SQ_ADDR q) + (s.queue (solQ q)).next % s.qSize (solQ q) * 128
  match s.checkRun p false a 128 true with
  | .ok =>
    let r := s.blkRead a 128
    let d := leNum r.1
    let t := (r.2.setQueue (solQ q) ⟨(s.queue (solQ q)).prod, ((s.queue (solQ q)).next + 1) % 2 ^ 32⟩).mSol fun x => { x with last := q }
    let t0 := s.now
    let nt := sdNote d
    if anyPois r.1 then (t.solAbort q d t0 ssPoison).bite p srcSol a
    else if ¬ sdOk d then t.solAbort q d t0 ssDesc
    else match t.firstFail p (sdRanges d) with
      | some (.decode, _) => t.solAbort q d t0 ssAddr
      | some _ => t.solAbort q d t0 ssIso
      | none =>
        if nt.1 ∧ ¬ s.coreIn nt.2.1 p then t.solAbort q d t0 ssIso
        else
          let j := freshJob q d t0
          if t.late d ∨ sdDl d = 3 then t.setRun (some (j.stop true)) else t.setRun (some j)
  | c => (s.wr SOL_EVENT_ISO 1).blkFail p srcSol c a

/-- SOL_SCHEDULE (R267): with no job running, the next one starts or resumes. -/
def execSolSchedule (s : State) : Out :=
  if s.sol.run.isSome then .next s
  else match s.solPick with
  | none => .next s
  | some q =>
    match s.sol.susp.find? fun j => j.queue == q with
    | some j => .next ((s.mSol fun x => { x with susp := x.susp.filter fun k => k.queue != q, last := q }).setRun (some j))
    | none => .next (s.solFetch q)

/-- SOL_SUSPEND (R268): at a suspension point, for a pending job of strictly higher priority. -/
def execSolSuspend (s : State) : Out :=
  match s.sol.run with
  | none => .next s
  | some j =>
    let pr (q : Nat) : Nat := s.rd (SOL_Q_CFG_PRIO q)
    if ¬ j.setup ∨ j.ended.isSome ∨ 3 ≤ s.sol.susp.length ∨
        ¬ (List.range 16).any (fun q => s.solPending q && decide (pr j.queue < pr q)) then .next s
    else .next ((s.mSol fun x => { x with susp := x.susp ++ [j] }).setRun none)

/-! ### Running: setup and units -/

/-- One dense member (R259, R261, R262): factors, solution, status byte. -/
def State.solMember (s : State) (j : SolJob) : State :=
  let d := j.desc.toNat
  let n := sdN d
  let nr := sdNrhs d
  let m := j.units
  let k := sdKind d
  let ea := sdExp d rA
  let ra := s.readWords (sdA d + m * sdMs d) (n * n)
  let rb := if nr = 0 then ([], ra.2) else ra.2.readWords (sdB d + m * sdRs d) (n * nr)
  let av := ra.1.toArray
  let bv := rb.1.toArray
  let lower := decide (k = 0 ∨ k = 1)
  let reads (i c : Nat) : Bool :=
    if lower then decide (c ≤ i) else if k = 2 then true
    else if i = c then !sdUnit d else (decide (i < c)) == sdUplo d
  let pois := (List.range (n * n)).any (fun e => reads (e / n) (e % n) && (av.getD e (0, false)).2) || anyMark rb.1
  let a (i c : Nat) : Dy := ⟨toSigned 32 (av.getD (n * i + c) (0, false)).1, ea⟩
  let rhs (r i : Nat) : Dy := ⟨toSigned 32 (bv.getD (nr * i + r) (0, false)).1, sdExp d rB⟩
  let ef := sdExp d rF
  let f : Fact := match k with
    | 0 => cholFact n ef a
    | 1 => ldltFact n ef (sdExp d rD) a
    | 2 => luFact n ef a
    | _ => ⟨#[], [], if !sdUnit d && (List.range n).any (fun i => (a i i).m = 0) then stZeroPivot else 0, 0⟩
  let t (i c : Nat) : Dy := if sdTrans d then a c i else a i c
  let cols := (List.range nr).map fun r =>
    if k = 3 then triPass n (sdUplo d == sdTrans d) (sdUnit d) t (rhs r) (sdExp d rX)
    else denseSolve k n ef (sdExp d rD) (sdExp d rY) (sdExp d rX) f (rhs r)
  let good := f.fail = 0
  let fall := if good ∨ sdXprev d = 0 then ([], rb.2) else rb.2.prevList d ((List.range (n * nr)).map (m * n * nr + ·))
  let sol : List (Int × Bool) := if good then (List.range (n * nr)).map fun e => (((cols.getD (e % nr) (#[], 0)).1.getD (e / nr) 0), pois)
    else if sdXprev d = 0 then List.replicate (n * nr) (0, false) else fall.1
  let sat := f.sat + (if good then cols.foldl (fun acc c => acc + c.2) 0 else 0)
  let s1 := if k < 3 ∧ sdWfact d then
      let base := sdAval d + m * (sdMs d + 64)
      let w := fall.2.blkWrite base ((List.range (n * n)).flatMap fun e => (leBytes 4 (ofSigned 32 (f.f.getD e 0))).map fun b => (b.1, pois))
      if k = 2 then w.blkWrite (base + sdMs d) ((List.range n).map fun i => (BitVec.ofNat 8 (f.piv.getD i 0), pois)) else w
    else fall.2
  let dataPois := pois || fall.1.any (·.2)
  let status := (if good then 1 else 0) + (if 0 < sat then 2 else 0) + f.fail + (if dataPois then 16 else 0) +
    (if good then 0 else 32)
  let s2 := s1.blkWrite (sdScr d + m) (leBytes 1 status)
  let s3 := if good then s2 else s2.wr SOL_EVENT_NUMFAIL 1
  s3.setRun (some { j with units := m + 1, check := true, sat := j.sat + sat, fails := j.fails + (if good then 0 else 1),
                           pois := j.pois || dataPois, sol := j.sol ++ sol })

/-- The CSR rows of a sparse matrix as (column, exact value) lists. -/
def csrRow (rows cols : Array Nat) (vals : Array Int) (e : Int) (i : Nat) : List (Nat × Dy) :=
  ((List.range (rows.getD (i + 1) 0 - rows.getD i 0)).map (rows.getD i 0 + ·)).map fun k => (cols.getD k 0, ⟨vals.getD k 0, e⟩)

/-- A x, exact, row by row, for a job's matrix. -/
def SolJob.spmv (j : SolJob) (x : Nat → Dy) : List Dy :=
  let d := j.desc.toNat
  let rows := j.rows.toArray
  let cols := j.cols.toArray
  let vals := j.vals.toArray
  (List.range (sdN d)).map fun i =>
    (csrRow rows cols vals (sdExp d rA) i).foldl (fun a c => a.add (c.2.mul (x c.1))) Dy.zero

/-- A vector of significands with the exponent of a role. -/
def vecAt (d role : Nat) (l : List Int) : Nat → Dy :=
  let a := l.toArray
  fun i => ⟨a.getD i 0, sdExp d role⟩

/-- Round a list of exact values into a role. -/
def roundVec (d role : Nat) (l : List Dy) : List Int × Nat :=
  let r := l.map (roundTo (sdExp d role))
  (r.map (·.1), r.foldl (fun a v => a + v.2) 0)

/-- The rows of block b of the preconditioner. -/
def blockRows (d b : Nat) : Nat × Nat := (b * sdBs d, min (sdBs d) (sdN d - b * sdBs d))

/-- Factorise the diagonal blocks (R254): the factors, whether one failed, saturations. -/
def SolJob.factor (j : SolJob) : List (List Int) × Bool × Nat :=
  let d := j.desc.toNat
  if sdPrec d = 0 then ([], false, 0)
  else
    let rows := j.rows.toArray
    let cols := j.cols.toArray
    let vals := j.vals.toArray
    let fs := (List.range (ceilDiv (sdN d) (sdBs d))).map fun b =>
      let (lo, n) := blockRows d b
      cholFact n (sdExp d rF) fun i c =>
        ((csrRow rows cols vals (sdExp d rA) (lo + i)).filter fun (v : Nat × Dy) => v.1 == lo + c).foldl (fun (a : Dy) (v : Nat × Dy) => a.add v.2) Dy.zero
    (fs.map fun f => f.f.toList, fs.any fun f => f.fail ≠ 0, fs.foldl (fun a f => a + f.sat) 0)

/-- z = round_Z(M⁻¹ r). -/
def SolJob.precond (j : SolJob) (r : List Int) : List Int × Nat :=
  let d := j.desc.toNat
  let rv := vecAt d rR r
  if sdPrec d = 0 then roundVec d rZ ((List.range (sdN d)).map rv)
  else
    let zs := (List.range (ceilDiv (sdN d) (sdBs d))).map fun b =>
      let (lo, n) := blockRows d b
      let f : Fact := ⟨(j.blocks.getD b []).toArray, [], 0, 0⟩
      let y := denseSolve 0 n (sdExp d rF) 0 (sdExp d rY) (sdExp d rZ) f fun i => rv (lo + i)
      (y.1.toList, y.2)
    (zs.flatMap (·.1), zs.foldl (fun a z => a + z.2) 0)

/-- The dot of two vectors of roles. -/
def vdot (d ra rb : Nat) (a b : List Int) : Dy := dyDot (sdN d) (vecAt d ra a) (vecAt d rb b)

/-- The CSR structure holds (R260). -/
def csrOk (d : Nat) (rows cols : List Nat) : Bool :=
  decide (rows.headD 1 = 0 ∧ rows.getLastD 0 = sdNnz d) && (rows.zip rows.tail).all (fun p => decide (p.1 ≤ p.2)) &&
    cols.all fun c => decide (c < sdN d)

/-- Setup (R263, R269). -/
def State.solSetup (s : State) (j : SolJob) : State :=
  let d := j.desc.toNat
  if sdDense d then s.setRun (some { j with setup := true, check := true })
  else
    let n := sdN d
    let r1 := s.readWords (sdA d) (n + 1)
    let r2 := r1.2.readWords (sdAcol d) (sdNnz d)
    let r3 := r2.2.readWords (sdAval d) (sdNnz d)
    let r4 := r3.2.readWords (sdB d) n
    let x0 := if sdWarm d then r4.2.prevList d (List.range n) else (List.replicate n (0, false), r4.2)
    let t := x0.2
    if anyMark r1.1 ∨ anyMark r2.1 then
      ((t.setRun none).solAbort j.queue d j.fetched ssPoison).bite (solPart s j) srcSol (if anyMark r1.1 then sdA d else sdAcol d)
    else if ¬ csrOk d (r1.1.map (·.1)) (r2.1.map (·.1)) then (t.setRun none).solAbort j.queue d j.fetched ssDesc
    else
      let j1 : SolJob := { j with
        setup := true, check := true, rows := r1.1.map (·.1), cols := r2.1.map (·.1), vals := asInts r3.1, b := asInts r4.1,
        x := x0.1.map (·.1), pois := anyMark r3.1 || anyMark r4.1 || x0.1.any (·.2) }
      let ax := j1.spmv (vecAt d rX j1.x)
      let bv := vecAt d rB j1.b
      let r := roundVec d rR (ax.zipIdx.map fun q => (bv q.2).sub q.1)
      let bb := vdot d rB rB j1.b j1.b
      let res := roundTo (sdExp d rRho) (vdot d rR rR r.1 r.1)
      let f := j1.factor
      let j2 : SolJob := { j1 with r := r.1, bb := (bb.m, bb.e), res := res.1, blocks := f.1 }
      if sdKind d = 5 then
        t.setRun (some { j2 with sat := Config.minresSat ((List.range 16).map (sdExp d)) j2.rows j2.cols j2.vals j2.b j2.x 0 })
      else if f.2.1 then
        (t.wr SOL_EVENT_NUMFAIL 1).setRun (some { j2 with sat := r.2 + res.2 + f.2.2, fails := 1, ended := some ssBreak })
      else
        let z := j2.precond r.1
        let p := roundVec d rP ((List.range n).map (vecAt d rZ z.1))
        let rho := roundTo (sdExp d rRho) (vdot d rR rZ r.1 z.1)
        t.setRun (some { j2 with p := p.1, rho := rho.1, sat := r.2 + res.2 + f.2.2 + z.2 + p.2 + rho.2 })

/-- One PCG iteration (R263): the search direction of an iteration after the first is formed at its start. -/
def SolJob.pcgStep (j : SolJob) : SolJob :=
  let d := j.desc.toNat
  let j1 : SolJob :=
    if j.units = 0 then j
    else
      let z := j.precond j.r
      let rho' := roundTo (sdExp d rRho) (vdot d rR rZ j.r z.1)
      let beta := roundQuot (sdExp d rBeta) ⟨rho'.1, sdExp d rRho⟩ ⟨j.rho, sdExp d rRho⟩
      let zv := vecAt d rZ z.1
      let pv := vecAt d rP j.p
      let p := roundVec d rP ((List.range (sdN d)).map fun i => (zv i).add ((⟨beta.1, sdExp d rBeta⟩ : Dy).mul (pv i)))
      { j with p := p.1, rho := rho'.1, sat := j.sat + z.2 + rho'.2 + beta.2 + p.2 }
  let q := roundVec d rQ (j1.spmv (vecAt d rP j1.p))
  let pq := roundTo (sdExp d rRho) (vdot d rP rQ j1.p q.1)
  if pq.1 = 0 ∨ j1.rho = 0 then { j1 with sat := j1.sat + q.2 + pq.2, ended := some ssBreak, check := true }
  else
    let al := roundQuot (sdExp d rAlpha) ⟨j1.rho, sdExp d rRho⟩ ⟨pq.1, sdExp d rRho⟩
    let av : Dy := ⟨al.1, sdExp d rAlpha⟩
    let xv := vecAt d rX j1.x
    let pv := vecAt d rP j1.p
    let rv := vecAt d rR j1.r
    let qv := vecAt d rQ q.1
    let x := roundVec d rX ((List.range (sdN d)).map fun i => (xv i).add (av.mul (pv i)))
    let r := roundVec d rR ((List.range (sdN d)).map fun i => (rv i).sub (av.mul (qv i)))
    let res := roundTo (sdExp d rRho) (vdot d rR rR r.1 r.1)
    { j1 with x := x.1, r := r.1, res := res.1, units := j1.units + 1, check := true,
              sat := j1.sat + q.2 + pq.2 + al.2 + x.2 + r.2 + res.2 }

/-- One MINRES iteration, as the reference model gives it. -/
def SolJob.minresStep (j : SolJob) (x0 : List Int) : SolJob :=
  let d := j.desc.toNat
  let es := (List.range 16).map (sdExp d)
  let k := j.units + 1
  let x := Config.minresX es j.rows j.cols j.vals j.b x0 k
  { j with x := (List.range (sdN d)).map fun i => toSigned 32 (ofSigned 32 (x.getD i 0)),
           res := toSigned 32 (ofSigned 32 (Config.minresRes es j.rows j.cols j.vals j.b x0 k)), units := k, check := true,
           sat := Config.minresSat es j.rows j.cols j.vals j.b x0 k,
           ended := if Config.minresEnd es j.rows j.cols j.vals j.b x0 k = 2 then some ssBreak else none }

/-- The next piece of the running job's work, where it is of a kind: setup, a member or an iteration. -/
def State.solWork (s : State) (kind : Nat) : State :=
  match s.sol.run with
  | none => s
  | some j =>
    let d := j.desc.toNat
    if sdKind d ≠ kind ∨ j.ended.isSome ∨ j.check then s
    else if ¬ j.setup then s.solSetup j
    else if sdDense d then (if j.units < sdNb d then s.solMember j else s)
    else if kind = 4 then s.setRun (some j.pcgStep)
    else
      -- the first iterate stands in p from the first iteration on
      let x0 := if j.units = 0 then j.x else j.p
      s.setRun (some { j.minresStep x0 with p := x0 })

def execChol (s : State) : Out := .next (s.solWork 0)
def execLdlt (s : State) : Out := .next (s.solWork 1)
def execLu (s : State) : Out := .next (s.solWork 2)
def execTrsv (s : State) : Out := .next (s.solWork 3)
def execPcg (s : State) : Out := .next (s.solWork 4)
def execMinres (s : State) : Out := .next (s.solWork 5)

/-! ### Check points (R264, R269, R270) -/

/-- The job's work is finished at this check point: its STATUS bits. -/
def SolJob.finish (j : SolJob) : Option Nat :=
  let d := j.desc.toNat
  if sdDense d then (if j.units = sdNb d then some ssOk else none)
  else
    let conv := if sdKind d = 5 then
        Config.minresEnd ((List.range 16).map (sdExp d)) j.rows j.cols j.vals j.b j.p j.units == 1
      else (((vdot d rR rR j.r j.r).mul ⟨1, 32⟩).le ((⟨j.bb.1, j.bb.2⟩ : Dy).mul ⟨sdTol2 d, 0⟩))
    if 0 < j.units ∧ conv then some ssOk else if sdMaxit d ≤ j.units ∧ 0 < j.units then some ssMaxit else none

/-- SOL_CHECK_POINT (R269, R270): a due check point, or, in a large sparse matrix, one within an iteration. -/
def execSolCheckPoint (s : State) : Out :=
  match s.sol.run with
  | none => .next s
  | some j =>
    let d := j.desc.toNat
    let inner := !sdDense d && j.setup && j.ended.isNone && decide (1024 ≤ sdN d ∨ 65536 ≤ sdNnz d)
    if j.check then
      if s.late d ∨ (sdDl d = 2 ∧ sdStopat d = j.units ∧ j.ended.isNone) then .next (s.setRun (some (j.stop false)))
      else match j.ended, j.finish with
      | none, some e => .next (s.setRun (some { j with ended := some e, check := false }))
      | _, _ => .next (s.setRun (some { j with check := false }))
    else if inner ∧ s.late d then .next (s.setRun (some (j.stop false)))
    else .next s

/-! ### Commit (R269 to R274) -/

/-- Write one element of XOUT. -/
def State.putX (s : State) (d i : Nat) (v : Int × Bool) : State :=
  s.blkWrite (sdXout d + sdXoff d i) ((leBytes 4 (ofSigned 32 v.1)).map fun b => (b.1, v.2))

/-- The STALE output, stage by stage in ascending order (R271). -/
def State.staleOut (s : State) (d : Nat) : State × Bool :=
  (List.range (sdLx d)).foldl (fun a i =>
    let v := a.1.prevAt d i
    (v.2.putX d i v.1, a.2 || v.1.2)) (s, false)

/-- A job's chain moves at its commit (R273). -/
def State.chainStep (s : State) (q d : Nat) (stale : Bool) : State :=
  if ¬ sdChEn d then s
  else
    let c := solChain q d
    if ¬ stale then s.wr (SOL_CHAIN_RUN c) 0
    else
      let s1 := s.bump (SOL_CHAIN_RUN c)
      let lim := s.rd SOL_CFG_STALE_LIMIT
      if lim ≠ 0 ∧ s1.rd (SOL_CHAIN_RUN c) = lim ∧ s.rd (SOL_CHAIN_RUN c) ≠ lim then
        let s2 := (s1.wr SOL_EVENT_STALE_LIMIT 1).wr (SOL_CHAIN_HIT c) 1
        let p := s.qPart (solQ q)
        if s.classOf p = 0 then s2.cause 6 p srcSol c else s2
      else s1

/-- SOL_COMMIT (R264, R269 to R274): the ended job's solution, chain and record. -/
def execSolCommit (s : State) : Out :=
  match s.sol.run with
  | none => .next s
  | some j =>
    match j.ended with
    | none => .next s
    | some e =>
      if j.check then .next s
      else
        let d := j.desc.toNat
        let q := j.queue
        let p := solPart s j
        let f := s.draw
        let keep := if sdDense d then j.units else 0
        let s0 := f.2.blkWrite (sdScr d + keep) ((List.range (64 * sdScrlen d - keep)).map fun i => (Config.solScratch f.1 i, false))
        let out : State × Bool :=
          if j.stale then s0.staleOut d
          else if sdDense d then (j.sol.zipIdx.foldl (fun (a : State) (v : (Int × Bool) × Nat) => a.putX d v.2 v.1) s0, j.pois)
          else ((j.x.zipIdx.foldl (fun (a : State) (v : Int × Nat) => a.putX d v.2 (v.1, j.pois)) s0), j.pois)
        let s1 := out.1.chainStep q d j.stale
        let s2 := if j.stale then
            let t := (s1.wr SOL_EVENT_STALE 1).bump SOL_STALE_COUNT_COUNT
            if sdDl d = 1 then t.detChoice p 1 else t
          else s1
        let s3 := if 0 < j.sat then s2.wr SOL_EVENT_SAT 1 else s2
        let st := e + (if 0 < j.fails then ssNumfail else 0) + (if 0 < j.sat then ssSat else 0) +
          (if out.2 then ssPoisonData else 0)
        let res := if sdDense d then 0 else ofSigned 32 j.res
        .next ((s3.setRun none).solDone q d st j.units res j.sat j.fails j.fetched (s3.chainRun q d))

/-- The partition's jobs are discarded at its reset (R276). -/
def State.solDiscard (s : State) (p : Nat) : State :=
  let mine (j : SolJob) : Bool := s.qPart (solQ j.queue) == p
  let s1 := s.mSol fun x => { x with susp := x.susp.filter fun j => !mine j }
  match s1.sol.run with
  | some j => if mine j then s1.setRun none else s1.solShow
  | none => s1.solShow

end Sys2Proof.Machine
end

