-- ==== Sys2Proof/Machine/ControlLaw.lean ====
section
/-! DEFINITION. The channel law of the control engine, on plain numbers: scaling, sections, PID, limits, ramp, plant model, output
conversion and test signals (R285 to R289, R310 to R313, R316).  Each function that saturates gives the number of saturations
beside its result. -/

namespace Sys2Proof.Machine

/-- Privileged channels work in Q31, standard ones in Q15. -/
def chPriv (h : Nat) : Bool := decide (56 ≤ h)
def chWidth (h : Nat) : Nat := if chPriv h then 31 else 15

/-- Saturate to the range of Q(w), counting a saturation that changes the value. -/
def satQ (w : Nat) (v : Int) : Rnd :=
  let y := clampInt (-(2 ^ w)) (2 ^ w - 1) v
  (y, if y = v then 0 else 1)

/-- Word i of the active parameter set, and its value (R290). -/
def ChanSt.word (c : ChanSt) (i : Nat) : Nat := (c.active.getD i 0).toNat
def ChanSt.param (c : ChanSt) (i : Nat) : Int := toSigned 32 (c.word i)
/-- A parameter that is Q15 in [15:0] for both classes (words 38 to 45). -/
def ChanSt.q15 (c : ChanSt) (i : Nat) : Int := toSigned 16 (c.word i)
/-- The shift s_k of a privileged coefficient. -/
def ChanSt.shift (c : ChanSt) (k : Nat) : Nat := bits (c.word (46 + k / 8)) (4 * (k % 8) + 3) (4 * (k % 8))

/-- Scaled feedback or set-point: sat_F(rne((raw - OFF) x GAIN / 2^SH)), words g, g + 1, g + 2 (R285, R291). -/
def ChanSt.scaled (c : ChanSt) (w g : Nat) (raw : Int) : Rnd :=
  satQ w (rneQuot (toSigned 32 (ofSigned 32 (raw - c.param (g + 1))) * c.param g) (2 ^ bits (c.word (g + 2)) 5 0))

/-- One section (R286): output, saturations, next state. -/
def sectionRun (priv : Bool) (c : ChanSt) (i : Nat) (x : Int) (t : SecSt) : Int × Nat × SecSt :=
  let b (k : Nat) : Int := c.param (5 * i + k) * (if priv then 2 ^ c.shift (5 * i + k) else 1)
  let acc := b 0 * x + b 1 * t.x1 + b 2 * t.x2 - b 3 * t.y1 - b 4 * t.y2
  let (y, n) := if priv then satQ 31 (rneQuot acc (2 ^ 31))
    else satQ 15 (rneQuot (acc * 2 ^ bits (c.word 46) (2 * i + 1) (2 * i)) (2 ^ 15))
  (y, n, ⟨x, t.x1, y, t.y1⟩)

/-- The enabled sections in order; the others pass through. -/
def sectionsRun (priv : Bool) (c : ChanSt) (nsec : Nat) : Nat → Int → List SecSt → Int × Nat × List SecSt
  | _, x, [] => (x, 0, [])
  | i, x, t :: ts =>
    if nsec ≤ i then (x, 0, t :: ts)
    else
      let (y, n, t') := sectionRun priv c i x t
      let (z, m, ts') := sectionsRun priv c nsec (i + 1) y ts
      (z, n + m, t' :: ts')

/-- The PID stage (R287): u, I, saturations. -/
def pidRun (priv : Bool) (c : ChanSt) (l : LawSt) (v : Int) : Int × Int × Nat :=
  let psh := bits (c.word 46) 11 8
  let inc := if priv then rneQuot (c.param 21 * v * 2 ^ c.shift 21) (2 ^ 15) else c.param 21 * v * 2 ^ (psh + 1)
  let skip := decide (l.lim ≠ 0 ∧ 0 < inc * l.lim)
  let i1 := if skip then l.i else clampInt (c.param 23 * 2 ^ 16) (c.param 24 * 2 ^ 16) (l.i + inc)
  let n1 := if skip ∨ i1 = l.i + inc then 0 else 1
  let (u, n2) := if priv then
      satQ 31 (rneQuot (c.param 20 * v * 2 ^ c.shift 20 + c.param 22 * (v - l.vp) * 2 ^ c.shift 22 + i1 * 2 ^ 15) (2 ^ 31))
    else satQ 15 (rneQuot ((c.param 20 * v + c.param 22 * (v - l.vp)) * 2 ^ (psh + 1) + i1) (2 ^ 16))
  (u, i1, n1 + n2)

/-- The next ramped set-point (R288, R311). -/
def rampRun (c : ChanSt) (against : Bool) (r sp : Int) : Int :=
  let step := if against ∧ r * sp < 0 ∧ c.param 29 ≠ 0 then c.param 29 else c.param 28
  if step = 0 then sp else r + clampInt (-step) step (sp - r)

/-- A value of the channel's format in Q15 (R313). -/
def toQ15 (priv : Bool) (x : Int) : Int := if priv then (satQ 15 (rneQuot x (2 ^ 16))).1 else x

/-- The states at the first update after START (R310, R312, R313), and the saturations of I. -/
def startLaw (priv fs : Bool) (c : ChanSt) (fbq d0 : Int) : LawSt × Nat :=
  let y := toQ15 priv fbq
  if fs then
    let i := clampInt (c.param 23 * 2 ^ 16) (c.param 24 * 2 ^ 16) (d0 * 2 ^ 16)
    ({ lawZero with r := fbq, i := i, uPrev := d0, yh1 := y, yh2 := y, u1 := toQ15 priv d0, u2 := toQ15 priv d0 },
      if i = d0 * 2 ^ 16 then 0 else 1)
  else ({ lawZero with yh1 := y, yh2 := y }, 0)

/-- What an update computes: the states after it, saturations, and the signals of R317. -/
structure LawOut where
  law : LawSt
  sats : Nat
  e : Int
  v : Int
  uo : Int
  deriving DecidableEq, Repr

/-- The plant model (R313): yh, rf, saturations. -/
def modelRun (c : ChanSt) (priv order : Bool) (l : LawSt) (fbq : Int) : Int × Int × Nat :=
  let msh := if priv then bits (c.word 48) 31 28 else bits (c.word 46) 13 12
  let c2 := if order then c.q15 39 * l.yh2 else 0
  let d1 := if order then c.q15 41 * l.u2 else 0
  let (yh, n1) := satQ 15 (rneQuot ((c.q15 38 * l.yh1 + c2 + c.q15 40 * l.u1 + d1 + c.q15 42 * l.r1) * 2 ^ msh) (2 ^ 15))
  let (res, n2) := satQ 15 (toQ15 priv fbq - yh)
  let a : Int := min (res.natAbs : Int) 32767
  (yh, l.rf + rneQuot (c.q15 43 * (a - l.rf)) (2 ^ 15), n1 + n2)

/-- One update of a channel from its states l (R285 to R288, R313): the ramp already taken, `injR` and `injU` what the test
generators add at the set-point and at the output. -/
def lawRun (h : Nat) (c : ChanSt) (nsec : Nat) (wrap model order : Bool) (l : LawSt) (r fbq injR injU : Int) : LawOut :=
  let priv := chPriv h
  let w := chWidth h
  let (rj, n0) := satQ w (r + injR)
  let (e, n1) := if wrap then (toSigned (w + 1) (ofSigned (w + 1) (rj - fbq)), 0) else satQ w (rj - fbq)
  let (v, n2, sec) := sectionsRun priv c nsec 0 e l.sec
  let (u, i, n3) := pidRun priv c l v
  let (uj, n4) := satQ w (u + injU)
  let slew := c.param 25
  let us := if slew = 0 then uj else l.uPrev + clampInt (-slew) slew (uj - l.uPrev)
  let uo := clampInt (c.param 26) (c.param 27) us
  let lim : Int := if uo = uj then 0 else if uo < uj then 1 else -1
  let l1 := { l with sec := sec, i := i, uPrev := uo, vp := v, r := r, lim := lim }
  if model then
    let (yh, rf, n5) := modelRun c priv order l fbq
    ⟨{ l1 with yh1 := yh, yh2 := l.yh1, u1 := toQ15 priv uo, u2 := l.u1, r1 := (satQ 15 (toQ15 priv fbq - yh)).1, rf := rf },
      n0 + n1 + n2 + n3 + n4 + n5, e, v, uo⟩
  else ⟨l1, n0 + n1 + n2 + n3 + n4, e, v, uo⟩

/-- The compare value of an output (R289), in 1/16 counts. -/
def cmpOf (omap w period : Nat) (uo : Int) : Nat :=
  let full : Int := period * 16
  let x := if omap = 1 then rneQuot ((uo + 2 ^ w) * full) (2 ^ (w + 1)) else rneQuot (max 0 uo * full) (2 ^ w)
  (clampInt 0 full x).toNat

/-! ### Test signals (R316) -/

/-- A quarter of T: round(32,767 x sin(2 pi i / 1,024)) for i from 0 to 256. -/
def sineQuarter : List Int :=
  [0, 201, 402, 603, 804, 1005, 1206, 1407, 1608, 1809, 2009, 2210, 2410, 2611, 2811, 3012, 3212, 3412, 3612, 3811, 4011, 4210, 4410, 4609] ++
  [4808, 5007, 5205, 5404, 5602, 5800, 5998, 6195, 6393, 6590, 6786, 6983, 7179, 7375, 7571, 7767, 7962, 8157, 8351, 8545, 8739, 8933, 9126, 9319] ++
  [9512, 9704, 9896, 10087, 10278, 10469, 10659, 10849, 11039, 11228, 11417, 11605, 11793, 11980, 12167, 12353, 12539, 12725, 12910, 13094, 13279, 13462, 13645, 13828] ++
  [14010, 14191, 14372, 14553, 14732, 14912, 15090, 15269, 15446, 15623, 15800, 15976, 16151, 16325, 16499, 16673, 16846, 17018, 17189, 17360, 17530, 17700, 17869, 18037] ++
  [18204, 18371, 18537, 18703, 18868, 19032, 19195, 19357, 19519, 19680, 19841, 20000, 20159, 20317, 20475, 20631, 20787, 20942, 21096, 21250, 21403, 21554, 21705, 21856] ++
  [22005, 22154, 22301, 22448, 22594, 22739, 22884, 23027, 23170, 23311, 23452, 23592, 23731, 23870, 24007, 24143, 24279, 24413, 24547, 24680, 24811, 24942, 25072, 25201] ++
  [25329, 25456, 25582, 25708, 25832, 25955, 26077, 26198, 26319, 26438, 26556, 26674, 26790, 26905, 27019, 27133, 27245, 27356, 27466, 27575, 27683, 27790, 27896, 28001] ++
  [28105, 28208, 28310, 28411, 28510, 28609, 28706, 28803, 28898, 28992, 29085, 29177, 29268, 29358, 29447, 29534, 29621, 29706, 29791, 29874, 29956, 30037, 30117, 30195] ++
  [30273, 30349, 30424, 30498, 30571, 30643, 30714, 30783, 30852, 30919, 30985, 31050, 31113, 31176, 31237, 31297, 31356, 31414, 31470, 31526, 31580, 31633, 31685, 31736] ++
  [31785, 31833, 31880, 31926, 31971, 32014, 32057, 32098, 32137, 32176, 32213, 32250, 32285, 32318, 32351, 32382, 32412, 32441, 32469, 32495, 32521, 32545, 32567, 32589] ++
  [32609, 32628, 32646, 32663, 32678, 32692, 32705, 32717, 32728, 32737, 32745, 32752, 32757, 32761, 32765, 32766, 32767]

/-- T[i]. -/
def sineT (i : Nat) : Int :=
  let j := i % 1024
  let q (k : Nat) : Int := sineQuarter.getD k 0
  if j ≤ 256 then q j else if j ≤ 512 then q (512 - j) else if j ≤ 768 then -(q (j - 512)) else -(q (1024 - j))

/-- The chirp's value at a phase. -/
def chirpAt (amp : Int) (phase : Nat) : Int :=
  let i := phase / 2 ^ 22
  let s := sineT i + rneQuot ((sineT (i + 1) - sineT i) * (phase % 2 ^ 22 : Nat)) (2 ^ 22)
  rneQuot (amp * s) (2 ^ 15)

/-- The chirp's increment at update k. -/
def chirpInc (f0 f1 k len : Nat) : Nat := ofSigned 32 (f0 + rneQuot (((f1 : Int) - f0) * k) (max len 1))

end Sys2Proof.Machine
end

