-- ==== Sys2Proof/Machine/Control.lean ====
section
/-! DEFINITION. The control engine's channels: triggers, law units, updates, trajectory tables, commands, PWM pairs, test
generators and capture units (R279 to R293, R302 to R318). -/

namespace Sys2Proof.Machine

/-- CTL sets an event bit. -/
def State.ctlEvent (s : State) (f : Fld) : State := s.wr f 1

/-- CLK_CTL cycles as counts of the time counter (2 ns each). -/
def ctlCycles (n : Nat) : Nat := 2 * n

/-- n counts or more have passed since count c. -/
def State.passed (s : State) (c n : Nat) : Bool := decide (n ≤ (s.now + 2 ^ 64 - c) % 2 ^ 64)

def State.chOn (s : State) (h : Nat) : Bool := s.on (CTL_CH_CFG_EN h)
def State.chState (s : State) (h : Nat) : Nat := s.rd (CTL_CH_STATUS_STATE h)
def State.chOwner (s : State) (h : Nat) : Nat := s.rd (CTL_CH_CFG_OWNER h)

/-- Count saturations of a channel (R285). -/
def State.chSat (s : State) (h n : Nat) : State :=
  if n = 0 then s else (s.wr (CTL_CH_STATUS_SAT h) 1).bumpBy (CTL_CH_CNT_SAT h) n

/-! ### Feedback (R293, Feedback inputs) -/

/-- The faults of a channel's feedback input now shown (R293): a fault bit that stands is a fault. -/
def State.fbFault (s : State) (h : Nat) : Bool :=
  let n := s.rd (CTL_CH_SRC_FBIDX h)
  match s.rd (CTL_CH_SRC_FBSRC h) with
  | 0 => s.on (CTL_QEI_STAT_PHASE_ERR n)
  | 1 => s.on (CTL_QEI_STAT_PHASE_ERR n)
  | 2 => s.on (CTL_SDM_STAT_CLK_LOST n) || s.on (CTL_SDM_STAT_STUCK n)
  | 3 => s.on (CTL_PCAP_STAT_NOEDGE n)
  | _ => s.on (CTL_ENC_STAT_PAR n) || s.on (CTL_ENC_STAT_LINE n) || s.on (CTL_ENC_STAT_SBERR n)

def encReset : Nat → EncSt := fun _ => ⟨false, false, false, 0⟩
def State.enc (s : State) (n : Nat) : EncSt := mget encReset s.ctl.enc n
def State.setEnc (s : State) (n : Nat) (v : EncSt) : State := s.mCtl fun y => { y with enc := mset encReset y.enc n v }

/-- fb_raw of a source (table of feedback sources). -/
def State.fbRaw (s : State) (src n : Nat) : Int :=
  match src with
  | 0 => toSigned 32 (s.rd (CTL_QEI_POS_VALUE n))
  | 1 => toSigned 32 (s.rd (CTL_QEI_VEL_VALUE n))
  | 2 => toSigned 32 (s.rd (CTL_SDM_VAL_VAL n))
  | 3 => toSigned 32 (s.rd (CTL_PCAP_VAL_VAL n))
  | 4 => toSigned 32 (s.rd (CTL_ENC_POS_POS n))
  | _ => (s.enc n).vel

/-- The set-point source value latched at a trigger; a trajectory's is worked out in the update (R291). -/
def State.spRaw (s : State) (h : Nat) : Int :=
  let n := s.rd (CTL_CH_SRC_SPIDX h)
  match s.rd (CTL_CH_SRC_SPSRC h) with
  | 0 => toSigned (chWidth h + 1) (s.rd (CTL_CH_SP_VALUE h))
  | 2 => toSigned 32 (s.rd (CTL_SDM_VAL_VAL n))
  | 3 => toSigned 32 (s.rd (CTL_PCAP_VAL_VAL n))
  | _ => 0

/-- A feedback-ready event of input n of kind k (0 QEI, 2 SDM, 3 PCAP, 4 ENC) triggers the channels that use it. -/
def State.fbReady (s : State) (kind n : Nat) : State :=
  (List.range 64).foldl (fun a h =>
    let src := a.rd (CTL_CH_SRC_FBSRC h)
    let k := if src = 1 then 0 else if src = 5 then 4 else src
    if a.chOn h && a.rd (CTL_CH_CFG_TRIG h) == 8 && k == kind && a.rd (CTL_CH_SRC_FBIDX h) == n then
      a.setChan h { a.chan h with trig := some a.stamp }
    else a) s

/-! ### Output (R289, R302 to R305) -/

/-- Convert an output and load the compare shadow of the channel's pair. -/
def State.loadShadow (s : State) (h : Nat) (uo : Int) : State :=
  match s.pairOf h with
  | some p => s.setPwm p { s.pwm p with
      shadow := cmpOf (s.rd (CTL_CH_SRC_OMAP h)) (chWidth h) (s.rd (CTL_PWM_CFG_PERIOD p)) uo }
  | none => s

/-- The enabled channels that drive a pair. -/
def State.pairChans (s : State) (p : Nat) : List Nat := (List.range 64).filter fun h => s.chOn h && s.pairOf h == some p

/-- What a pair's pins show. -/
inductive PairShow where
  | highZ
  | pattern (code : Nat)
  | pwm
  deriving DecidableEq, Repr

/-- What a pair shows (R304): a channel that runs, or that tripped with HOLD or RAMP, keeps its PWM. -/
def State.pairShow (s : State) (p : Nat) : PairShow :=
  let pat (c : Nat) : PairShow := if c = 3 then .highZ else .pattern c
  if ¬ s.on (CTL_PWM_CFG_OE p) then .highZ
  else if s.pairForced p then pat (s.rd (CTL_PWM_CFG_SAFEPAT p))
  else if (s.pairChans p).any (fun h => s.chState h == chRun || (s.chState h == chTripped && (s.chan h).action != 2)) then .pwm
  else pat (s.rd (CTL_PWM_CFG_IDLEPAT p))

/-- PWM_COMPARE_LOAD (R302, R303): the counter of a pair is at 0, or at PERIOD.  A side's pulse of the period that begins is
its share less its dead time; one shorter than MIN is not output. -/
def execPwmCompareLoad (p : Fin 24) (top : Bool) (s : State) : Out :=
  if top ∧ ¬ (s.on (CTL_PWM_CFG_LOAD p) ∧ s.on (CTL_PWM_CFG_MODE p)) then .next s
  else
    let x := s.pwm p
    let k := if s.on (CTL_PWM_CFG_MODE p) then 2 else 1
    let full := 16 * s.rd (CTL_PWM_CFG_PERIOD p)
    let short (share dt : Nat) : Bool := share != 0 && share != k * full && decide (share - dt < s.rd (CTL_PWM_MIN_MIN p))
    let dh := short (k * x.shadow) (s.rd (CTL_PWM_DT_DTH p))
    let dl := short (k * (full - x.shadow)) (s.rd (CTL_PWM_DT_DTL p))
    let s1 := (s.wr (CTL_PWM_CMP_CMP p) x.shadow).setPwm p { x with dropH := dh, dropL := dl }
    .next (if dh ∨ dl then s1.wr (CTL_PWM_STAT_PULSE_DROP p) 1 else s1)

/-! ### Triggers (R281, R282) -/

def State.cycNext (s : State) (k : Nat) : Nat := mget (fun _ => 0) s.ctl.cyc k

/-- NEXT of a cycle timer advances past what has passed (R221, R281). -/
def State.cycSkip (s : State) (k next c : Nat) : State :=
  let put (n : Nat) : State := s.mCtl fun y => { y with cyc := mset (fun _ => 0) y.cyc k n }
  let per := max (s.rd (CTL_CYC_PERIOD_PERIOD k)) 1
  let r := s.timeAt (s.rd (CTL_CYC_CFG_TS k)) c
  if r ≤ next then put next
  else
    let m := ceilDiv (r - next) per
    ((put (next + m * per)).bumpBy (CTL_CYC_STAT_SKIPPED k) m).ctlEvent CTL_EVENT_SKIPPED

/-- CYCLE_TIMER_TRIGGER (R281, R296, R299): channels on the timer see the trigger, encoder ports start their reads. -/
def execCycleTimerTrigger (k : Fin 8) (s : State) : Out :=
  let c := s.stamp
  if s.on (CTL_CYC_CFG_EN k) ∧ s.cycNext k ≤ s.timeAt (s.rd (CTL_CYC_CFG_TS k)) c then
    let s1 := s.cycSkip k (s.cycNext k + s.rd (CTL_CYC_PERIOD_PERIOD k)) c
    let s2 := (List.range 64).foldl (fun a h =>
      if a.chOn h && a.rd (CTL_CH_CFG_TRIG h) == k.val then a.setChan h { a.chan h with trig := some c } else a) s1
    .next ((List.range 8).foldl (fun a n =>
      if a.on (CTL_ENC_CFG_EN n) && a.rd (CTL_ENC_CFG_TRIG n) == k.val then a.setEnc n { a.enc n with due := true } else a) s2)
  else .next s

/-- CHANNEL_TRIGGER (R282, R307). -/
def execChannelTrigger (h : Fin 64) (s : State) : Out :=
  let c := s.chan h
  match c.trig with
  | none => .next s
  | some tick =>
    let s0 := s.setChan h { c with trig := none, div := (c.div + 1) % (s.rd (CTL_CH_NOTE_TDIV h) + 1) }
    if ¬ s.chOn h ∨ c.div < s.rd (CTL_CH_NOTE_TDIV h) then .next s0
    else
      let early := match c.acc with
        | some a => decide ((tick + 2 ^ 64 - a) % 2 ^ 64 < 5000)
        | none => false
      if early then
        let s1 := (s0.bump (CTL_CH_CNT_OVERRUN h)).ctlEvent CTL_EVENT_OVERRUN
        .next (if s1.on (CTL_CH_CFG_OVR_ACT h) then s1.tripCh h tcOverrun else s1)
      else
        let fault := s.fbFault h
        let fb := if fault then c.fb else s.fbRaw (s.rd (CTL_CH_SRC_FBSRC h)) (s.rd (CTL_CH_SRC_FBIDX h))
        let c1 : ChanSt := { s0.chan h with acc := some tick, fb := fb }
        let s1 := s0.setChan h c1
        match s.chState h with
        | 2 =>
          let q : CtlReq := ⟨tick, s.timeAt (s.rd (CTL_CH_TRAJ_TS h)) tick, fb, s.spRaw h⟩
          let s2 := s1.setChan h { c1 with req := some q }
          if fault then
            let s3 := (s2.wr (CTL_CH_STATUS_FBFLAG h) 1).ctlEvent CTL_EVENT_FBF
            .next (if s3.on (CTL_CH_CFG_FBF_ACT h) then s3.tripCh h tcFbf else s3)
          else .next s2
        | 3 =>
          let s2 := s1.setChan h { c1 with refresh := true }
          if c.action = 1 then
            let st := c.param 31
            let u := c.law.uPrev - clampInt (-st) st c.law.uPrev
            .next ((((s2.setChan h { s2.chan h with law := { c.law with uPrev := u } }).wr (CTL_CH_OUT_VALUE h)
              (ofSigned 32 u))).loadShadow h u)
          else .next s2
        | _ => .next (s1.setChan h { c1 with refresh := true })

/-! ### Law units (R283, R284) -/

/-- The law units of a channel. -/
def State.unitsOf (s : State) (h : Nat) : List Nat :=
  let u := s.rd (CTL_CH_CFG_LU h)
  if chPriv h then [2 * (u % 2), 2 * (u % 2) + 1] else [u]

/-- BOUND of each law unit (R284). -/
def State.luBounds (s : State) : State :=
  (List.range 4).foldl (fun a u =>
    a.wr (CTL_LU_STAT_BOUND u) ((List.range 64).filter fun h => a.chOn h && (a.unitsOf h).contains u).length) s

/-- A law unit may start: 8 CLK_CTL cycles have passed since its last start. -/
def State.unitFree (s : State) (u : Nat) : Bool :=
  match mget (fun _ => none) s.ctl.lu u with
  | some c => s.passed c (ctlCycles 8)
  | none => true

/-- The request a unit serves next: privileged first, then by TICK, then by channel. -/
def State.pickReq (s : State) (u : Nat) : Option (Nat × CtlReq) :=
  let l := (List.range 64).filterMap fun h => match (s.chan h).req with
    | some r => if (s.unitsOf h).contains u then some (h, r) else none
    | none => none
  l.foldl (fun b x => match b with
    | none => some x
    | some y =>
      let key (z : Nat × CtlReq) : Nat := (if chPriv z.1 then 0 else 2 ^ 64) + z.2.tick
      if key x < key y then some x else some y) none

/-- LAW_UPDATE_START (R283, R284, R290). -/
def execLawUpdateStart (u : Fin 4) (s : State) : Out :=
  match s.pickReq u with
  | none => .next s
  | some (h, r) =>
    let us := s.unitsOf h
    if us.all (fun v => s.unitFree v) ∧ (s.chan h).run.isNone then
      let wait := (s.now + 2 ^ 64 - r.tick) % 2 ^ 64 / 2
      let c := s.chan h
      let s1 := s.setChan h { c with req := none, run := some (r, s.now), active := c.commit.getD c.active, commit := none }
      .next (us.foldl (fun a v => (a.mCtl fun y => { y with lu := mset (fun _ => none) y.lu v (some s.now) }).wr
        (CTL_LU_STAT_MAXWAIT v) (max (a.rd (CTL_LU_STAT_MAXWAIT v)) (min wait 511))) s1)
    else .next s

/-! ### Trajectory tables (R292, R293) -/

/-- Entry number n of the channel's prefetched window, where it is there and lies below WIDX. -/
def ChanSt.entry (c : ChanSt) (n : Nat) : Option TrajEnt :=
  let k := (n + 2 ^ 32 - c.base) % 2 ^ 32
  if k < 8 ∧ (n + 2 ^ 32 - c.ridx) % 2 ^ 32 < (c.widx + 2 ^ 32 - c.ridx) % 2 ^ 32 then c.ents[k]? else none

/-- RIDX after its advance at cycle time t. -/
def ChanSt.advance (c : ChanSt) (t : Nat) : Nat → Nat → Nat
  | 0, r => r
  | k + 1, r => match c.entry ((r + 1) % 2 ^ 32) with
    | some e => if e.time ≤ t ∧ ¬ e.pois then c.advance t k ((r + 1) % 2 ^ 32) else r
    | none => r

/-- What a trajectory gives at cycle time t: RIDX, the value in Q31, or an underrun, or poison. -/
inductive TrajRes where
  | value (ridx : Nat) (v : Int)
  | under (ridx : Nat)
  | poison (ridx : Nat)
  deriving DecidableEq, Repr

/-- R293. -/
def ChanSt.traj (c : ChanSt) (t : Nat) : TrajRes :=
  let r := c.advance t 8 c.ridx
  match c.entry r, c.entry ((r + 1) % 2 ^ 32) with
  | some e0, some e1 =>
    if e0.pois ∨ e1.pois then .poison r
    else if e0.step ∨ t < e0.time ∨ e1.time ≤ e0.time then .value r e0.value
    else .value r (e0.value + rneQuot ((e1.value - e0.value) * (t - e0.time : Nat)) (e1.time - e0.time))
  | some e0, none => if e0.pois then .poison r else .under r
  | none, _ => .under r

/-! ### Test generators (R316) -/

/-- What a running generator adds to an update of its channel, and its state after it. -/
def State.injAt (s : State) (g h : Nat) : Int × State :=
  let (k, ph) := mget (fun _ => (0, 0)) s.ctl.inj g
  let a31 := toSigned 32 (s.rd (CTL_INJ_AMP_VALUE g))
  let amp := if chPriv h then a31 else rneQuot a31 (2 ^ 16)
  let len := s.rd (CTL_INJ_LEN_VALUE g)
  let ph' := (ph + chirpInc (s.rd (CTL_INJ_F0_VALUE g)) (s.rd (CTL_INJ_F1_VALUE g)) k len) % 2 ^ 32
  let (v, ph2) : Int × Nat := match s.rd (CTL_INJ_CFG_KIND g) with
    | 0 => (if Config.prbs15 (s.rd (CTL_INJ_SEED_SEED g)) (k / (s.rd (CTL_INJ_CFG_HOLD g) + 1)) then amp else -amp, ph)
    | 1 => (chirpAt amp ph', ph')
    | _ => (amp, ph)
  let s1 := s.mCtl fun y => { y with inj := mset (fun _ => (0, 0)) y.inj g (k + 1, ph2) }
  (v, if len ≠ 0 ∧ len ≤ k + 1 then s1.wr (CTL_INJ_CFG_EN g) 0 else s1)

/-- The sum the generators add to channel h at a point. -/
def State.injSum (s : State) (h point : Nat) : Int × State :=
  (List.range 4).foldl (fun (acc : Int × State) g =>
    if acc.2.on (CTL_INJ_CFG_EN g) && acc.2.rd (CTL_INJ_CFG_CH g) == h && acc.2.rd (CTL_INJ_CFG_POINT g) == point then
      let r := acc.2.injAt g h
      (acc.1 + r.1, r.2)
    else acc) (0, s)

/-! ### Capture (R317) -/

/-- An isolation violation of a channel at run time (R280). -/
def State.chIso (s : State) (h a : Nat) : State :=
  ((s.partFault (s.chOwner h) kIsolation srcCtl s.ownChip a).ctlEvent CTL_EVENT_POISON).tripCh h tcPoison

/-- Capture unit c sees an update of its channel with these ten signals. -/
def State.capSample (s : State) (c h : Nat) (sig : Nat → Int) : State :=
  let x := s.cap c
  if ¬ s.on (CTL_CAP_CFG_GO c) ∨ s.rd (CTL_CAP_CFG_CH c) ≠ h ∨ x.left = some 0 then s
  else if x.cnt < s.rd (CTL_CAP_DEC_DEC c) then s.setCap c { x with cnt := x.cnt + 1 }
  else
    let a := s.rd (CTL_CAP_BASE_BASE c) + x.total % s.rd (CTL_CAP_NSAMP_NSAMP c) * 16
    let sels := [s.rd (CTL_CAP_CFG_SEL0 c), s.rd (CTL_CAP_CFG_SEL1 c), s.rd (CTL_CAP_CFG_SEL2 c), s.rd (CTL_CAP_CFG_SEL3 c)]
    if s.tunOwned (s.chOwner h) a 16 then
      (s.blkWrite a (sels.flatMap fun k => leBytes 4 (ofSigned 32 (sig k)))).setCap c
        ⟨0, x.total + 1, x.left.map (· - 1)⟩
    else s.chIso h a

/-- CAPTURE_DONE (R317): the samples after the trigger are taken. -/
def execCaptureDone (c : Fin 4) (s : State) : Out :=
  let x := s.cap c
  if s.on (CTL_CAP_CFG_GO c) ∧ x.left = some 0 then
    let n := s.rd (CTL_CAP_NSAMP_NSAMP c)
    let s1 := (((s.wr (CTL_CAP_STAT_DONE c) 1).wr (CTL_CAP_STAT_FIRST c) (if x.total < n then 0 else x.total % n)).wr
      (CTL_CAP_CFG_GO c) 0).ctlEvent CTL_EVENT_CAP_DONE
    .next (if s1.on (CTL_CAP_NOTE_EN c) then
      s1.notify srcCtl (s1.chOwner (s1.rd (CTL_CAP_CFG_CH c))) (s1.rd (CTL_CAP_NOTE_CORE c)) (s1.rd (CTL_CAP_NOTE_CNT c)) 1
      else s1)
  else .next s

/-! ### The update (R285 to R293, R310 to R315) -/

/-- The set-point of an update: value, causes it raises, and the state. -/
def State.setPoint (s : State) (h : Nat) (r : CtlReq) : Int × Nat × State :=
  let c := s.chan h
  match s.rd (CTL_CH_SRC_SPSRC h) with
  | 0 => (r.sp, 0, s)
  | 1 =>
    let put (ridx : Nat) (v : Int) : State := s.setChan h { c with ridx := ridx, spLast := v }
    match c.traj r.t with
    | .value ridx v =>
      let sp := if chPriv h then v else rneQuot v (2 ^ 16)
      (sp, 0, put ridx sp)
    | .under ridx =>
      (c.spLast, if s.on (CTL_CH_CFG_TRAJ_ACT h) then tcTraj else 0,
        ((put ridx c.spLast).wr (CTL_CH_STATUS_UNDER h) 1).ctlEvent CTL_EVENT_TRAJ_UNDER)
    | .poison ridx =>
      (c.spLast, tcPoison, ((put ridx c.spLast).ctlEvent CTL_EVENT_POISON).bite (s.chOwner h) srcCtl (s.rd (CTL_CH_TRAJ_ADDR h)))
  | _ =>
    let (v, n) := c.scaled (chWidth h) 35 r.sp
    (v, 0, s.chSat h n)

/-- The drive a start takes over (R310): the output of the previous update while the channel still drives its pair. -/
def State.startDrive (s : State) (h : Nat) : Int :=
  let c := s.chan h
  match c.stopAt with
  | some t => if s.passed t (ctlCycles 4) then c.param 30 else c.law.uPrev
  | none => c.param 30

/-- An update whose inputs are set: its effect, `differ` where the two units of a privileged channel disagree. -/
def State.update (s : State) (h : Nat) (r : CtlReq) (differ : Bool) : State :=
  let (sp, causes, s1) := s.setPoint h r
  let c := s1.chan h
  let w := chWidth h
  let (fbq, n1) := c.scaled w 32 r.fb
  let fs := s.on (CTL_CH_CFG_FS_EN h)
  let (l0, n2) := if c.first then startLaw (chPriv h) fs c fbq (s1.startDrive h) else (c.law, 0)
  let against := if c.first then decide (fbq * sp < 0) else c.against && decide (l0.r * sp < 0)
  let rr := if c.first then l0.r else rampRun c against l0.r sp
  let (injR, s2) := s1.injSum h 0
  let (injU, s3) := s2.injSum h 1
  let o := lawRun h c (s.rd (CTL_CH_CFG_NSEC h)) (s.on (CTL_CH_CFG_WRAP h)) (s.on (CTL_CH_CFG_MODEL h))
    (s.on (CTL_CH_CFG_ORDER h)) l0 rr fbq injR injU
  let model := s.on (CTL_CH_CFG_MODEL h)
  let warn := model && decide (c.q15 44 ≤ o.law.rf) && decide (l0.rf < c.q15 44)
  let plaus := if model && decide (c.q15 45 ≤ o.law.rf) then tcPlaus else 0
  let dup := if differ && chPriv h then tcDup else 0
  let mask := causes ||| plaus ||| dup
  let s4 := s3.chSat h (n1 + n2 + o.sats)
  let s5 := if model then (s4.wr (CTL_CH_RESID_YH h) (ofSigned 16 o.law.yh1)).wr (CTL_CH_RESID_RF h) (ofSigned 16 o.law.rf) else s4
  let s6 := if warn then (s5.wr (CTL_CH_STATUS_WARN h) 1).ctlEvent CTL_EVENT_WARN else s5
  let s7 := if c.first && against then s6.wr (CTL_CH_STATUS_START_AGAINST h) 1 else s6
  let s8 := s7.setChan h { s7.chan h with run := none, refresh := true }
  if mask ≠ 0 then
    let s9 := if dup ≠ 0 then s8.ctlEvent CTL_EVENT_DUP else s8
    let s10 := s9.tripCh h mask
    if dup ≠ 0 ∧ s10.classOf (s10.chOwner h) = 0 then s10.cause 4 (s10.chOwner h) srcCtl h else s10
  else
    let s9 := (((s8.setChan h { s8.chan h with law := o.law, first := false, against := against }).wr
      (CTL_CH_OUT_VALUE h) (ofSigned 32 o.uo)).wr (CTL_CH_STATUS_LIMITED h) (b2n (o.law.lim != 0))).loadShadow h o.uo
    let sig (k : Nat) : Int := match k with
      | 0 => rr | 1 => fbq | 2 => o.e | 3 => o.v | 4 => if chPriv h then o.law.i / 2 ^ 16 else o.law.i
      | 5 => o.uo | 6 => o.law.yh1 | 7 => o.law.rf | 8 => injR + injU | _ => r.fb
    (List.range 4).foldl (fun a k => a.capSample k h sig) s9

/-- LAW_UPDATE_DONE (R285 to R289, R314, R315): an update leaves the pipeline 52 CLK_CTL cycles after its start (R37). -/
def execLawUpdateDone (h : Fin 64) (differ : Bool) (s : State) : Out :=
  match (s.chan h).run with
  | some (r, c0) => if s.chState h = chRun ∧ s.passed c0 (ctlCycles 52) then .next (s.update h r differ) else .next s
  | none => .next s

/-! ### Commands (R290, R306, R309, R312) -/

/-- Value words of the parameter block: F for words 0 to 31. -/
def paramOk (priv : Bool) (w : Nat → Nat) : Bool :=
  let v (i : Nat) : Int := toSigned 32 (w i)
  let f (i : Nat) : Bool := priv || decide (-(2 ^ 15) ≤ v i ∧ v i < 2 ^ 15)
  (List.range 32).all f && decide (v 23 ≤ v 24 ∧ 0 ≤ v 25 ∧ v 26 ≤ v 27 ∧ 0 ≤ v 28 ∧ 0 ≤ v 29 ∧ 0 < v 31) &&
    decide (bits (w 34) 5 0 ≤ 47 ∧ bits (w 37) 5 0 ≤ 47) &&
    decide (1 ≤ toSigned 16 (w 43) ∧ 0 < toSigned 16 (w 44) ∧ toSigned 16 (w 44) ≤ toSigned 16 (w 45)) &&
    (if priv then
      (List.range 23).all (fun k => decide (bits (w (46 + k / 8)) (4 * (k % 8) + 3) (4 * (k % 8)) ≤ 7)) &&
        decide (bits (w 48) 31 28 ≤ 2)
    else
      (List.range 4).all (fun i => decide (bits (w 46) (2 * i + 1) (2 * i) ≤ 2)) && decide (bits (w 46) 13 12 ≤ 2) &&
        w 47 == 0 && w 48 == 0) &&
    (List.range 15).all fun i => w (49 + i) == 0

/-- COMMIT (R290). -/
def State.commitCh (s : State) (h : Nat) : State :=
  let w (i : Nat) : Nat := s.rd (CTL_CH_PARAM_VALUE h i)
  if paramOk (chPriv h) w then
    s.setChan h { s.chan h with commit := some ((List.range 64).map fun i => BitVec.ofNat 32 (w i)) }
  else s.ctlEvent CTL_EVENT_CFG_ERR

/-- Position and velocity of a channel's feedback input (R309). -/
def State.fsCapture (s : State) (h : Nat) : Int × Int :=
  let src := s.rd (CTL_CH_SRC_FBSRC h)
  let n := s.rd (CTL_CH_SRC_FBIDX h)
  match src with
  | 0 => (s.fbRaw 0 n, s.fbRaw 1 n)
  | 1 => (s.fbRaw 0 n, s.fbRaw 1 n)
  | 4 => (s.fbRaw 4 n, s.fbRaw 5 n)
  | 5 => (s.fbRaw 4 n, s.fbRaw 5 n)
  | _ => (s.fbRaw src n, s.fbRaw src n)

def qeiReset : Nat → QeiSt := fun _ => ⟨false, false, false, 0, 0, 0⟩
def State.qei (s : State) (n : Nat) : QeiSt := mget qeiReset s.ctl.qei n
def State.setQei (s : State) (n : Nat) (v : QeiSt) : State := s.mCtl fun y => { y with qei := mset qeiReset y.qei n v }

/-- A running channel uses quadrature input n, or one of its compare units is armed (R301). -/
def State.qeiWatched (s : State) (n : Nat) : Bool :=
  (List.range 4).any (fun m => s.on (CTL_QEI_CMP_ARMED n m)) ||
    (List.range 64).any fun h => s.chState h == chRun && decide (s.rd (CTL_CH_SRC_FBSRC h) ≤ 1) && s.rd (CTL_CH_SRC_FBIDX h) == n

/-- Stillness is measured from now where nothing watched the input before (R301). -/
def State.watchQei (s t : State) (n : Nat) : State :=
  if s.qeiWatched n then t else t.setQei n { t.qei n with still := t.now }

/-- START, STOP and CLEAR (R306): 1, 2, 3; outside the states named they are ignored. -/
def State.chCommand (s : State) (h op : Nat) : State :=
  let c := s.chan h
  let st := s.chState h
  match op with
  | 1 =>
    if st = chIdle then
      let (pos, vel) := s.fsCapture h
      let s1 := (((s.wr (CTL_CH_STATUS_STATE h) chRun).wr (CTL_CH_FSPOS_VALUE h) (ofSigned 32 pos)).wr
        (CTL_CH_FSVEL_VALUE h) (ofSigned 32 vel)).setChan h { c with first := true, against := false }
      let s2 := s1.capFire 1 h
      if s.rd (CTL_CH_SRC_FBSRC h) ≤ 1 then s.watchQei s2 (s.rd (CTL_CH_SRC_FBIDX h)) else s2
    else s
  | 2 =>
    if st = chRun then
      (s.wr (CTL_CH_STATUS_STATE h) chIdle).setChan h { c with req := none, run := none, stopAt := match s.pairOf h with
          | some p => if s.pairShow p = .pwm then some s.now else none
          | none => none }
    else s
  | 3 =>
    if st = chTripped then
      let s1 := ((s.wr (CTL_CH_STATUS_STATE h) chIdle).wr (CTL_CH_STATUS_CAUSE h) 0).setChan h
        { c with law := lawZero, stopAt := none, action := 0 }
      match s1.pairOf h with
      | some p =>
        let held := (s1.pairChans p).any fun k => k != h && s1.chState k == chTripped && (s1.chan k).action == 2
        s1.setPwm p { s1.pwm p with safeCh := held }
      | none => s1
    else s
  | _ => s

/-- A write of CTL_CH_CMD: COMMIT, then OP. -/
def State.writeChCmd (s : State) (h v : Nat) : State :=
  (if bit v 2 then s.commitCh h else s).chCommand h (v % 4)

/-- A write of CTL_CH_CMD that a row names, by a test of its value. -/
def chCmdRow (req : Requester) (h v : Nat) (p : Bool) (s : State) : Out :=
  if p then .next (s.asWriter req (CTL_CH_CMD_OP h).off 4 fun a => a.writeChCmd h v) else .next s

/-- COMMIT (R290). -/
def execCommit (req : Requester) (h : Fin 64) (value : BitVec 32) (s : State) : Out :=
  chCmdRow req h value.toNat (bit value.toNat 2) s

/-- START (R306, R309 to R312). -/
def execStart (req : Requester) (h : Fin 64) (value : BitVec 32) (s : State) : Out :=
  chCmdRow req h value.toNat (value.toNat % 4 == 1) s

/-- STOP (R306). -/
def execStop (req : Requester) (h : Fin 64) (value : BitVec 32) (s : State) : Out :=
  chCmdRow req h value.toNat (value.toNat % 4 == 2) s

/-- CLEAR (R306). -/
def execClear (req : Requester) (h : Fin 64) (value : BitVec 32) (s : State) : Out :=
  chCmdRow req h value.toNat (value.toNat % 4 == 3) s

/-- TRAJ_REFRESH (R292): after an update, or at an accepted trigger of a channel that is not running. -/
def execTrajRefresh (h : Fin 64) (s : State) : Out :=
  let c := s.chan h
  let p := s.chOwner h
  let t := s.rd (CTL_CH_TRAJ_ADDR h)
  if ¬ (c.refresh ∧ s.chOn h ∧ s.rd (CTL_CH_SRC_SPSRC h) = 1) then .next s
  else
    let size := 64 + 16 * 2 ^ s.rd (CTL_CH_TRAJ_LOG2N h)
    let s0 := s.setChan h { c with refresh := false }
    if ¬ s.tunOwned p t size then .next (s0.chIso h t)
    else
      let (hd, s1) := s0.blkRead t 64
      if anyPois hd then
        .next (((s1.ctlEvent CTL_EVENT_POISON).tripCh h tcPoison).bite p srcCtl t)
      else
        let w := leNum hd
        let (ents, s2) := (List.range 8).foldl (fun (acc : List TrajEnt × State) k =>
          let a := t + 64 + (c.ridx + k) % 2 ^ s.rd (CTL_CH_TRAJ_LOG2N h) * 16
          let (b, u) := acc.2.blkRead a 16
          let v := leNum b
          (acc.1 ++ [⟨bits v 63 0, toSigned 32 (bits v 95 64), bit v 96, anyPois b⟩], u)) ([], s1)
        let s3 := s2.setChan h { s2.chan h with base := c.ridx, widx := rdWord w 0, ents := ents }
        let s4 := s3.blkWrite (t + 8) (leBytes 4 c.ridx ++ leBytes 4 c.seq ++ leBytes 4 (s3.word (CTL_CH_STATUS_STATE h).off))
        let cmd := rdWord w 4
        if cmd / 256 = c.seq then .next s4
        else .next ((s4.setChan h { s4.chan h with seq := cmd / 256 }).chCommand h (cmd % 4))

/-- A partition reset trips every enabled channel of the partition not already tripped (R308). -/
def State.ctlReset (s : State) (p : Nat) : State :=
  (List.range 64).foldl (fun a h =>
    if a.chOwner h = p ∧ a.chState h = chRun then a.tripCh h tcPart
    else if a.chOwner h = p ∧ a.chState h = chIdle then (a.wr (CTL_CH_STATUS_STATE h) chRun).tripCh h tcPart
    else a) s

end Sys2Proof.Machine
end

