-- ==== Sys2Proof/Machine/CtlInputs.lean ====
section
/-! DEFINITION. The control engine's inputs (quadrature, sigma-delta, pulse capture, absolute encoders) and the writes of its
registers (R279, R280, R294 to R301, R316 to R318). -/

namespace Sys2Proof.Machine

/-! ### Quadrature inputs (R294, R295, R300, R301) -/

/-- Fire the armed compare units of an input that the count from `old` to `new` crosses (R300). -/
def State.compareFire (s : State) (n old new : Nat) : State :=
  (List.range 4).foldl (fun a m =>
    let d (x : Nat) : Int := toSigned 32 (x + 2 ^ 32 - a.rd (CTL_QEI_TGT_TGT n m))
    let hit := if a.on (CTL_QEI_CMP_DIR n m) then decide (0 < d old ∧ d new ≤ 0) else decide (d old < 0 ∧ 0 ≤ d new)
    if a.on (CTL_QEI_CMP_ARMED n m) && hit then
      ((((a.wr (CTL_QEI_CMP_ARMED n m) 0).wr (CTL_QEI_CMP_FIRED n m) 1).raiseInt (80 + 4 * n + m) new)).capFire 3 (4 * n + m)
    else a) s

/-- QEI_COUNT (R294, R300, R301): the accepted levels of A and B become a and b.  A leading B counts up. -/
def execQeiCount (n : Fin 16) (a b : Bool) (s : State) : Out :=
  let q := s.qei n
  let s0 := s.setQei n { q with a := a, b := b }
  if ¬ s.on (CTL_QEI_CFG_EN n) ∨ (a = q.a ∧ b = q.b) then .next s0
  else if a ≠ q.a ∧ b ≠ q.b then .next ((s0.wr (CTL_QEI_STAT_PHASE_ERR n) 1).bump (CTL_QEI_STAT_PHASE_CNT n))
  else
    let up := (decide (a ≠ q.a) == decide (a ≠ b)) != s.on (CTL_QEI_CFG_DIR n)
    let old := s.rd (CTL_QEI_POS_VALUE n)
    let new := (if up then old + 1 else old + (2 ^ 32 - 1)) % 2 ^ 32
    let s1 := ((s0.wr (CTL_QEI_POS_VALUE n) new).wr (CTL_QEI_STAT_STALLED n) 0).setQei n { s0.qei n with still := s.now }
    .next (s1.compareFire n old new)

/-- QEI_INDEX (R295): an accepted edge of IDX. -/
def execQeiIndex (n : Fin 16) (rising : Bool) (s : State) : Out :=
  let q := s.qei n
  if s.on (CTL_QEI_CFG_EN n) ∧ rising ≠ s.on (CTL_QEI_CFG_IDXPOL n) ∧ (s.on (CTL_QEI_CFG_IDXGATE n) → q.a ∧ q.b) then
    let pos := s.rd (CTL_QEI_POS_VALUE n)
    let s1 := ((s.wr (CTL_QEI_IDXPOS_VALUE n) pos).wr (CTL_QEI_STAT_IDX n) 1).raise (64 + n) (if rising then 1 else 4) pos s.stamp
    let s2 := s1.setQei n { s1.qei n with seen := true }
    if s.rd (CTL_QEI_CFG_IDXRST n) = 2 ∨ (s.rd (CTL_QEI_CFG_IDXRST n) = 1 ∧ ¬ q.seen) then
      let s3 := s2.wr (CTL_QEI_POS_VALUE n) 0
      .next (if pos = 0 then s3 else (s3.wr (CTL_QEI_STAT_STALLED n) 0).setQei n { s3.qei n with still := s.now })
    else .next s2
  else .next s

/-- QEI_VELOCITY_WINDOW (R294). -/
def execQeiVelocityWindow (n : Fin 16) (s : State) : Out :=
  let q := s.qei n
  let len := 8 * 2 ^ s.rd (CTL_QEI_CFG_VW n)
  if s.on (CTL_QEI_CFG_EN n) ∧ s.passed q.winFrom len then
    let pos := s.rd (CTL_QEI_POS_VALUE n)
    .next (((s.wr (CTL_QEI_VEL_VALUE n) ((pos + 2 ^ 32 - q.winPos) % 2 ^ 32)).setQei n
      { q with winFrom := (q.winFrom + len) % 2 ^ 64, winPos := pos }).fbReady 0 n)
  else .next s

/-- QEI_STALL (R301). -/
def execQeiStall (n : Fin 16) (s : State) : Out :=
  let k := s.rd (CTL_QEI_CFG_STALL n)
  if s.on (CTL_QEI_CFG_EN n) ∧ k ≠ 0 ∧ ¬ s.on (CTL_QEI_STAT_STALLED n) ∧ s.qeiWatched n ∧
      s.passed (s.qei n).still (k * 4096 * 8) then
    .next ((((s.wr (CTL_QEI_STAT_STALLED n) 1).wr (CTL_QEI_STAT_STALL n) 1).ctlEvent CTL_EVENT_STALL).raiseInt (144 + n) 0)
  else .next s

/-! ### Sigma-delta inputs (R296, R297) -/

/-- The weight of the k-th latest bit in a sinc3 filter of ratio r. -/
def sinc3Weight (r k : Nat) : Int :=
  let t (j : Nat) : Int := if k < j then 0 else ((k - j + 1) * (k - j + 2) / 2 : Nat)
  t 0 - 3 * t r + 3 * t (2 * r)

/-- SDM_FRAME (R296): a decimation frame completes; `samples` are the bits sampled, latest last (the filter spans the last
3 × OSR - 2 of them). -/
def execSdmFrame (n : Fin 32) (samples : List Bool) (s : State) : Out :=
  let r := 16 * 2 ^ s.rd (CTL_SDM_CFG_OSR n)
  let l := samples.reverse.take (3 * r - 2)
  if s.on (CTL_SDM_CFG_EN n) ∧ r ≤ l.length then
    let sum := l.zipIdx.foldl (fun a (x : Bool × Nat) => a + (if x.1 then 1 else -1) * sinc3Weight r x.2) (0 : Int)
    let v := (satQ 31 (sum * 2 ^ (31 - 3 * (4 + s.rd (CTL_SDM_CFG_OSR n))))).1
    let s1 := s.wr (CTL_SDM_VAL_VAL n) (ofSigned 32 v)
    let f := l.take r
    let s2 := if f.all id || f.all not then s1.wr (CTL_SDM_STAT_STUCK n) 1 else s1
    .next (s2.fbReady 2 n)
  else .next s

/-- SDM_CLK_LOST (R296): no clock edge for 64 CLK_CTL cycles. -/
def execSdmClkLost (n : Fin 32) (s : State) : Out :=
  .next (if s.on (CTL_SDM_CFG_EN n) then s.wr (CTL_SDM_STAT_CLK_LOST n) 1 else s)

/-- SDM_COMPARATOR_TRIP (R297): the ones in the last COSR bits. -/
def execSdmComparatorTrip (n ones : Fin 32) (s : State) : Out :=
  if s.on (CTL_SDM_CFG_EN n) ∧ s.on (CTL_SDM_CMP_CEN n) then
    let hi := decide (s.rd (CTL_SDM_CMP_CHI n) ≤ ones)
    let lo := decide (ones ≤ s.rd (CTL_SDM_CMP_CLO n))
    let s1 := if hi then s.wr (CTL_SDM_STAT_HI n) 1 else s
    let s2 := if lo then s1.wr (CTL_SDM_STAT_LO n) 1 else s1
    .next (if (hi ∨ lo) ∧ s.on (CTL_SDM_CMP_CTRIP n) then s2.tripCh (s2.rd (CTL_SDM_CFG_TRIPCH n)) tcSdmcmp else s2)
  else .next s

/-! ### Pulse capture (R298) -/

def pcapReset : Nat → PcapSt := fun _ => ⟨false, none, none, 0⟩
def State.pcap (s : State) (n : Nat) : PcapSt := mget pcapReset s.ctl.pcap n
def State.setPcap (s : State) (n : Nat) (v : PcapSt) : State := s.mCtl fun y => { y with pcap := mset pcapReset y.pcap n v }

/-- PCAP_EDGE (R298): a filtered edge of the pin. -/
def execPcapEdge (n : Fin 16) (rising : Bool) (s : State) : Out :=
  let x := s.pcap n
  let up := rising != s.on (CTL_PCAP_CFG_POL n)
  if ¬ s.on (CTL_PCAP_CFG_EN n) then .next (s.setPcap n { x with level := up })
  else
    let at2 := s.now / 2
    let s0 := s.setPcap n { level := up, rise := if up then some at2 else x.rise, fall := if up then x.fall else some at2, last := s.now }
    let s1 := s0.raise (160 + n) (if up then 1 else 4) 0 s.stamp
    let mode := s.rd (CTL_PCAP_CFG_MODE n)
    if ¬ up then .next s1
    else if mode = 2 then
      let dir := (s.pcap (n + 1)).level
      let v := s.rd (CTL_PCAP_VAL_VAL n)
      .next (s1.wr (CTL_PCAP_VAL_VAL n) ((if dir then v + 1 else v + (2 ^ 32 - 1)) % 2 ^ 32))
    else
      match x.rise with
      | none => .next s1
      | some r =>
        let period := (at2 + 2 ^ 63 - r) % 2 ^ 63
        let high := match x.fall with
          | some f => (f + 2 ^ 63 - r) % 2 ^ 63
          | none => 0
        if period = 0 then .next s1
        else
          let v := if mode = 1 then min period (2 ^ 32 - 1) else (min (rneQuot (high * 2 ^ 31 : Nat) period) (2 ^ 31 - 1)).toNat
          .next ((s1.wr (CTL_PCAP_VAL_VAL n) v).fbReady 3 n)

/-- NOEDGE (R298). -/
def execNoedge (n : Fin 16) (s : State) : Out :=
  let t := s.rd (CTL_PCAP_CFG_TOUT n)
  if s.on (CTL_PCAP_CFG_EN n) ∧ t ≠ 0 ∧ s.passed (s.pcap n).last (t * 512) then
    let s1 := s.wr (CTL_PCAP_STAT_NOEDGE n) 1
    .next (match s.rd (CTL_PCAP_CFG_MODE n) with
      | 0 => s1.wr (CTL_PCAP_VAL_VAL n) (if (s.pcap n).level then 2 ^ 31 - 1 else 0)
      | 1 => s1.wr (CTL_PCAP_VAL_VAL n) 0
      | _ => s1)
  else .next s

/-! ### Absolute encoders (R299) -/

/-- ENC_READ: a read starts; `dat` is the level of ENCn_DAT then. -/
def execEncRead (n : Fin 8) (dat : Bool) (s : State) : Out :=
  let e := s.enc n
  if s.on (CTL_ENC_CFG_EN n) ∧ e.due ∧ ¬ e.busy then .next (s.setEnc n { e with due := false, busy := true, line := !dat })
  else .next s

/-- The binary value of a Gray code of w bits. -/
def grayValue (w g : Nat) : Nat :=
  (List.range w).foldl (fun a i => let k := w - 1 - i; if bit g k != bit a (k + 1) then a + 2 ^ k else a) 0

/-- Ones among the low w bits. -/
def onesIn (w x : Nat) : Nat := ((List.range w).filter fun i => bit x i).length

/-- ENC_READ_DONE: the position, status and parity bits received, and whether ENCn_DAT was high again within TM. -/
def execEncReadDone (n : Fin 8) (pos : BitVec 40) (status : BitVec 8) (par back : Bool) (s : State) : Out :=
  let e := s.enc n
  if ¬ (e.busy ∧ s.on (CTL_ENC_CFG_EN n)) then .next s
  else
    let pw := s.rd (CTL_ENC_CFG_PW n)
    let sb := s.rd (CTL_ENC_CFG_SB n)
    let raw := pos.toNat % 2 ^ pw
    let st := status.toNat % 2 ^ sb
    let line := e.line || !back
    let odd := (onesIn pw raw + onesIn sb st + b2n par) % 2 == 1
    let badPar : Bool := match s.rd (CTL_ENC_CFG_PAR n) with
      | 0 => false
      | 1 => odd
      | _ => !odd
    let s1 := s.wr (CTL_ENC_STAT_SBITS n) st
    let s2 := if badPar then s1.wr (CTL_ENC_STAT_PAR n) 1 else s1
    let s3 := if line then s2.wr (CTL_ENC_STAT_LINE n) 1 else s2
    let s4 := if st ≠ 0 then s3.wr (CTL_ENC_STAT_SBERR n) 1 else s3
    let s5 := if badPar ∨ line ∨ st ≠ 0 then s4.setEnc n { e with busy := false }
      else
        let v := if s.on (CTL_ENC_CFG_GRAY n) then grayValue pw raw else raw
        let old := s.rd (CTL_ENC_POS_POS n)
        (s4.wr (CTL_ENC_POS_POS n) v).setEnc n
          { e with busy := false, vel := (satQ 31 (toSigned pw (v + 2 ^ 40 - old % 2 ^ pw))).1 }
    .next (s5.fbReady 4 n)

/-! ### Writes (R279, R280, R316 to R318) -/

/-- How a CTL enable is judged. -/
inductive CtlCheck where
  | ok
  | cfg
  | iso
  deriving DecidableEq, Repr

/-- The owner of a feedback or set-point input, where its index is one. -/
def State.inputOwner (s : State) (src n : Nat) : Option Nat :=
  match src with
  | 0 => if n < 16 then some (s.rd (CTL_QEI_CFG_OWNER n)) else none
  | 1 => if n < 16 then some (s.rd (CTL_QEI_CFG_OWNER n)) else none
  | 2 => some (s.rd (CTL_SDM_CFG_OWNER n))
  | 3 => if n < 16 then some (s.rd (CTL_PCAP_CFG_OWNER n)) else none
  | _ => if n < 8 then some (s.rd (CTL_ENC_CFG_OWNER n)) else none

/-- The checks of a channel's enable (R279, R280), on its registers as written. -/
def State.chanCheck (s : State) (h : Nat) : CtlCheck :=
  let p := s.chOwner h
  let fb := s.inputOwner (s.rd (CTL_CH_SRC_FBSRC h)) (s.rd (CTL_CH_SRC_FBIDX h))
  let sps := s.rd (CTL_CH_SRC_SPSRC h)
  let sp := if 2 ≤ sps then s.inputOwner sps (s.rd (CTL_CH_SRC_SPIDX h)) else some p
  let log := s.rd (CTL_CH_TRAJ_LOG2N h)
  let t := s.rd (CTL_CH_TRAJ_ADDR h)
  if (chPriv h && decide (2 ≤ s.rd (CTL_CH_CFG_LU h))) || fb.isNone || sp.isNone ||
      (sps == 1 && decide (log < 4 ∨ 16 < log ∨ t % 64 ≠ 0)) then .cfg
  else if fb ≠ some p ∨ sp ≠ some p then .iso
  else if (match s.pairOf h with
      | some q => s.rd (CTL_PWM_CFG_OWNER q) != p
      | none => false) then .iso
  else if (sps == 1 && !s.tunOwned p t (64 + 16 * 2 ^ log)) || (s.on (CTL_CH_NOTE_EN h) && !s.coreIn (s.rd (CTL_CH_NOTE_CORE h)) p) then .iso
  else .ok

/-- The checks of a capture unit's start (R280, R317). -/
def State.capCheck (s : State) (c : Nat) : CtlCheck :=
  let p := s.chOwner (s.rd (CTL_CAP_CFG_CH c))
  let n := s.rd (CTL_CAP_NSAMP_NSAMP c)
  let b := s.rd (CTL_CAP_BASE_BASE c)
  if n ≤ s.rd (CTL_CAP_DEC_PRE c) ∨ b % 64 ≠ 0 then .cfg
  else if ¬ s.tunOwned p b (16 * n) ∨ (s.on (CTL_CAP_NOTE_EN c) ∧ ¬ s.coreIn (s.rd (CTL_CAP_NOTE_CORE c)) p) then .iso
  else .ok

/-- A write of a CFG register under R318: `active` now, bit `en` its enable; `check` judges an enabling write on the state with it
stored, `enable` and `disable` complete one. -/
def State.ctlGate (s : State) (off v : Nat) (active : Bool) (check : State → CtlCheck) (enable disable : State → State) : State :=
  s.writeIf off v fun s0 put =>
    let t := put s0
    if active then
      if ¬ bit v 31 ∧ t.word off + 2 ^ 31 = s0.word off then disable t else s0.ctlEvent CTL_EVENT_CFG_ERR
    else if bit v 31 then
      match check t with
      | .ok => enable t
      | .cfg => s0.ctlEvent CTL_EVENT_CFG_ERR
      | .iso => s0.ctlEvent CTL_EVENT_ISO
    else t

/-- A channel becomes IDLE (R306). -/
def State.chEnable (s : State) (h : Nat) : State :=
  let c := s.chan h
  ((s.wr (CTL_CH_STATUS_STATE h) chIdle).setChan h { chanReset h with active := c.active, commit := c.commit }).luBounds

/-- A channel becomes DISABLED (R306). -/
def State.chDisable (s : State) (h : Nat) : State :=
  let c := s.chan h
  let s1 := ((s.wr (CTL_CH_STATUS_STATE h) 0).wr (CTL_CH_STATUS_CAUSE h) 0).setChan h
    { c with req := none, run := none, trig := none, action := 0 }
  (match s1.pairOf h with
    | some p => s1.setPwm p { s1.pwm p with safeCh := false }
    | none => s1).luBounds

/-- The legal settings of the SDM, PCAP and PWM registers that depend on one another (R296, R298, R303). -/
def State.pcapCheck (s : State) (n : Nat) : CtlCheck :=
  let two (k : Nat) : Bool := s.rd (CTL_PCAP_CFG_MODE k) == 2
  if n % 2 = 1 ∧ (two n ∨ (s.on (CTL_PCAP_CFG_EN (n - 1)) ∧ two (n - 1))) then .cfg
  else if n % 2 = 0 ∧ two n ∧ s.on (CTL_PCAP_CFG_EN (n + 1)) then .cfg else .ok
def State.sdmCheck (s : State) (n : Nat) : CtlCheck :=
  if s.on (CTL_SDM_CFG_CLKOUT n) ∧ (s.rd (CTL_SDM_CFG_DIV n) < 20 ∨ 100 < s.rd (CTL_SDM_CFG_DIV n)) then .cfg else .ok
def State.pwmCheck (s : State) (p : Nat) : CtlCheck :=
  if s.on (CTL_PWM_CFG_LOAD p) ∧ ¬ s.on (CTL_PWM_CFG_MODE p) then .cfg else .ok
def State.injCheck (s : State) (g : Nat) : CtlCheck :=
  let h := s.rd (CTL_INJ_CFG_CH g)
  if (s.rd (CTL_INJ_CFG_KIND g) = 1 ∧ s.rd (CTL_INJ_LEN_VALUE g) = 0) ∨ (chPriv h ∧ ¬ s.on (CTL_CH_CFG_INJ_PERMIT h)) then .cfg else .ok

/-- A write of a quadrature input's CFG. -/
def State.writeQeiCfg (s : State) (n off v : Nat) : State :=
  s.ctlGate off v (s.on (CTL_QEI_CFG_EN n)) (fun _ => .ok)
    (fun t => t.setQei n { t.qei n with seen := false, winFrom := t.stamp, winPos := t.rd (CTL_QEI_POS_VALUE n), still := t.now })
    (fun t => t)

/-- A write of a generator's CFG (R316). -/
def State.writeInj (s : State) (g off v : Nat) : State :=
  s.ctlGate off v (s.on (CTL_INJ_CFG_EN g)) (fun t => t.injCheck g)
    (fun t => t.mCtl fun y => { y with inj := mset (fun _ => (0, 0)) y.inj g (0, 0) }) (fun t => t)

/-- A write of a capture unit's CFG (R317). -/
def State.writeCap (s : State) (c off v : Nat) : State :=
  s.ctlGate off v (s.on (CTL_CAP_CFG_GO c)) (fun t => t.capCheck c)
    (fun t => t.setCap c ⟨t.rd (CTL_CAP_DEC_DEC c), 0,
      if t.rd (CTL_CAP_CFG_TRIG c) = 0 then some (t.rd (CTL_CAP_NSAMP_NSAMP c) - t.rd (CTL_CAP_DEC_PRE c)) else none⟩)
    (fun t => t)

/-- A write of a cycle timer's CFG: enabling reads START (R220, R221, R281). -/
def State.writeCyc (s : State) (k off v : Nat) : State :=
  s.writeIf off v fun s0 put =>
    if bit v 31 ∧ ¬ s0.on (CTL_CYC_CFG_EN k) then (put s0).cycSkip k (s0.rd (CTL_CYC_START_START k)) s0.now else put s0

/-- A write of a CFG or SRC register of CTL; none where the offset is not one. -/
def State.writeCtlCfg (s : State) (off v : Nat) : Option State :=
  let hit (b n st : Nat) : Bool := decide (b ≤ off ∧ off < b + n * st ∧ (off - b) % st = 0)
  if hit 0xC01000 64 0x200 then
    let h := (off - 0xC01000) / 0x200
    some (s.ctlGate off v (s.chOn h) (fun t => t.chanCheck h) (fun t => t.chEnable h) (fun t => t.chDisable h))
  else if hit 0xC01004 64 0x200 then
    some (s.writeIf off v fun s0 put => if s0.chOn ((off - 0xC01004) / 0x200) then s0.ctlEvent CTL_EVENT_CFG_ERR else put s0)
  else if hit 0xC09000 16 0x40 then some (s.writeQeiCfg ((off - 0xC09000) / 0x40) off v)
  else if hit 0xC0A000 32 0x10 then
    let n := (off - 0xC0A000) / 0x10
    some (s.ctlGate off v (s.on (CTL_SDM_CFG_EN n)) (fun t => t.sdmCheck n) (fun t => t) (fun t => t))
  else if hit 0xC0A400 16 0x10 then
    let n := (off - 0xC0A400) / 0x10
    some (s.ctlGate off v (s.on (CTL_PCAP_CFG_EN n)) (fun t => t.pcapCheck n)
      (fun t => t.setPcap n ⟨(t.pcap n).level, none, none, t.now⟩) (fun t => t))
  else if hit 0xC0A600 8 0x20 then
    let n := (off - 0xC0A600) / 0x20
    some (s.ctlGate off v (s.on (CTL_ENC_CFG_EN n)) (fun _ => .ok) (fun t => t)
      (fun t => t.setEnc n { t.enc n with due := false, busy := false }))
  else if hit 0xC0B000 24 0x20 then
    let p := (off - 0xC0B000) / 0x20
    some (s.ctlGate off v (s.on (CTL_PWM_CFG_OE p)) (fun t => t.pwmCheck p) (fun t => t) (fun t => t))
  else if hit 0xC0C000 4 0x20 then some (s.writeInj ((off - 0xC0C000) / 0x20) off v)
  else if hit 0xC0C100 4 0x20 then some (s.writeCap ((off - 0xC0C100) / 0x20) off v)
  else if hit 0xC00100 8 0x20 then some (s.writeCyc ((off - 0xC00100) / 0x20) off v)
  else none

/-- CTL_CFG_WRITE (R279, R280, R306, R318). -/
def execCtlCfgWrite (req : Requester) (off : Nat) (value : BitVec 32) (s : State) : Out :=
  .next ((s.writeCtlCfg off value.toNat).elim s fun _ =>
    s.asWriter req off 4 fun a => (a.writeCtlCfg off value.toNat).getD a)

/-- INJ_ENABLE (R316). -/
def execInjEnable (req : Requester) (g : Fin 4) (value : BitVec 32) (s : State) : Out :=
  let off := (CTL_INJ_CFG_EN g).off
  if bit value.toNat 31 then .next (s.asWriter req off 4 fun a => a.writeInj g off value.toNat) else .next s

/-- CAPTURE_GO (R317). -/
def execCaptureGo (req : Requester) (c : Fin 4) (value : BitVec 32) (s : State) : Out :=
  let off := (CTL_CAP_CFG_GO c).off
  if bit value.toNat 31 then .next (s.asWriter req off 4 fun a => a.writeCap c off value.toNat) else .next s

/-- A write of any register of CTL. -/
def State.writeCtl (s : State) (off v : Nat) : State :=
  match s.writeCtlCfg off v with
  | some t => t
  | none =>
    let o := (off - 0xC01000) % 0x200
    if 0xC01000 ≤ off ∧ off < 0xC09000 ∧ o = 8 then s.writeChCmd ((off - 0xC01000) / 0x200) v
    else if 0xC01000 ≤ off ∧ off < 0xC01000 + 56 * 0x200 ∧ o = 0x10 then
      let x := toSigned 32 v
      if -(2 ^ 15) ≤ x ∧ x < 2 ^ 15 then s.writeThen off v id else s.ctlEvent CTL_EVENT_CFG_ERR
    else if 0xC09000 ≤ off ∧ off < 0xC09400 ∧ 0x20 ≤ (off - 0xC09000) % 0x40 then
      s.watchQei (s.writeThen off v id) ((off - 0xC09000) / 0x40)
    else if 0xC0B000 ≤ off ∧ off < 0xC0B300 ∧ (off - 0xC0B000) % 0x20 = 0x10 then
      let p := (off - 0xC0B000) / 0x20
      s.writeThen off (if (s.rd (CTL_PWM_CFG_TRIPIN p) &&& s.tripPins) ≠ 0 then v / 2 * 2 else v) id
    else s.writeThen off v id

end Sys2Proof.Machine
end

