-- ==== Sys2Proof/Machine/TimeEvents.lean ====
section
/-! DEFINITION. The time block TIM and the event block EVT: commits, the servo, PPS, snapshots, the alarm, rings and sources
(R320 to R343). -/

namespace Sys2Proof.Machine

/-! ### Commits of a timescale (R323 to R327) -/

/-- A legal rate (R323). -/
def rateOk (r : Nat) : Bool := decide (0x200000000000 ≤ r ∧ r ≤ 0x7FFFFFFFFFFF)

/-- The second TICK edge after now. -/
def State.secondTick (s : State) : Nat := (s.now / 8 + 2) * 8 % 2 ^ 64

/-- Move the active set of timescale n into the history (R327). -/
def State.shiftHist (s : State) (n : Nat) : State :=
  let s1 := [6, 5, 4, 3, 2, 1, 0].foldl (fun a k =>
    (((a.wr (TIM_HIST_BASE_VALUE n (k + 1)) (a.rd (TIM_HIST_BASE_VALUE n k))).wr
      (TIM_HIST_OFFSET_VALUE n (k + 1)) (a.rd (TIM_HIST_OFFSET_VALUE n k))).wr
      (TIM_HIST_FRAC_VALUE n (k + 1)) (a.rd (TIM_HIST_FRAC_VALUE n k))).wr
      (TIM_HIST_RATE_VALUE n (k + 1)) (a.rd (TIM_HIST_RATE_VALUE n k))) s
  (((s1.wr (TIM_HIST_BASE_VALUE n 0) (s.rd (TIM_ABASE_VALUE n))).wr (TIM_HIST_OFFSET_VALUE n 0) (s.rd (TIM_AOFF_VALUE n))).wr
    (TIM_HIST_FRAC_VALUE n 0) (s.rd (TIM_AFRAC_VALUE n))).wr (TIM_HIST_RATE_VALUE n 0) (s.rd (TIM_ARATE_VALUE n))

/-- Replace the active set of timescale n at count c: mode 0 SET, 1 STEP by `off`, 2 RATE (R324). -/
def State.applyCommit (s : State) (n mode : Nat) (off : Int) (rate c : Nat) : State :=
  let x := s.exactAt n c
  let s1 := (s.shiftHist n).wr (TIM_ABASE_VALUE n) c
  let whole (d : Int) : State :=
    (s1.wr (TIM_AOFF_VALUE n) (ofSigned 64 ((x / 2 ^ 46 : Nat) + d))).wr (TIM_AFRAC_VALUE n) (x % 2 ^ 46)
  let s2 := match mode with
    | 0 => ((s1.wr (TIM_AOFF_VALUE n) (ofSigned 64 off)).wr (TIM_AFRAC_VALUE n) 0).wr (TIM_ARATE_VALUE n) rate
    | 1 => whole off
    | _ => (whole 0).wr (TIM_ARATE_VALUE n) rate
  s2.bumpWrap (TIM_TS_STAT_COMMITS n) 1

/-- TIMESCALE_COMMIT (R324): the commit count of the staged commit, or of the servo's, is reached. -/
def execTimescaleCommit (n : Fin 4) (s : State) : Out :=
  let c := mget (fun _ => 0) s.tim.commitAt n
  if s.on (TIM_TS_CTL_COMMIT n) ∧ c ≤ s.now then
    .next (((s.applyCommit n (s.rd (TIM_TS_CTL_MODE n)) (toSigned 64 (s.rd (TIM_OFFSET_VALUE n))) (s.rd (TIM_RATE_VALUE n)) c).wr
      (TIM_TS_CTL_COMMIT n) 0).mTim fun x => { x with commitAt := mset (fun _ => 0) x.commitAt n 0 })
  else match s.tim.srvPend with
    | some (mode, off, rate, c) =>
      if s.rd TIM_SRV_CFG_TS = n ∧ c ≤ s.now then
        .next ((s.applyCommit n mode off rate c).mTim fun x => { x with srvPend := none })
      else .next s
    | none => .next s

/-- A write of TIM_TS_CTLn (R325, R328). -/
def State.writeTsCtlTim (s : State) (req : Requester) (n off v : Nat) : State :=
  let err : State := s.wr (TIM_TS_CTL_ERR n) 1
  let host : Bool := match req with
    | .host _ => true
    | _ => false
  if s.on (TIM_TS_CTL_COMMIT n) then err
  else if bit v 31 ∧ host ∧ s.on (TIM_TS_CTL_SERVO n) then err
  else if bit v 31 ∧ (bits v 30 29 = 3 ∨ ¬ rateOk (s.rd (TIM_RATE_VALUE n))) then err.cfgRefuse off
  else s.writeThen off v fun t =>
    if ¬ bit v 31 then t
    else
      let at' := t.rd (TIM_AT_VALUE n)
      let late := t.on (TIM_TS_CTL_AT_EN n) && decide (at' ≤ s.now)
      let c := if ¬ t.on (TIM_TS_CTL_AT_EN n) ∨ late then s.secondTick else tickAt at'
      let t1 := t.mTim fun x => { x with commitAt := mset (fun _ => 0) x.commitAt n c }
      if late then t1.wr (TIM_TS_STAT_LATE n) 1 else t1

/-- TIM_TS_COMMIT_WRITE (R325, R328). -/
def execTimTsCommitWrite (req : Requester) (n : Fin 4) (value : BitVec 32) (s : State) : Out :=
  let off := (TIM_TS_CTL_COMMIT n).off
  if bit value.toNat 31 then .next (s.asWriter req off 4 fun a => a.writeTsCtlTim req n off value.toNat) else .next s

/-! ### The servo (R329, R330) -/

/-- A measurement pair reaches TIM: the source, the reference time and the count it applies to. -/
def State.pair (s : State) (src ref c : Nat) : State := s.mTim fun x => { x with pairs := x.pairs ++ [(src, ref, c)] }

/-- What the servo does with a pair. -/
def State.servo (s : State) (src ref c : Nat) : State :=
  let n := s.rd TIM_SRV_CFG_TS
  let e := toSigned 64 ((ref + 2 ^ 64 - s.readingAt n c) % 2 ^ 64)
  let base := s.rd (TIM_ABASE_VALUE n)
  if c < base ∨ (src = 1 ∧ 5 * 10 ^ 8 ≤ e.natAbs) then s.bump TIM_SRV_STAT_STALE_PAIRS
  else
    let s1 := s.wr TIM_SRV_ERR_E (ofSigned 64 e)
    let at' := s.secondTick
    let thr := s.rd TIM_SRV_STEP_THR_THR
    let s2 := if thr ≠ 0 ∧ thr ≤ e.natAbs then
        ((s1.mTim fun x => { x with servoI := 0, srvPend := some (1, e, 0, at') }).bump TIM_SRV_STAT_STEPS).wr TIM_EVENT_SRV_STEP 1
      else
        let i := clampInt (-(2 ^ 31)) (2 ^ 31 - 1) (s.tim.servoI + e)
        let adj := clampInt (-(2 ^ 63)) (2 ^ 63 - 1) (e * 2 ^ s.rd TIM_SRV_GAIN_PSH + i * 2 ^ s.rd TIM_SRV_GAIN_ISH)
        let nom : Int := s.rd TIM_SRV_NOM_VALUE
        let lim : Int := s.rd TIM_SRV_LIM_LIM * 64
        let rate := clampInt 0x200000000000 0x7FFFFFFFFFFF (clampInt (nom - lim) (nom + lim) (nom + adj))
        s1.mTim fun x => { x with servoI := i, srvPend := some (2, 0, rate.toNat, at') }
    if e.natAbs ≤ s.rd TIM_SRV_LOCK_THR_THR then
      let s3 := s2.mTim fun x => { x with lockRun := min (x.lockRun + 1) 8 }
      if s3.tim.lockRun = 8 then s3.wr TIM_SRV_STAT_LOCKED 1 else s3
    else
      let s3 := s2.mTim fun x => { x with lockRun := 0 }
      if s3.on TIM_SRV_STAT_LOCKED then (s3.wr TIM_SRV_STAT_LOCKED 0).wr TIM_EVENT_SRV_UNLOCK 1 else s3

/-- SERVO_PAIR (R330): the servo takes the oldest pair that reached TIM; a pair from a source not selected is no pair. -/
def execServoPair (s : State) : Out :=
  match s.tim.pairs with
  | [] => .next s
  | (src, ref, c) :: rest =>
    let s0 := s.mTim fun x => { x with pairs := rest }
    .next (if s.on TIM_SRV_CFG_EN ∧ s.rd TIM_SRV_CFG_SRC = src then s0.servo src ref c else s0)

/-- A write of TIM_SRV_CFG shows the steered timescale (TIM_TS_CTLn.SERVO). -/
def State.showServo (s : State) : State :=
  (List.range 4).foldl (fun a n =>
    a.wr (TIM_TS_CTL_SERVO n) (b2n (a.on TIM_SRV_CFG_EN && a.rd TIM_SRV_CFG_TS == n))) s

/-! ### PPS, snapshot, alarm, start of CLK_TIME -/

/-- PPS_IN_EDGE (R329, R333, R334): an accepted edge. -/
def execPpsInEdge (rising : Bool) (s : State) : Out :=
  let c := s.stamp
  let s1 := (s.mEvt fun x => { x with level := mset (fun _ => false) x.level 24 rising }).raise 24 (if rising then 1 else 4) 0 c
  if s.on TIM_PPSI_CFG_EN ∧ rising ≠ s.on TIM_PPSI_CFG_POL then
    let r := s.readingAt (s.rd TIM_SRV_CFG_TS) c
    .next (s1.pair 1 ((r + 5 * 10 ^ 8) / 10 ^ 9 * 10 ^ 9 % 2 ^ 64) c)
  else .next s1

/-- PPS_OUT_PULSE (R326, R331, R332). -/
def execPpsOutPulse (s : State) : Out :=
  let c := s.stamp
  let r := s.timeAt (s.rd TIM_PPSO_CFG_TS) c
  if s.on TIM_PPSO_CFG_EN ∧ s.tim.ppsNext ≤ r then
    let m := r / 10 ^ 9 * 10 ^ 9
    let s1 := s.mTim fun x => { x with
      ppsOut := true, ppsEnd := (c + 8 * s.rd TIM_PPSO_CFG_WIDTH) % 2 ^ 64, ppsNext := m + 10 ^ 9 }
    .next (if s.tim.ppsNext < m then s1.wr TIM_EVENT_PPSO_SKIP 1 else s1)
  else .next s

/-- PPS_OUT_PULSE_END (R331). -/
def execPpsOutPulseEnd (s : State) : Out :=
  if s.tim.ppsOut ∧ s.tim.ppsEnd ≤ s.now then .next (s.mTim fun x => { x with ppsOut := false }) else .next s

/-- A write of TIM_PPSO_CFG. -/
def State.writePpso (s : State) (off v : Nat) : State :=
  if bits v 15 0 = 0 then s.cfgRefuse off
  else s.writeThen off v fun t =>
    if ¬ bit v 31 then t.mTim fun x => { x with ppsOut := false }
    else if s.on TIM_PPSO_CFG_EN then t
    else t.mTim fun x => { x with ppsNext := (t.timeAt (t.rd TIM_PPSO_CFG_TS) t.now / 10 ^ 9 + 1) * 10 ^ 9 }

/-- The behaviour of a snapshot (R343). -/
def State.snap (s : State) : State :=
  let c := s.stamp
  (List.range 4).foldl (fun a n => a.wr (TIM_SNAP_READ_VALUE n) (s.readingAt n c)) (s.wr TIM_SNAP_COUNT_VALUE c)

/-- TIM_SNAP (R343). -/
def execTimSnap (req : Requester) (value : BitVec 32) (s : State) : Out :=
  if bit value.toNat 0 then .next (s.asWriter req TIM_SNAP_CTL_GO.off 4 fun a => a.snap) else .next s

/-- ALARM (R343): the count reaches TIM_ALARM. -/
def execAlarm (s : State) : Out :=
  if s.tim.alarmAhead ∧ s.rd TIM_ALARM_VALUE ≤ s.now then
    let s1 := s.mTim fun x => { x with alarmAhead := false }
    .next (if s.on TIM_EVENT_ALARM_EN then s1.wr TIM_EVENT_ALARM 1 else s1)
  else .next s

/-- CLK_TIME_START (R320): the counter goes on from its value, in the mode of CLK_TIME; not in Cellar, nor after CLK_TIME failed
(R505). -/
def execClkTimeStart (s : State) : Out :=
  .next (if bit s.pwr.dead 3 ∨ s.pwr.cellar = 2 then s else s.mTim fun x => { x with ao := false })

/-- A write of any register of TIM. -/
def State.writeTim (s : State) (req : Requester) (off v : Nat) : State :=
  let n := (off - 0x200100) / 0x80
  let o := (off - 0x200100) % 0x80
  if 0x200100 ≤ off ∧ off < 0x200300 ∧ o < 0x1C then
    if o = 0x18 then s.writeTsCtlTim req n off v
    else if s.on (TIM_TS_CTL_COMMIT n) then s.wr (TIM_TS_CTL_ERR n) 1
    else if o = 8 ∨ o = 0xC then
      s.writeIf off v fun s0 put => if rateOk ((put s0).rd (TIM_RATE_VALUE n)) then put s0 else s0.cfgRefuse off
    else s.writeThen off v id
  else if off = TIM_SNAP_CTL_GO.off then (if bit v 0 then s.snap else s)
  else if off = TIM_PPSO_CFG_EN.off then s.writePpso off v
  else if off = TIM_SRV_CFG_EN.off then s.writeThen off v fun t => t.showServo
  else if off = 0x200018 ∨ off = 0x20001C then
    s.writeThen off v fun t => t.mTim fun x => { x with alarmAhead := decide (t.now < t.rd TIM_ALARM_VALUE) }
  else s.writeThen off v id

/-! ### Event rings and sources (R338 to R342) -/

/-- The ring of partition p, as its registers stand, meets R342. -/
def State.ringOk (s : State) (p : Nat) : Bool :=
  s.tunOwned p (s.rd (EVT_RING_BASE_ADDR p)) (16 * 2 ^ s.rd (EVT_RING_CFG_LOG2SIZE p)) &&
    s.tunOwned p (s.rd (EVT_RING_RADDR_ADDR p)) 4 &&
    (!s.on (EVT_RING_CFG_NEN p) || s.coreIn (s.rd (EVT_RING_CFG_CORE p)) p)

/-- Source numbers that nothing raises (R338). -/
def unusedSource (src : Nat) : Bool := decide ((3 ≤ src ∧ src ≤ 7) ∨ (17 ≤ src ∧ src ≤ 23) ∨ (25 ≤ src ∧ src ≤ 31))

/-- A write of EVT_SRC_CFGs. -/
def State.writeSource (s : State) (off v : Nat) : State :=
  let src := (off - 0x301000) / 4
  if (unusedSource src ∧ v ≠ 0) ∨ (¬ pinSource src ∧ bits v 30 29 ≠ 0) then s.cfgRefuse off
  else s.writeIf off v fun s0 put =>
    let p := bits v 28 25
    if bit v 31 ∧ ¬ s0.on (EVT_RING_CFG_EN p) ∧ ¬ s0.ringOk p then s0.wr EVT_EVENT_ISO 1 else put s0

/-- A write of a ring's register: BASE, RADDR and LOG2SIZE change only while EN is 0 (R342). -/
def State.writeRing (s : State) (off v : Nat) : State :=
  let p := (off - 0x302000) / 0x20
  let o := (off - 0x302000) % 0x20
  s.writeIf off v fun s0 put =>
    let t := put s0
    if s0.on (EVT_RING_CFG_EN p) ∧ (o < 8 ∨ o = 0x10 ∨ o = 0x14 ∨
        (o = 8 ∧ t.rd (EVT_RING_CFG_LOG2SIZE p) ≠ s0.rd (EVT_RING_CFG_LOG2SIZE p))) then s0.cfgRefuse off
    else if o = 8 ∧ bit v 31 then
      if t.rd (EVT_RING_BASE_ADDR p) % 64 ≠ 0 ∨ t.rd (EVT_RING_RADDR_ADDR p) % 4 ≠ 0 then s0.cfgRefuse off
      else if ¬ t.ringOk p then s0.wr EVT_EVENT_ISO 1
      else if s0.on (EVT_RING_CFG_EN p) then t
      else (t.wr (EVT_RING_WIDX_COUNT p) 0).mEvt fun x => { x with
        read := mset (fun _ => 0) x.read p 0, lost := mset (fun _ => false) x.lost p false }
    else t

/-- A write of any register of EVT. -/
def State.writeEvt (s : State) (off v : Nat) : State :=
  if 0x301000 ≤ off ∧ off < 0x301440 then s.writeSource off v
  else if 0x302000 ≤ off ∧ off < 0x302200 then s.writeRing off v
  else s.writeThen off v id

/-- EVT_RING_ENABLE (R342): a write of EVT_RINGp_CFG or EVT_SRC_CFGs that sets EN. -/
def execEvtRingEnable (req : Requester) (off : Nat) (value : BitVec 32) (s : State) : Out :=
  if bit value.toNat 31 ∧ ((0x301000 ≤ off ∧ off < 0x301440) ∨ (0x302000 ≤ off ∧ off < 0x302200 ∧ off % 0x20 = 8)) then
    .next (s.asWriter req off 4 fun a => a.writeEvt off value.toNat)
  else .next s

end Sys2Proof.Machine
end

