-- ==== Sys2Proof/Machine/SafBlock.lean ====
section
/-! DEFINITION. The safety block SAF: the comparator, the gravity check, floor turning and self-tests, causes, arming and failover
(R34, R36, R388 to R418). -/

namespace Sys2Proof.Machine

/-! ### The comparator (R390 to R397) -/

/-- Verdict reasons (SAF_CMPk_STAT.LAST_REASON). -/
def cmAgree : Nat := 0
def cmData : Nat := 1
def cmHeader : Nat := 2
def cmTimeout : Nat := 3
def cmPoison : Nat := 4
def cmGap : Nat := 5

def State.cmpPart (s : State) (k ch : Nat) : Nat := if ch = 0 then s.rd (SAF_CMP_CFG_APART k) else s.rd (SAF_CMP_CFG_BPART k)
def State.pendOf (s : State) (k : Nat) : List (Nat × Nat × Nat) := mget (fun _ => []) s.saf.pend k
def State.setPend (s : State) (k : Nat) (l : List (Nat × Nat × Nat)) : State :=
  s.mSaf fun x => { x with pend := mset (fun _ => []) x.pend k l }
def State.readyOf (s : State) (k : Nat) : List Nat := mget (fun _ => []) s.saf.ready k
def State.setReady (s : State) (k : Nat) (l : List Nat) : State := s.mSaf fun x => { x with ready := mset (fun _ => []) x.ready k l }

/-- The device is armed, active and not in the safe state (R396). -/
def State.operating (s : State) : Bool := s.on SAF_STATE_ARMED && s.on SAF_STATE_ACTIVE && !s.on SAF_STATE_SAFE

/-- Write the validity word of record f of every stream bound to slot k (R396, R412). -/
def State.setValidity (s : State) (k f : Nat) : State :=
  (List.range 32).foldl (fun a t =>
    if a.on (SAF_STR_CFG_EN t) && a.rd (SAF_STR_CFG_SLOT t) == k then
      let x := a.validityAddr t f
      (if a.inTun x then a.blkWrite x (leBytes 4 (0x80000000 + f % 2 ^ 16)) else a).mSaf fun y =>
        { y with newest := mset (fun _ => none) y.newest t (some f) }
    else a) s

/-- The pins take their operating levels and the safe state ends (R413). -/
def State.armNow (s : State) : State :=
  let s1 := ((((s.wr SAF_STATE_SAFE 0).wr SAF_STATE_ARMED 1).wr SAF_STATE_PIN_A 1).wr SAF_STATE_PIN_B 0).wr SAF_STATE_PIN_F 1
  let s2 := ((s1.wr SAF_FREC_VALID 0).wr SAF_STATE_SWEEP_DONE 0).wr SAF_GRAV_STAT_FVALID 0
  s2.mSaf fun x => { x with
    outA := true, outB := false, outF := true, gateClosed := false, sweeping := false, armReq := false, devsafe := false }

/-- Give a verdict (R396, R413). -/
def State.verdict (s : State) (k reason : Nat) (f : Option Nat) (ratio : Option (Nat × Nat)) : State :=
  let s1 := (s.wr (SAF_CMP_STAT_LAST_OK k) (b2n (reason == cmAgree))).wr (SAF_CMP_STAT_LAST_REASON k) reason
  let s2 := match f with
    | some x => s1.wr (SAF_CMP_LAST_FRAME k) x
    | none => s1
  let s3 := match ratio with
    | some (hi, lo) => (s2.wr (SAF_CMP_RATIO_HI k) hi).wr (SAF_CMP_RATIO_LO k) lo
    | none => s2
  let s4 := (s3.mSaf fun x => { x with quiet := mset (fun _ => 0) x.quiet k 0 }).raiseInt 16 0
  if reason = cmAgree then
    let met := s4.saf.armReq && s4.rd SAF_CAUSE_CAUSE == 0 && s4.on SAF_STATE_ACTIVE &&
      (s4.saf.armGood || !s4.on SAF_FRM_CFG_EN)
    let s5 := if met then s4.armNow else s4
    match f with
    | some x => if s5.operating then s5.setValidity k x else s5
    | none => s5
  else (s4.bump (SAF_CMP_STAT_DISAGREES k)).cause 1 (s4.rd (SAF_CMP_CFG_APART k)) 16 k

/-- SAF_REPORT (R390, R392): the copy of a REPORT from a core. -/
def execSafReport (src : Fin 256) (s : State) : Out :=
  let isRep (m : Msg) : Bool := m.cls == .saf && m.src == src.val && (match m.body with
    | .report .. => true
    | _ => false)
  match s.take isRep with
  | some (m, s0) =>
    match m.body with
    | .report code payload =>
      let k := code % 16
      let ch := bits payload 32 32
      let f := bits payload 31 0
      if ¬ s0.on (SAF_CMP_CFG_EN k) ∨ payload / 2 ^ 33 ≠ 0 ∨ s0.coreOwner src ≠ some (s0.cmpPart k ch) then
        .next (s0.wr SAF_WARN_BADREP 1)
      else
        let l := s0.pendOf k
        match l.find? fun x => x.1 == f with
        | some x =>
          if x.2.1 = ch then .next s0
          else .next ((s0.setPend k (l.filter fun y => y.1 != f)).setReady k (s0.readyOf k ++ [f]))
        | none =>
          let l' := l ++ [(f, ch, s0.now)]
          match l' with
          | old :: rest =>
            if 4 < l'.length then .next ((s0.setPend k rest).verdict k cmTimeout (some old.1) none) else .next (s0.setPend k l')
          | [] => .next s0
    | _ => .next s
  | none => .next s

/-- Record size of a slot's mode (R391). -/
def State.recSize (s : State) (k : Nat) : Nat :=
  match s.rd (SAF_CMP_CFG_MODE k) with
  | 0 => 64 * s.rd (SAF_CMP_CFG_LEN64 k)
  | 1 => 65600
  | _ => 8256

/-- Read the record of channel ch for frame f; none where an address fails its owner's check. -/
def State.readRec (s : State) (k ch f : Nat) : Option (List MByte) × State :=
  let base := if ch = 0 then s.rd (SAF_CMP_ABASE_ADDR k) else s.rd (SAF_CMP_BBASE_ADDR k)
  let n := s.recSize k
  let a := base + f % (s.rd (SAF_CMP_CFG_NREC k) + 1) * n
  let p := s.cmpPart k ch
  match s.checkRun p false a n with
  | .ok => if n = 0 ∨ ¬ s.inTun a then (none, s) else ((s.blkRead a n).1, (s.blkRead a n).2)
  | c => (none, s.blkFail p srcSeq c a)

/-- Grid mode (R394): agreement, ratio and miss. -/
def State.gridVerdict (s : State) (k : Nat) (a b : List MByte) : Bool × Nat × Nat :=
  let thr := s.rd (SAF_CMP_THR_OCC_THR k)
  let cells (l : List MByte) : List Bool := ((l.drop 16).take 65536).map fun x => decide (thr ≤ x.1.toNat)
  let z := (cells a).zip (cells b)
  let both := (z.filter fun p => p.1 && p.2).length
  let either := (z.filter fun p => p.1 || p.2).length
  let miss := (z.filter fun p => p.2 && !p.1).length
  let ratio := if either = 0 then 65536 else both * 65536 / either
  (decide (s.rd (SAF_CMP_THR_RATIO k) ≤ ratio ∧ miss ≤ s.rd (SAF_CMP_LIM_MISS_MAX k)), min ratio 0xFFFF, min miss 0xFFFF)

/-- The class and box of object i of a record, where no coordinate is a NaN (R391, R395). -/
def objAt (rec : Nat) (i : Nat) : Nat × Option Box :=
  let o := 16 + 32 * i
  let b : Box := (rdWord rec (o + 4), rdWord rec (o + 8), rdWord rec (o + 12), rdWord rec (o + 16))
  (rdHalf rec o, if [b.1, b.2.1, b.2.2.1, b.2.2.2].any (fun w => (f32 w).isNan) then none else some b)

/-- inter and union of two boxes by the FP32 steps of R118. -/
def interUnion (k i : Box) : Nat × Nat :=
  let a := boxNorm k
  let b := boxNorm i
  let ih := f32max 0 (f32sub (f32min a.2.2.1 b.2.2.1) (f32max a.1 b.1))
  let iw := f32max 0 (f32sub (f32min a.2.2.2 b.2.2.2) (f32max a.2.1 b.2.1))
  let inter := f32mul ih iw
  (inter, f32sub (f32add (boxArea a) (boxArea b)) inter)

/-- The A object that a B object takes (R395): the candidate of the largest inter / union, ties to the lowest index. -/
def bestMatch (iou : Nat) (as : List (Nat × Option Box)) (used : List Nat) (cls : Nat) (b : Box) : Option Nat :=
  let cands := as.zipIdx.filterMap fun (x : (Nat × Option Box) × Nat) =>
    match x.1.2 with
    | some a =>
      let (inter, union) := interUnion a b
      if x.1.1 = cls ∧ ¬ used.contains x.2 ∧ FVal.lt (.fin false 0 0) (f32 union) ∧ ¬ (f32 inter).isNan ∧
          ¬ (f32 (f32mul iou union)).isNan ∧ ¬ (f32 inter).lt (f32 (f32mul iou union)) then some (f32div inter union, x.2) else none
    | none => none
  (cands.foldl (fun (best : Option (Nat × Nat)) c => match best with
    | some y => if (f32 y.1).lt (f32 c.1) then some c else some y
    | none => some c) none).map (·.2)

/-- Object mode (R395): agreement, unmatched B and unmatched A objects; none where a count is above 256. -/
def State.objVerdict (s : State) (k a b : Nat) : Option (Bool × Nat × Nat) :=
  let na := rdWord a 4
  let nb := rdWord b 4
  if 256 < na ∨ 256 < nb then none
  else
    let iou := fp32.encode (.fin false (s.rd (SAF_CMP_THR_RATIO k)) (-16))
    let as := (List.range na).map (objAt a)
    let used := (List.range nb).foldl (fun u j =>
      match objAt b j with
      | (c, some box) => match bestMatch iou as u c box with
        | some i => i :: u
        | none => u
      | _ => u) []
    let ub := nb - used.length
    let ua := na - used.length
    some (decide (ub ≤ s.rd (SAF_CMP_LIM_OBJ_MISS_MAX k) ∧ ua ≤ s.rd (SAF_CMP_LIM_OBJ_EXTRA_MAX k)), ub, ua)

/-- SAF_VERDICT (R391, R393 to R396): the oldest frame both channels have reported is judged. -/
def execSafVerdict (k : Fin 16) (s : State) : Out :=
  match s.readyOf k with
  | [] => .next s
  | f :: rest =>
    let s0 := s.setReady k rest
    let (ra, s1) := s0.readRec k 0 f
    let (rb, s2) := s1.readRec k 1 f
    match ra, rb with
    | some a, some b =>
      if anyPois a ∨ anyPois b then .next (s2.verdict k cmPoison (some f) none)
      else
        let na := leNum a
        let nb := leNum b
        if na % 2 ^ 32 ≠ f ∨ nb % 2 ^ 32 ≠ f then .next (s2.verdict k cmHeader (some f) none)
        else match s2.rd (SAF_CMP_CFG_MODE k) with
        | 0 => .next (s2.verdict k (if na = nb then cmAgree else cmData) (some f) none)
        | 1 =>
          let (ok, hi, lo) := s2.gridVerdict k a b
          .next (s2.verdict k (if ok then cmAgree else cmData) (some f) (some (hi, lo)))
        | _ => match s2.objVerdict k na nb with
          | some (ok, hi, lo) => .next (s2.verdict k (if ok then cmAgree else cmData) (some f) (some (hi, lo)))
          | none => .next (s2.verdict k cmData (some f) none)
    | _, _ => .next (s2.verdict k cmData (some f) none)

/-- COMPARATOR_TIMEOUT (R392): TMO µs have passed since the first report of the oldest pending frame; a TMO of 0 runs as 1. -/
def execComparatorTimeout (k : Fin 16) (s : State) : Out :=
  match s.pendOf k with
  | old :: rest =>
    if s.passed old.2.2 (max (s.rd (SAF_CMP_TMO_TMO k)) 1 * 1000) then
      .next ((s.setPend k rest).verdict k cmTimeout (some old.1) none)
    else .next s
  | [] => .next s

/-- BUILTIN_PAIR_CHECK (R397): a slot that is due judges its two built-in pairs; `right` where both verdicts are as they must be. -/
def execBuiltinPairCheck (k : Fin 16) (right : Bool) (s : State) : Out :=
  if mget (fun _ => false) s.saf.builtin k ∧ s.on (SAF_CMP_CFG_EN k) then
    let s1 := s.mSaf fun x => { x with builtin := mset (fun _ => false) x.builtin k false }
    .next (if right then s1 else s1.cause 12 (s.rd (SAF_CMP_CFG_APART k)) 16 k)
  else .next s

/-- Every enabled slot is due to judge its built-in pairs. -/
def State.builtinDue (s : State) : State :=
  s.mSaf fun x => { x with builtin := ((List.range 16).filter fun k => s.on (SAF_CMP_CFG_EN k)).map fun k => (k, true) }

/-! ### The gravity check (R398 to R401) -/

/-- The partitions whose cores run gravity checks (SAF_GRAV_CFG.PARTMASK; class-S bits read 1). -/
def State.gravPart (s : State) (p : Nat) : Bool :=
  bit (s.rd SAF_GRAV_CFG_PARTMASK) p || (s.on (PART_CFG_EN p) && s.classOf p == 0)

/-- A gravity failure of core c (R401). -/
def State.gravFail (s : State) (c : Nat) (missed : Bool) : State :=
  let s1 := s.bump SAF_GRAV_STAT_FAILS
  let s2 := if s1.on SAF_GRAV_STAT_FVALID then s1
    else ((s1.wr SAF_GRAV_STAT_FVALID 1).wr SAF_GRAV_STAT_MISSED (b2n missed)).wr SAF_GRAV_STAT_CORE c
  let s3 := (s2.mSaf fun x => { x with epochBad := true }).addVictim 0 (s.placeOf c)
  match s.coreOwner c with
  | some p => if s.classOf p = 0 then s3.cause 2 p c c else s3.wr SAF_WARN_GRAV_NONS 1
  | none => s3.wr SAF_WARN_GRAV_NONS 1

def State.gravActive (s : State) (c : Nat) : Bool := mget (fun _ => false) s.saf.active c
def State.gravResult (s : State) (c : Nat) : Nat := mget (fun _ => 0) s.saf.result c

/-- Judge the epoch that ends: missing results, arming's epoch, silent slots (R392, R401, R413). -/
def State.endEpoch (s : State) : State :=
  let s1 := ((List.range 256).filter fun c => s.gravActive c && s.gravResult c == 0).foldl (fun a c => a.gravFail c true) s
  let s2 := if s1.saf.armReq ∧ s1.saf.armFrom = 1 ∧ ¬ s1.saf.epochBad then s1.mSaf fun x => { x with armGood := true } else s1
  ((List.range 16).filter fun k => s2.on (SAF_CMP_CFG_EN k)).foldl (fun a k =>
    if ¬ a.on SAF_STATE_ARMED then a.mSaf fun x => { x with quiet := mset (fun _ => 0) x.quiet k 0 }
    else
      let n := mget (fun _ => 0) a.saf.quiet k + 1
      if 2 ≤ n then a.verdict k cmGap none none
      else a.mSaf fun x => { x with quiet := mset (fun _ => 0) x.quiet k n }) s2

/-- EPOCH_START (R392, R397, R398, R401). -/
def execEpochStart (s : State) : Out :=
  let r := s.timeAt (s.rd SAF_FRM_CFG_TS) s.stamp
  let st := s.rd SAF_FRM_START_START
  let e := (r - st) / max (s.rd SAF_FRM_PERIOD_PERIOD) 1
  if s.on SAF_FRM_CFG_EN ∧ st ≤ r ∧ (¬ s.saf.epochOn ∨ s.rd SAF_EPOCH_EPOCH < e) then
    let s1 := if s.saf.epochOn then s.endEpoch else s
    let cores := if s1.on SAF_GRAV_CFG_EN then (List.range 256).filter fun c => match s1.coreOwner c with
        | some p => s1.rd (PART_STATUS_STATE p) == stRunning && s1.gravPart p
        | none => false
      else []
    let n := s1.saf.epCount + 1
    let s2 := (s1.wr SAF_EPOCH_EPOCH e).mSaf fun x => { x with
      epochOn := true, epCount := n, epochBad := false, armFrom := if x.armReq then 1 else 0,
      active := cores.map fun c => (c, true), result := [], ran := [] }
    .next (if n % 1024 = 0 then s2.builtinDue else s2)
  else .next s

/-- The conditions of R400: the sequencer waits, and no engine works. -/
def State.idlePoint (s : State) (c : Nat) : Bool :=
  let k := s.rd (CORE_SEQ_STATUS_STALL c)
  decide (1 ≤ k ∧ k ≤ 5) && !s.on (CORE_SEQ_STATUS_V_BUSY c) && !s.on (CORE_SEQ_STATUS_M_BUSY c)

/-- Three quarters of the epoch have passed. -/
def State.lateEpoch (s : State) : Bool :=
  let p := s.rd SAF_FRM_PERIOD_PERIOD
  decide (3 * p ≤ 4 * (s.timeAt (s.rd SAF_FRM_CFG_TS) s.now - s.rd SAF_FRM_START_START - s.rd SAF_EPOCH_EPOCH * p))

/-- GRAVITY_RUN (R399, R400): core c runs the workload and sends its CRC. -/
def execGravityRun (c : Fin 256) (s : State) : Out :=
  if s.gravActive c ∧ ¬ mget (fun _ => false) s.saf.ran c ∧ s.awake c ∧ (s.idlePoint c ∨ s.lateEpoch) then
    let e := s.rd SAF_EPOCH_EPOCH
    let (n, s1) := s.draw
    let crc := (Config.gravityCrc n (s.rd (SAF_GRAV_SEED_SEED (e % 16)))).toNat
    let s2 := s1.mSaf fun x => { x with ran := mset (fun _ => false) x.ran c true }
    .next (s2.send ⟨.saf, c, epSaf, (s.coreOwner c).getD 0, 0, false, s.ownChip, .gravity e crc⟩)
  else .next s

/-- GRAVITY_RESULT (R401). -/
def execGravityResult (c : Fin 256) (s : State) : Out :=
  let isG (m : Msg) : Bool := m.cls == .saf && m.src == c.val && (match m.body with
    | .gravity .. => true
    | _ => false)
  match s.take isG with
  | some (m, s0) =>
    match m.body with
    | .gravity e crc =>
      if e ≠ s0.rd SAF_EPOCH_EPOCH ∨ ¬ s0.gravActive c then .next s0
      else
        let good := crc == s0.rd (SAF_GRAV_CRC_CRC (e % 16))
        let s1 := s0.mSaf fun x => { x with result := mset (fun _ => 0) x.result c (if good then 1 else 2) }
        .next (if good then s1 else s1.gravFail c false)
    | _ => .next s
  | none => .next s

/-! ### Floor turning and self-tests (R402 to R406) -/

def quadIdle : Nat → FtQuad := fun _ => ⟨0, 0, 0, 0, 0⟩
def State.quad (s : State) (q : Nat) : FtQuad := mget quadIdle s.saf.quads q
def State.setQuad (s : State) (q : Nat) (v : FtQuad) : State := s.mSaf fun x => { x with quads := mset quadIdle x.quads q v }
def State.sparesOf (s : State) (q : Nat) : List Nat := mget (fun _ => []) s.saf.spares q
def State.setSpares (s : State) (q : Nat) (l : List Nat) : State :=
  (s.mSaf fun x => { x with spares := mset (fun _ => []) x.spares q l }).wr (SAF_FT_QUAD_SPARES q) l.length

/-- The logical core behind a physical position. -/
def State.coreAt (s : State) (pos : Nat) : Option Nat := (List.range s.nCores).find? fun c => s.placeOf c == pos

/-- The position may be taken as a victim: it serves a core whose partition is not in FAULT (R405). -/
def State.victimOk (s : State) (pos : Nat) : Bool :=
  match s.coreAt pos with
  | some c => match s.coreOwner c with
    | some p => s.rd (PART_STATUS_STATE p) != stFault
    | none => true
  | none => false

/-- The quad's positions in sweep order: (column - 4q) × 17 + row. -/
def sweepPos (q i : Nat) : Nat := 16 * (i % 17) + 4 * q + i / 17

/-- The next victim of a quad: a priority one first, else the next of the sweep with its index there. -/
def State.pickVictim (s : State) (q : Nat) : Option (Nat × Option Nat) :=
  let pr := (s.saf.victims.filter fun v => quadOf v.2 == q && s.victimOk v.2).foldl
    (fun (b : Option (Nat × Nat)) v => match b with
      | some y => if 1000 * v.1 + v.2 < 1000 * y.1 + y.2 then some v else some y
      | none => some v) none
  match pr with
  | some v => some (v.2, none)
  | none =>
    let from' := mget (fun _ => 0) s.saf.nextVictim q
    ((List.range 68).map fun i => (from' + i) % 68).findSome? fun i =>
      if s.victimOk (sweepPos q i) then some (sweepPos q i, some i) else none

/-- Show a quad's victim and whether a step is in progress. -/
def State.showQuad (s : State) (q pos : Nat) (busy : Bool) : State :=
  (s.wr (SAF_FT_QUAD_VICTIM q) ((pos % 16 - 4 * q) * 17 + pos / 16)).wr (SAF_FT_QUAD_BUSY q) (b2n busy)

/-- The power domain of a physical position. -/
def posDom (pos : Nat) : Nat := 1 + 4 * (pos / 16) + pos % 16 / 4

/-- FT_STEP (R402, R403, R405, R511): a quad's step starts; the spare wakes and mirroring begins. -/
def execFtStep (q : Fin 4) (s : State) : Out :=
  let x := s.quad q
  if ¬ s.on SAF_FT_CFG_EN ∨ x.step ≠ 0 ∨ ¬ s.passed x.began (s.rd SAF_FT_CFG_PERIOD * 10 ^ 6) then .next s
  else
    match s.sparesOf q with
    | [] => .next (s.wr SAF_WARN_FT_NOSPARE 1)
    | spare :: _ =>
      match s.pickVictim q with
      | none => .next (s.setQuad q { x with began := s.now })
      | some (pos, _) =>
        let s1 := s.setQuad q ⟨1, pos, (s.coreAt pos).getD 0, spare, s.now⟩
        .next (((s1.wakeDom (posDom spare) 0).switchSpare spare true).showQuad q pos true)

/-- FT_HANDOVER (R403, R516): the victim's core moves to the spare at an idle point. -/
def execFtHandover (q : Fin 4) (s : State) : Out :=
  let x := s.quad q
  if x.step = 1 ∧ s.idlePoint x.core ∧ s.pwr.spareOn.contains x.spare ∧ s.domState (posDom x.spare) = 0 then
    let s1 := (s.mSaf fun y => { y with
      place := mset (fun k => k) y.place x.core x.spare, victims := y.victims.filter fun v => v.2 != x.victim }).setQuad q
        { x with step := 2 }
    let i := (x.victim % 16 - 4 * q) * 17 + x.victim / 16
    let swept := s.saf.victims.all fun v => v.2 != x.victim
    let s2 := if swept then s1.mSaf fun y => { y with nextVictim := mset (fun _ => 0) y.nextVictim q ((i + 1) % 68) } else s1
    let s3 := if swept ∧ i < mget (fun _ => 0) s.saf.nextVictim q then s2.bumpWrap SAF_FT_STAT_ROTATIONS 1 else s2
    .next (s3.mPwr fun y => { y with spareOn := y.spareOn.filter (· != x.spare) }).repower
  else .next s

/-- FT_HANDOVER_ABANDON (R403): no handover point came within HWIN. -/
def execFtHandoverAbandon (q : Fin 4) (s : State) : Out :=
  let x := s.quad q
  if x.step = 1 ∧ s.passed x.began (s.rd SAF_FT_CFG_HWIN * 10 ^ 6) then
    .next (((((s.setQuad q { x with step := 0 }).bump SAF_FT_STAT_SKIPS).wr SAF_WARN_FT_SKIP 1).showQuad q x.victim false).switchSpare
      x.spare false)
  else .next s

/-- A self-test's result (SAF_FT_RES). -/
def State.testDone (s : State) (pass : Bool) : State :=
  match s.saf.selfTest with
  | some (_, t, _) =>
    (((s.wr SAF_FT_RES_STATUS (if pass then 2 else 3)).wr SAF_FT_RES_TARGET t).wr SAF_FT_REQ_GO 0).mSaf fun x =>
      { x with selfTest := none }
  | none => s

/-- A position fails its BIST (R404): retired, logged, FTFAIL where it served a class-S partition. -/
def State.retire (s : State) (pos core : Nat) : State :=
  let s1 := (((s.mSaf fun y => { y with retired := y.retired ++ [pos] }).bump SAF_FT_STAT_RETIRED).wr SAF_WARN_FT_RETIRE 1).log 0x82 [pos]
  match s.coreOwner core with
  | some p => if s.classOf p = 0 then s1.cause 11 p core core else s1
  | none => s1

/-- FT_BIST_DONE (R404, R406): the victim's tests end. -/
def execFtBistDone (q : Fin 4) (pass : Bool) (s : State) : Out :=
  let x := s.quad q
  if x.step ≠ 2 then .next s
  else
    let rest := (s.sparesOf q).filter (· != x.spare)
    let s1 := ((s.setQuad q { x with step := 0 }).showQuad q x.victim false).switchSpare x.victim false
    let s2 := s1.mSaf fun y => { y with lastBist := mset (fun _ => 0) y.lastBist x.victim s.now }
    let s3 := if pass then s2.setSpares q (rest ++ [x.victim]) else (s2.setSpares q rest).retire x.victim x.core
    let s4 := if (s3.sparesOf q).isEmpty then s3.wr SAF_WARN_FT_NOSPARE 1 else s3
    .next (if s4.saf.selfTest = some (0, x.core, false) then s4.testDone pass else s4)

/-- FT_LATE (R404): a core's last BIST is older than 90 s. -/
def execFtLate (c : Fin 256) (s : State) : Out :=
  .next (if s.passed (mget (fun _ => 0) s.saf.lastBist (s.placeOf c)) (90 * 10 ^ 9) then s.wr SAF_WARN_FT_LATE 1 else s)

/-- The partition behind a self-test's target (R406): checkers are those of core memories, then slice groups. -/
def State.testOwner (s : State) (type t : Nat) : Option Nat :=
  match type with
  | 0 => s.coreOwner t
  | 1 => s.tunOwner t
  | _ => if t < 256 then s.coreOwner t else s.tunOwner ((t - 256) % 16)

/-- The target's partition is not RUNNING, or it has none. -/
def State.testFree (s : State) (type t : Nat) : Bool :=
  match s.testOwner type t with
  | some p => s.rd (PART_STATUS_STATE p) != stRunning
  | none => true

/-- Floor turning serves core tests of a quad. -/
def State.turns (s : State) (c : Nat) : Bool := s.on SAF_FT_CFG_EN && !(s.sparesOf (quadOf (s.placeOf c))).isEmpty

/-- A write of SAF_FT_REQ; `pass` is the outcome of a test that runs at once. -/
def State.ftRequest (s : State) (off v : Nat) (pass : Bool) : State :=
  s.writeThen off v fun t =>
    if ¬ bit v 31 then t
    else
      let type := bits v 29 28
      let tg := bits v 8 0
      if s.saf.selfTest.isSome ∨ s.rd SAF_FT_RES_STATUS = 1 ∨ s.rd SAF_FT_RES_STATUS = 4 then t.wr SAF_FT_RES_STATUS 5
      else
        let show' (a : State) (st : Nat) (defer : Bool) : State :=
          ((a.wr SAF_FT_RES_STATUS st).wr SAF_FT_RES_TARGET tg).mSaf fun x => { x with selfTest := some (type, tg, defer) }
        if type = 0 ∧ t.turns tg then (show' t 1 false).addVictim 3 (t.placeOf tg)
        else if t.testFree type tg then (show' t 1 false).testDone pass
        else show' t 4 true

/-- SAF_FT_REQ (R406, R418): the image, or a host whose slice's partition owns the target. -/
def execSafFtReq (req : Requester) (value : BitVec 32) (pass : Bool) (s : State) : Out :=
  let v := value.toNat
  let off := SAF_FT_REQ_GO.off
  match req with
  | .host sl =>
    if (s.slicePart sl).isSome ∧ s.testOwner (bits v 29 28) (bits v 8 0) = s.slicePart sl then .next (s.ftRequest off v pass)
    else .next (s.asWriter req off 4 fun a => a.ftRequest off v pass)
  | _ => .next (s.asWriter req off 4 fun a => a.ftRequest off v pass)

/-- SELFTEST_DEFERRED_RUN (R406): the condition of the deferred test holds. -/
def execSelftestDeferredRun (pass : Bool) (s : State) : Out :=
  match s.saf.selfTest with
  | some (type, t, true) =>
    if type = 0 ∧ s.turns t then
      .next (((s.wr SAF_FT_RES_STATUS 1).mSaf fun x => { x with selfTest := some (type, t, false) }).addVictim 3 (s.placeOf t))
    else if s.testFree type t then .next (s.testDone pass) else .next s
  | _ => .next s

/-! ### Causes, arming (R34, R36, R407 to R413) -/

/-- TRIP_IN_ASSERT (R34, R36, R305): TRIP_IN_n[k] is sampled low. -/
def execTripInAssert (k : Fin 2) (s : State) : Out :=
  let s1 := s.mSaf fun x => { x with tripLow := mset (fun _ => false) x.tripLow k true }
  let s2 := (List.range 24).foldl (fun a p =>
    if bit (a.rd (CTL_PWM_CFG_TRIPIN p)) k then a.wr (CTL_PWM_STAT_TRIPIN_LATCH p) 1 else a) s1
  let s3 := s2.tripWhere tcTripin fun a h => match a.pairOf h with
    | some p => bit (a.rd (CTL_PWM_CFG_TRIPIN p)) k
    | none => false
  .next (if s.on SAF_STATE_TRIPLATCH then s3 else s3.cause 0 0 k 0)

/-- FRAME_FLAG (R409): a frame's flags, or MISSING, reach SAF. -/
def execFrameFlag (s : State) : Out :=
  let isF (m : Msg) : Bool := m.cls == .saf && (match m.body with
    | .frame .. => true
    | _ => false)
  match s.take isF with
  | some (m, s0) =>
    match m.body with
    | .frame t flags missing =>
      if ¬ bit (s0.rd SAF_FRZ_MASK_MASK) t then .next s0
      else
        let set (a : State) (n : Nat) : State := a.mSaf fun x => { x with frzRun := mset (fun _ => 0) x.frzRun t n }
        if flags = 0 ∧ ¬ missing then .next (set s0 0)
        else
          let n := mget (fun _ => 0) s0.saf.frzRun t + 1
          let lim := s0.rd SAF_FRZ_CFG_LIMIT
          let s1 := set s0 n
          .next (if lim ≠ 0 ∧ lim ≤ n then s1.cause 5 m.part srcIng t else s1.wr SAF_WARN_FRAME_FLAG 1)
    | _ => .next s
  | none => .next s

/-- SWEEP_DONE (R412): every clear is acknowledged. -/
def execSweepDone (s : State) : Out :=
  if s.saf.sweeping then .next ((s.wr SAF_STATE_SWEEP_DONE 1).mSaf fun x => { x with sweeping := false }) else .next s

/-- PINMON (R407, R411): the pad of SAFE_A_n (false) or SAFE_B (true) differs from its output register for 1 µs. -/
def execPinmon (b : Bool) (s : State) : Out :=
  let s1 := s.cause 10 0 0 (b2n b)
  .next (if b then s1.wr SAF_STATE_PIN_B (b2n !s1.saf.outB) else s1.wr SAF_STATE_PIN_A (b2n !s1.saf.outA))

/-- The slot checks of R388. -/
def State.slotsOk (s : State) : Bool :=
  let sPart (p : Nat) : Bool := s.on (PART_CFG_EN p) && s.classOf p == 0
  let streams := (List.range 32).filter fun t => s.on (SAF_STR_CFG_EN t)
  (List.range 16).all (fun k =>
    let a := s.rd (SAF_CMP_CFG_APART k)
    let b := s.rd (SAF_CMP_CFG_BPART k)
    !s.on (SAF_CMP_CFG_EN k) || (sPart a && sPart b && (s.rd (SAF_CMP_CFG_MODE k) == 0 || (a != b && decide (32 ≤ (s.coresOf b).length))) &&
      streams.all fun t => s.rd (SAF_STR_CFG_SLOT t) != k ||
        s.tunOwned a (s.rd (SAF_STR_BASE_ADDR t)) ((s.rd (SAF_STR_CFG_NREC t) + 1) * s.rd (SAF_STR_CFG_STRIDE t) * 64))) &&
    decide (streams.foldl (fun n t => n + s.rd (SAF_STR_CFG_NREC t) + 1) 0 ≤ 1024)

/-- ARM with its key (R413). -/
def State.arm (s : State) : State :=
  if s.rd SAF_CAUSE_CAUSE ≠ 0 ∨ s.tripPins ≠ 0 ∨ ¬ s.slotsOk then s.wr SAF_WARN_CFG_ERR 1
  else ((s.wr SAF_STATE_TRIPLATCH 0).mSaf fun x => { x with
    armReq := true, armGood := false, armFrom := 0, epochBad := false, epCount := 0, result := [], active := [], ran := [] }).builtinDue

/-- A write of SAF_CTL (R407, R413, R418). -/
def State.writeSafCtl (s : State) (v : Nat) : State :=
  if bits v 31 16 ≠ 0x5AF3 then s
  else
    let s1 := if bit v 1 then s.cause 15 0 0 0 else s
    if bit v 0 then s1.arm else s1

/-- ARM (R388, R413). -/
def execArm (req : Requester) (value : BitVec 32) (s : State) : Out :=
  if bit value.toNat 0 then .next (s.asWriter req SAF_CTL_ARM.off 4 fun a => a.writeSafCtl value.toNat) else .next s

/-- ENTER (R407). -/
def execEnter (req : Requester) (value : BitVec 32) (s : State) : Out :=
  if bit value.toNat 1 then .next (s.asWriter req SAF_CTL_ARM.off 4 fun a => a.writeSafCtl value.toNat) else .next s

/-! ### Failover (R414 to R416) -/

/-- The pins hold safe levels without the safe state (R411). -/
def State.pinsSafe (s : State) : State :=
  (((s.wr SAF_STATE_ARMED 0).wr SAF_STATE_PIN_A 0).wr SAF_STATE_PIN_B 1).mSaf fun x => { x with outA := false, outB := true, armReq := false }

/-- Set or clear ACTIVE (R411, R414). -/
def State.setActive (s : State) (on : Bool) : State :=
  let s1 := (s.wr SAF_STATE_ACTIVE (b2n on)).wr SAF_FO_STAT_ACTIVE (b2n on)
  if on then s1 else s1.pinsSafe

/-- The manager's chip number. -/
def State.managerChip (s : State) : Nat := s.rd LNK_STATE_MANAGER

/-- HEARTBEAT_SEND (R415): every 1 ms, to the manager and the deputy. -/
def execHeartbeatSend (s : State) : Out :=
  if s.on SAF_FO_CFG_EN ∧ s.passed s.saf.hbSent (10 ^ 6) then
    let dests := dedup [s.managerChip, s.rd SAF_FO_CFG_DEPUTY]
    let s1 := s.mSaf fun x => { x with hbSent := s.now }
    .next (dests.foldl (fun a k => if k = a.ownChip then a
      else a.emit (.heartbeat k (a.on SAF_STATE_SAFE) (a.on SAF_STATE_ARMED) (a.on SAF_STATE_ACTIVE))) s1)
  else .next s

/-- This device judges the others: it is the manager, or the deputy of a manager missed 5 times (R415). -/
def State.judges (s : State) : Bool :=
  s.managerChip == s.ownChip ||
    (s.rd SAF_FO_CFG_DEPUTY == s.ownChip && decide (5 ≤ mget (fun _ => 0) s.saf.hbMissed s.managerChip))

/-- An active device is declared lost (R415): DEMOTE to it, PROMOTE to its partner. -/
def State.declareLost (s : State) (k : Nat) : State :=
  let mate := if k = s.ownChip then s.rd SAF_FO_CFG_PARTNER
    else if k = s.rd SAF_FO_CFG_PARTNER then s.ownChip else (Config.partnerOf k).toNat
  let s1 := ((s.wr SAF_FO_STAT_LOST_SEEN 1).mSaf fun x => { x with hbActive := mset (fun _ => false) x.hbActive k false }).emit (.demote k)
  if mate = s.ownChip then ((s1.setActive true).wr SAF_FO_STAT_FROM s.ownChip).bump SAF_FO_STAT_FAILOVERS else s1.emit (.promote mate)

/-- HEARTBEAT_RECEIVE (R415): a heartbeat of a chip (its SAFE and ACTIVE), or its absence for 1 ms; `bypassed` where the ring
reports the chip in bypass. -/
def execHeartbeatReceive (chip : Fin 8) (beat : Option (Bool × Bool)) (bypassed : Bool) (s : State) : Out :=
  if ¬ s.on SAF_FO_CFG_EN ∨ chip.val = s.ownChip ∨ (beat.isNone ∧ s.on LNK_STATE_RETRAIN) then .next s
  else
    let n := if beat.isSome then 0 else mget (fun _ => 0) s.saf.hbMissed chip + 1
    let s1 := s.mSaf fun x => { x with hbMissed := mset (fun _ => 0) x.hbMissed chip n }
    let wasActive := mget (fun _ => false) s1.saf.hbActive chip || (match beat with
      | some (_, a) => a
      | none => false)
    let s2 := s1.mSaf fun x => { x with hbActive := mset (fun _ => false) x.hbActive chip (match beat with
      | some (_, a) => a
      | none => mget (fun _ => false) x.hbActive chip) }
    let safe : Bool := match beat with
      | some (sf, _) => sf
      | none => false
    .next (if s2.judges ∧ wasActive ∧ (safe ∨ bypassed ∨ 5 ≤ n) then s2.declareLost chip else s2)

/-- DEMOTE (R415): a DEMOTE message reaches this device. -/
def execDemote (chip : Fin 8) (s : State) : Out :=
  .next (if s.on SAF_FO_CFG_EN then (s.setActive false).wr SAF_FO_STAT_FROM chip else s)

/-- PROMOTE (R415). -/
def execPromote (chip : Fin 8) (s : State) : Out :=
  .next (if s.on SAF_FO_CFG_EN then ((s.setActive true).wr SAF_FO_STAT_FROM chip).bump SAF_FO_STAT_FAILOVERS else s)

/-- The behaviour of a self-demotion (R416). -/
def State.selfDemote (s : State) (data : Nat) : State := (s.setActive false).cause 14 0 0 data

/-- SELF_DEMOTION (R416): 3 heartbeats in a row missed from the manager and the deputy. -/
def execSelfDemotion (s : State) : Out :=
  let miss (k : Nat) : Bool := k != s.ownChip && decide (3 ≤ mget (fun _ => 0) s.saf.hbMissed k)
  if s.on SAF_FO_CFG_EN ∧ s.on SAF_STATE_ACTIVE ∧ miss s.managerChip ∧ miss (s.rd SAF_FO_CFG_DEPUTY) then .next (s.selfDemote 0)
  else .next s

/-! ### Other writes of SAF -/

/-- A write of any register of SAF (R404, R411, R412, R414, R418). -/
def State.writeSaf (s : State) (off v : Nat) : State :=
  if off = SAF_CTL_ARM.off then s.writeSafCtl v
  else if off = SAF_FT_REQ_GO.off then s.draw.2.ftRequest off v (Config.bistPass s.draw.1)
  else if off = SAF_FT_CFG_EN.off then
    if bit v 31 ∧ (bits v 26 16 < 500 ∨ 1300 < bits v 26 16 ∨ bits v 9 0 < 10 ∨ bits v 26 16 - 300 < bits v 9 0) then s.cfgRefuse off
    else s.writeThen off v id
  else if off = SAF_FO_CFG_EN.off then
    s.writeThen off v fun t => t.setActive (!t.on SAF_FO_CFG_EN || !t.on SAF_FO_CFG_STANDBY)
  else if 0x402000 ≤ off ∧ off < 0x402200 ∧ off % 0x10 = 8 then
    if bit v 31 ∧ bits v 18 8 * 64 < bits v 7 0 * 4 + 4 then s.cfgRefuse off else s.writeThen off v id
  else s.writeThen off v id

end Sys2Proof.Machine
end

