-- ==== Sys2Proof/Machine/Loader.lean ====
section
/-! DEFINITION. The loader (R120 to R123, R138, R345, R382, R586): the checks of a plan binary in their order, and the
release of a partition's cores. -/

namespace Sys2Proof.Machine

/-! ### Refusal codes (R121) -/
def refDigest : Nat := 0x01
def refTarget : Nat := 0x02
def refCores : Nat := 0x03
def refChips : Nat := 0x04
def refBinding : Nat := 0x08
def refCert : Nat := 0x09
def refSize : Nat := 0x0A
def refLoop : Nat := 0x0B
def refVersion : Nat := 0x0C

/-! ### Sections -/

/-- A core's section as numbers. -/
def secWords (x : CoreSection) : List Nat := x.words.map (·.toNat)
/-- The plan region ends here (R120). -/
def planEnd (x : CoreSection) : Nat := 16 * x.words.length
def secWin (x : CoreSection) (w : Nat) : Nat := (x.windows.getD w 0).toNat
def secCrd (x : CoreSection) (e : Nat) : Nat := (x.credits.getD e 0).toNat
def wValid (v : Nat) : Bool := bit v 31
def wGuard (v : Nat) : Bool := bit v 30
def wOffset (v : Nat) : Nat := bits v 20 0
def wSlots (v : Nat) : Nat := bits v 55 48 + 1
def wUnits (v : Nat) : Nat := bits v 46 32
def cDst (v : Nat) : Nat := bits v 7 0
def cWin (v : Nat) : Nat := bits v 11 8
def cGuarded (v : Nat) : Bool := bit v 30
def cInit (v : Nat) : Nat := bits v 63 32
def PlanBinary.sec (b : PlanBinary) (c : Nat) : Option CoreSection := b.cores.find? fun x => x.core == c

/-- Some two of a list's elements, at different places, satisfy a test. -/
def somePair {α : Type} (p : α → α → Bool) : List α → Bool
  | [] => false
  | x :: t => t.any (p x) || somePair p t

/-- Check 6: sections fit, do not overlap, and the plan region lies in declared banks (R121). -/
def sizeBad (b : PlanBinary) : Bool :=
  let spans (x : CoreSection) : List (Nat × Nat) := (0, planEnd x) :: x.consts.map fun k => (k.1, k.1 + k.2.length)
  decide (b.cores.length ≠ b.count.toNat) || somePair (fun x y => x.core == y.core) b.cores ||
    b.cores.any fun x =>
      (spans x).any (fun r => decide (0x180000 < r.2)) ||
      somePair (fun r q => decide (r.1 < q.2 ∧ q.1 < r.2)) (spans x) ||
      (List.range 12).any fun k => decide (k * 0x20000 < planEnd x) && !bit x.banks.toNat k

/-! ### Check 7: the window-table section (R138, R586) -/

/-- The windows and entries of one core are illegal in themselves. -/
def winBad (x : CoreSection) : Bool :=
  let ws := (List.range 16).map (secWin x)
  let es := (List.range 32).map (secCrd x)
  let live := ws.filter wValid
  decide (x.flag.toNat / 2 ≠ 0) ||
    ws.any (fun v => !wValid v && decide (v ≠ 0)) || es.any (fun v => !wValid v && decide (v ≠ 0)) ||
    live.any (fun v => decide (0x180000 < wOffset v + 64 * wUnits v ∨ wOffset v < planEnd x) ||
      (wGuard v && (decide (wSlots v < 2) || decide (wUnits v % wSlots v ≠ 0)))) ||
    somePair (fun v u => decide (wOffset v < wOffset u + 64 * wUnits u ∧ wOffset u < wOffset v + 64 * wUnits v)) live ||
    somePair (fun v u => cDst v == cDst u && cWin v == cWin u) (es.filter wValid) ||
    (secWords x).any fun w => decide (wOp w = 0x31) &&
      !es.any (fun v => wValid v && cDst v == bits w 39 32 && cWin v == bits w 44 40)

/-- All valid credit entries of the plan. -/
def PlanBinary.entries (b : PlanBinary) : List Nat :=
  b.cores.flatMap fun x => ((List.range 32).map (secCrd x)).filter wValid

/-- The window an entry names, where it is valid. -/
def PlanBinary.named (b : PlanBinary) (v : Nat) : Option Nat :=
  match b.sec (cDst v) with
  | some x => if wValid (secWin x (cWin v)) then some (secWin x (cWin v)) else none
  | none => none

/-- Entries disagree with the windows they name, or with one another. -/
def creditBad (b : PlanBinary) : Bool :=
  b.entries.any fun v =>
    match b.named v with
    | none => true
    | some w =>
      let same := b.entries.filter fun u => cDst u == cDst v && cWin u == cWin v
      cGuarded v != wGuard w || decide (wUnits w < same.foldl (fun a u => a + cInit u) 0) ||
        (wGuard w && (decide (1 < same.length) || decide (cInit v % max (wUnits w / wSlots w) 1 ≠ 0)))

/-- Check 7 (R86, R121, R586): the first code that applies. -/
def fieldCheck (b : PlanBinary) : Option Nat :=
  if b.reserved ≠ 0 ∨ b.arith.toNat / 8 ≠ 0 then some refReserved
  else
    let ordered := (List.range 256).filterMap b.sec
    match ordered.findSome? fun x => (secWords x).findSome? wordCheck with
    | some e => some e
    | none => if b.cores.any winBad || creditBad b then some refField else none

/-! ### Checks 8 and 9 -/

/-- The loop structure of a plan: depth now, whether the last word opened a loop, whether it holds so far (R108). -/
def loopScan : List Nat → Nat → Bool → Bool
  | [], d, _ => d == 0
  | w :: t, d, fresh =>
    if wOp w = 0x04 then decide (d < 4) && loopScan t (d + 1) true
    else if wOp w = 0x05 then decide (0 < d) && !fresh && loopScan t (d - 1) false
    else if wOp w = 0x02 then decide (d = 0) && loopScan t d false
    else loopScan t d false

/-- Check 9: bindings and barrier membership (R94, R96, R109). -/
def bindBad (b : PlanBinary) : Bool :=
  b.cores.any fun x =>
    let port (v k : Nat) : Nat := bits v (2 * k + 1) (2 * k)
    let transfer (v : Nat) : Bool := (List.range 12).all fun k => !bit x.banks.toNat k || port v k == pTransfer
    (List.range 12).any (fun k => port x.bind.toNat k == 3) || !transfer x.bind.toNat ||
      (secWords x).any fun w => (decide (wOp w = 0x02) && !transfer (bits w 31 8)) ||
        (decide (wOp w = 0x07) && !b.barriers.any fun m => m.1 == bits w 11 8 && bit m.2.toNat x.core)

/-! ### Check 10: the certificate (R122, R382) -/

/-- The loops around word n of a plan, outermost first: the LOOP's index and its iterations. -/
def loopsAround (words : List Nat) (n : Nat) : List (Nat × Nat) :=
  (words.zipIdx.take n).foldl (fun st p =>
    if wOp p.1 = 0x04 then st ++ [(p.2, bits p.1 23 8 + 1)] else if wOp p.1 = 0x05 then st.dropLast else st) []

/-- The loops around an item. -/
def PlanBinary.nest (b : PlanBinary) (i : CertItem) : List (Nat × Nat) :=
  match b.sec i.core with
  | some x => loopsAround (secWords x) i.word
  | none => []

/-- An affine function at an iteration. -/
def Affine.eval (f : Affine) (it : List Nat) : Int :=
  f.base + ((f.coef.zip it).map fun p => p.1 * (p.2 : Int)).sum

/-- Every iteration vector of a nest. -/
def iterations : List (Nat × Nat) → List (List Nat)
  | [] => [[]]
  | (_, n) :: t => (List.range n).flatMap fun i => (iterations t).map fun r => i :: r

/-- The producer iterations that an edge counts for one iteration of its wait. -/
def counted (e : CertEdge) (nest : List (Nat × Nat)) (w : List Nat) : List (List Nat) :=
  (iterations nest).filter fun it => it.zipIdx.all fun p =>
    (match e.lo[p.2]? with
      | some f => decide (f.eval w ≤ (p.1 : Int))
      | none => true) &&
    (match e.hi[p.2]? with
      | some f => decide ((p.1 : Int) ≤ f.eval w)
      | none => true)

/-- How many outer loops two items share: the same loops of one core. -/
def sharedLoops (b : PlanBinary) (x y : CertItem) : Nat :=
  if x.core = y.core then (((b.nest x).zip (b.nest y)).takeWhile fun p => p.1.1 == p.2.1).length else 0

/-- The ranks along an edge rise for every pair it relates (R122). -/
def edgeRises (b : PlanBinary) (e : CertEdge) : Bool :=
  match b.cert.items[e.prod]?, b.cert.items[e.wait]? with
  | some p, some w =>
    let k := sharedLoops b p w
    (iterations (b.nest w)).all fun wi => (counted e (b.nest p) wi).all fun pi =>
      pi.take k != wi.take k || decide (p.rank.eval pi < w.rank.eval wi)
  | _, _ => false

/-- Every instance of a WAITCNT is reached by what its edges count (R107, R122). -/
def waitReached (b : PlanBinary) (n : Nat) (i : CertItem) : Bool :=
  match b.sec i.core with
  | none => false
  | some x =>
    let v := bits ((secWords x).getD i.word 0) 63 32
    i.kind != .wait || (iterations (b.nest i)).all fun wi =>
      let total : Nat := (b.cert.edges.filter fun e => e.wait == n).foldl (fun (a : Nat) e =>
        match b.cert.items[e.prod]? with
        | some p => a + e.amount * (counted e (b.nest p) wi).length
        | none => a) 0
      Nat.blt ((total + 2 ^ 32 - v) % 2 ^ 32) (2 ^ 31)

/-- The kind of certificate item a word needs (R122). -/
def neededKind (w : Nat) : Option CertKind :=
  match wOp w with
  | 0x0A => some .wait
  | 0x31 => some .credNeed
  | 0x07 => some .barrier
  | _ => none

/-- The certificate fails a condition of R122 or R382. -/
def certBad (b : PlanBinary) (relaxed : Bool) : Bool :=
  let choice := b.cert.choice
  b.cores.any (fun x => (secWords x).zipIdx.any fun p => match neededKind p.1 with
    | some k => !b.cert.items.any fun i => i.core == x.core && i.word == p.2 && i.kind == k
    | none => false) ||
  !b.cert.edges.all (edgeRises b) ||
  !b.cert.items.zipIdx.all (fun p => waitReached b p.2 p.1) ||
  (!choice.isEmpty && !relaxed) ||
  b.cores.any (fun x => decide (32 < (choice.filter fun k => k.1 == x.core).length)) ||
  choice.any fun k => match b.sec k.1 with
    | some x => match (secWords x)[k.2]? with
      | some w => decide (wOp w ≠ 0x34)
      | none => true
    | none => true

/-! ### The checks in order (R121) -/

/-- The chips in the system: the members of the map, this device at least. -/
def State.chipCount (s : State) : Nat := max (setBitsOf 8 (s.rd LNK_MAP_MEMBERS)).length 1

/-- Cores of a target (R8, R9). -/
def targetCores (t : Nat) : Option Nat := if t = 0x9256 then some 256 else if t = 0x9224 then some 224 else none

/-- The first check that a plan fails for partition p, as its code. -/
def State.loadCheck (s : State) (p : Nat) (b : PlanBinary) : Option Nat :=
  let mcif := s.sys.mcif
  let cap := min ((targetCores b.target.toNat).getD 0) s.nCores
  let own := s.coresOf p
  if b.magic ≠ 0x4C50434F ∨ b.digest ≠ b.bodyDigest then some refDigest
  else if ¬ (0x0300 ≤ b.fmt.toNat ∧ b.fmt.toNat ≤ 0x0302) ∨
      ¬ (b.mcif.toNat / 256 = mcif / 256 ∧ b.mcif.toNat % 256 ≤ mcif % 256) then some refVersion
  else if cap < b.count.toNat ∨ cap = 0 ∨ b.cores.any (fun x => decide (cap ≤ x.core)) then some refTarget
  else if b.count.toNat ≠ own.length ∨ b.cores.any (fun x => !own.contains x.core) then some refCores
  else if b.chips.toNat ≠ s.chipCount then some refChips
  else if sizeBad b then some refSize
  else match fieldCheck b with
  | some e => some e
  | none =>
    if b.cores.any (fun x => !loopScan (secWords x) 0 false) then some refLoop
    else if bindBad b then some refBinding
    else if certBad b (s.on (PART_DET_CFG_RELAXED p)) then some refCert
    else none

/-! ### Release (R123) -/

/-- Initial credit of the single sender of a guarded window, in slots (R143). -/
def PlanBinary.initSlots (b : PlanBinary) (c w v : Nat) : Nat :=
  match b.entries.find? fun u => cDst u == c && cWin u == w with
  | some u => cInit u / max (wUnits v / wSlots v) 1
  | none => 0

/-- Load one core's sections and registers. -/
def State.loadCore (s : State) (b : PlanBinary) (x : CoreSection) : State :=
  let c := x.core
  let s1 := s.writeRun (coreKey c 0) (x.words.flatMap fun w => leBytes 16 w.toNat)
  let s2 := x.consts.foldl (fun a k => a.writeRun (coreKey c k.1) (k.2.map fun v => (v, false))) s1
  let s3 := (List.range 32).foldl (fun a n => a.wr (CORE_CNT_VALUE c n) 0) s2
  let s4 := (List.range 32).foldl (fun a e =>
    (a.setWord (CORE_CRD_TGT_VALID c e).off (setBits (secCrd x e % 2 ^ 32) 29 15 0)).setWord (CORE_CRD_BAL_CREDIT c e).off
      (cInit (secCrd x e))) s3
  let s5 := (List.range 16).foldl (fun a w =>
    (a.setWord (CORE_WIN_BASE_VALID c w).off (secWin x w % 2 ^ 32)).setWord (CORE_WIN_GEOM_UNITS c w).off (secWin x w / 2 ^ 32)) s4
  let s6 := (List.range 16).foldl (fun a i => a.setSlot c i (agReset 0)) s5
  let s7 := (s6.mCore fun y => { y with
    slots := mdrop y.slots fun k => k / 4096 == c, dcur := mdrop y.dcur fun k => k / 16 == c,
    loops := mset (fun _ => []) y.loops c [], stopped := mset (fun _ => false) y.stopped c false,
    debug := mset (fun _ => false) y.debug c (bit x.flag.toNat 0), planBanks := mset (fun _ => 0) y.planBanks c x.banks.toNat,
    choice := mdrop y.choice fun k => k / 2 ^ 24 == c })
  let s8 := (List.range 16).foldl (fun a w =>
    let v := secWin x w
    let k := b.initSlots c w v
    if wValid v ∧ wGuard v then
      ((List.range k).foldl (fun t i => t.setGslot c w i ⟨0, 1, 0⟩) a).setDcur c w (k % wSlots v)
    else a) s7
  let s9 := (b.cert.choice.filter fun k => k.1 == c).foldl (fun a k =>
    a.mCore fun y => { y with choice := mset (fun _ => false) y.choice (c * 2 ^ 24 + k.2) true }) s8
  ((((((s9.wr (CORE_BIND_BIND c) x.bind.toNat).setWord (CORE_ARITH_CFG_ACCSAT_FAULT c).off (b.arith.toNat % 8)).wr
    (CORE_PLAN_ID_DIGEST c) (b.digest.toNat % 2 ^ 32)).wr (CORE_PC_WORD c) 0).setWord (CORE_SEQ_STATUS_STALL c).off 0).wr
    (CORE_GUARD_BYPASS_COUNT c) 0).wr (CORE_STATE_STATE c) 1

/-- Clear DET_CHOICES and PART_DET_STAT of a partition (R383). -/
def State.detClear (s : State) (p : Nat) : State := (s.wr (DET_CHOICES_COUNT p) 0).setWord (PART_DET_STAT_CHOICE p).off 0

/-- The load itself: refused with a code, or the cores of p are released together. -/
def State.loadPlan (s : State) (p : Nat) (b : PlanBinary) : State :=
  match s.loadCheck p b with
  | some e => (s.wr (PART_STATUS_LOADREF p) e).wr PART_EVENT_LOADREF 1
  | none =>
    let s1 := b.cores.foldl (fun a x => a.loadCore b x) s
    let s2 := s1.mCore fun y => { y with
      barMask := b.barriers.foldl (fun m k => mset (fun _ => 0) m (16 * p + k.1) k.2.toNat) (mdrop y.barMask fun k => k / 16 == p),
      barHere := mdrop y.barHere fun k => k / 16 == p }
    let s3 := s2.mPart fun y => { y with plan := mset (fun _ => none) y.plan p (some b) }
    ((s3.detClear p).wr (PART_STATUS_LOADREF p) 0).wr (PART_STATUS_STATE p) stRunning

/-- Whose load of partition p the loader takes (R121): the image's, the debug port's in its place, or that of a slice of p. -/
def State.mayLoad (s : State) (req : Requester) (p : Nat) : Bool :=
  match req with
  | .image => true
  | .debug => s.on SYS_DBG_OPEN
  | .host sl => s.sliceOf sl p
  | .plan _ => false

end Sys2Proof.Machine
end

