-- ==== Sys2Proof/Machine/Admin.lean ====
section
/-! DEFINITION. Admin completions of the host's slices (R431, R432) and the freeze state of a partition (R435). -/

namespace Sys2Proof.Machine

def State.mVms (s : State) (f : VmsSt → VmsSt) : State := { s with vms := f s.vms }

/-- The plan loaded into partition p. -/
def State.planOf (s : State) (p : Nat) : Option PlanBinary := mget (fun _ => none) s.part.plan p

/-! ### Status codes (R432) -/
def asOk : Nat := 0
def asState : Nat := 0x20
def asNoFreeze : Nat := 0x21
def asTimeout : Nat := 0x22
def asAborted : Nat := 0x23
def asMismatch : Nat := 0x24
def asDigest : Nat := 0x25
def asAccess : Nat := 0x26
def asOpcode : Nat := 0x27

/-- The freeze state of partition p: 0 NONE, 1 FREEZING, 2 FROZEN, 3 RESTORING. -/
def State.frz (s : State) (p : Nat) : Nat := bits (s.rd VMS_FRZ_STAT_STATE) (2 * p + 1) (2 * p)
def State.setFrz (s : State) (p v : Nat) : State :=
  (s.wr VMS_FRZ_STAT_STATE (setBits (s.rd VMS_FRZ_STAT_STATE) (2 * p + 1) (2 * p) v)).mPart fun y =>
    { y with frozen := mset (fun _ => false) y.frozen p (decide (v = 1 ∨ v = 2)) }

/-- Write the completion entry of a slice's command, advance ACIDX, send ACMP_VEC (R431). -/
def State.adminDone (s : State) (c tag status data : Nat) : State :=
  let n := s.rd (VMS_SL_ACIDX_INDEX c)
  let a := s.rd (VMS_SL_ACQ_ADDR c) + n % 2 ^ s.rd (VMS_SL_ACFG_LOG2SIZE c) * 16
  let s1 := s.emit (.hostWrite a (leBytes 2 tag ++ leBytes 2 status ++ leBytes 4 data ++ leBytes 8 s.now))
  let s2 := (s1.bumpWrap (VMS_SL_ACIDX_INDEX c) 1).wr (VMS_ACIDX_MIRROR_INDEX c) ((n + 1) % 2 ^ 32)
  let s3 := s2.mVms fun y => { y with last := c, busy := none }
  if s3.on (VMS_SL_VEC_AEN c) then s3.msix c (s3.rd (VMS_SL_VEC_ACMP_VEC c)) else s3

/-- A load of partition p has ended: the admin command that asked for it completes, with 0 or the refusal code. -/
def State.loadEnded (s : State) (p : Nat) : State :=
  match s.vms.busy with
  | some b => if b.part = p ∧ ¬ b.freeze then s.adminDone b.slice b.tag (s.rd (PART_STATUS_LOADREF p)) 0 else s
  | none => s

end Sys2Proof.Machine
end

