-- ==== Sys2Proof/Machine/Partition.lean ====
section
/-! DEFINITION. Partitions (R344 to R360, R381, R383): enabling, the time slots, loading, stopping, and the reset. -/

namespace Sys2Proof.Machine

/-! ### Writes of ownership and configuration -/

/-- Words of the ownership tables, and of the fields that depend on them (R349). -/
def ownTable (off : Nat) : Bool := decide (0x600010 ≤ off ∧ off < 0x6000BC)

/-- The write would take a core or slice group from an enabled partition. -/
def State.takesOwner (s t : State) : Bool :=
  let live (p : Nat) : Bool := s.on (PART_CFG_EN p)
  (List.range 256).any (fun c => match s.coreOwner c with
    | some p => live p && t.coreOwner c != some p
    | none => false) ||
  (List.range 16).any fun g => match s.tunOwner g with
    | some p => live p && t.tunOwner g != some p
    | none => false

/-- A write of an ownership register (R349, R516). -/
def State.writeOwn (s : State) (off v : Nat) : State :=
  s.writeIf off v fun s0 put =>
    if s0.takesOwner (put s0) ∨ (off = 0x6000AC ∧ s0.nCores = 224 ∧ v ≠ 0) then s0.cfgRefuse off else (put s0).repower

/-- The read grants of partition p satisfy R348: a class-S partition reads only groups of class-S partitions. -/
def State.grantsOk (s : State) (p cls : Nat) : Bool :=
  cls != 0 || (setBitsOf 16 (s.rd (PART_TUN_RD_MASK p))).all fun g => match s.tunOwner g with
    | some q => s.classOf q == 0 || q == p
    | none => false

/-- Partition p owns an excluded slice group or channel, or a window on one (R543). -/
def State.ownsExcluded (s : State) (p : Nat) : Bool :=
  s.memory.excluded.any fun i =>
    if 512 ≤ i then bit (s.rd (PART_LP_CHMASK_MASK p)) (i - 512) ||
      (List.range 16).any fun w => s.on (MEM_LPW_CFG_EN w) && !s.on (MEM_LPW_CFG_DEV w) && s.rd (MEM_LPW_CFG_OWNER w) == p &&
        bit (s.rd (MEM_LPW_MAP_CHMASK w)) (i - 512)
    else decide (256 ≤ i) && s.tunOwner ((i - 256) / 16) == some p

/-- The conditions of R349 and R350 on enabling partition p in class cls. -/
def State.enableOk (s : State) (p cls : Nat) : Bool :=
  let mask := s.rd (PART_LP_CHMASK_MASK p)
  !(s.coresOf p).isEmpty &&
  (List.range 16).all (fun w => !(s.on (MEM_LPW_CFG_EN w) && !s.on (MEM_LPW_CFG_DEV w) && s.rd (MEM_LPW_CFG_OWNER w) == p) ||
    s.rd (MEM_LPW_MAP_CHMASK w) &&& (0xFFFF - mask) == 0) &&
  (cls != 0 || (List.range 16).all fun q => q == p || !s.on (PART_CFG_EN q) || s.rd (PART_LP_CHMASK_MASK q) &&& mask == 0) &&
  s.grantsOk p cls && (cls != 0 || !s.on (PART_DET_CFG_RELAXED p)) && !s.ownsExcluded p

/-- A write of PART_CFGp (R349). -/
def State.writePartCfg (s : State) (p v : Nat) : State :=
  let off := (PART_CFG_EN p).off
  s.writeIf off v fun s0 put =>
    let cls := bits v 30 29
    if s0.on (PART_CFG_EN p) then
      if bit v 31 then (if cls = s0.classOf p then put s0 else s0.cfgRefuse off)
      else if s0.rd (PART_STATUS_STATE p) = stEmpty then (put s0).wr (PART_STATUS_STATE p) stUnused
      else s0.cfgRefuse off
    else if ¬ bit v 31 then put s0
    else if s0.enableOk p cls then (put s0).wr (PART_STATUS_STATE p) stEmpty
    else (s0.cfgRefuse off).mSys fun y => if cls = 0 ∧ s0.ownsExcluded p then { y with hwBist := true } else y

/-- PART_CFG_EN_WRITE (R349, R350). -/
def execPartCfgEnWrite (req : Requester) (p : Fin 16) (value : BitVec 32) (s : State) : Out :=
  .next (s.asWriter req (PART_CFG_EN p).off 4 fun a => a.writePartCfg p value.toNat)

/-- A write of PART_DET_CFGp (R381). -/
def State.writeDetCfg (s : State) (p v : Nat) : State :=
  s.writeIf (PART_DET_CFG_RELAXED p).off v fun s0 put =>
    if bit v 31 ∧ s0.classOf p = 0 then s0.wr PART_EVENT_CFG_ERR 1 else put s0

/-- PART_DET_CFG_WRITE (R381). -/
def execPartDetCfgWrite (req : Requester) (p : Fin 16) (value : BitVec 32) (s : State) : Out :=
  .next (s.asWriter req (PART_DET_CFG_RELAXED p).off 4 fun a => a.writeDetCfg p value.toNat)

/-- A write of a word of PART_SLOTMASKp: ignored for class S (R355). -/
def State.writeSlotMask (s : State) (p off v : Nat) : State := if s.classOf p = 0 then s else s.writeThen off v id

/-- A word of the report queue's registers (R112). -/
def State.writeRpt (s : State) (p off v : Nat) : State :=
  s.writeIf off v fun s0 put =>
    let t := put s0
    let o := off - (0x601048 + 0x100 * p)
    let was := s0.on (PART_RPT_CFG_EN p)
    let len := 32 * 2 ^ t.rd (PART_RPT_CFG_LOG2SIZE p)
    if o < 8 ∨ o ≥ 0x18 then (if was then s0.cfgRefuse off else t)
    else if o = 8 then
      if was ∧ s0.rd (PART_RPT_CFG_LOG2SIZE p) ≠ t.rd (PART_RPT_CFG_LOG2SIZE p) then s0.cfgRefuse off
      else if ¬ t.on (PART_RPT_CFG_EN p) ∨ was then t
      else if t.tunOwned p (t.rd (PART_RPT_BASE_ADDR p)) len && t.tunOwned p (t.rd (PART_RPT_RADDR_ADDR p)) 4 &&
          (!t.on (PART_RPT_CFG_NEN p) || t.coreIn (t.rd (PART_RPT_CFG_CORE p)) p) &&
          (!t.on (PART_RPT_EVT_EEN p) || t.coreIn (t.rd (PART_RPT_EVT_ECORE p)) p) then
        (t.wr (PART_RPT_WIDX_COUNT p) 0).mPart fun y => { y with rptRead := mset (fun _ => 0) y.rptRead p 0 }
      else s0.cfgRefuse off
    else t

/-- PART_RPT_ENABLE (R112): a write of PART_RPTp_CFG. -/
def execPartRptEnable (req : Requester) (p : Fin 16) (value : BitVec 32) (s : State) : Out :=
  .next (s.asWriter req (PART_RPT_CFG_EN p).off 4 fun a => a.writeRpt p (PART_RPT_CFG_EN p).off value.toNat)

/-- A write of CORE_ARITH_CFG (R84). -/
def State.writeArithCfg (s : State) (c v : Nat) : State :=
  if s.rd (CORE_STATE_STATE c) = 0 then s.writeThen (CORE_ARITH_CFG_ACCSAT_FAULT c).off v id
  else s.wr (CORE_ARITH_STATUS_CFG_REJ c) 1

/-- CORE_ARITH_CFG_WRITE (R84). -/
def execCoreArithCfgWrite (req : Requester) (c : Fin 256) (value : BitVec 32) (s : State) : Out :=
  .next (s.asWriter req (CORE_ARITH_CFG_ACCSAT_FAULT c).off 4 fun a => a.writeArithCfg c value.toNat)

/-- SLOT_BOUNDARY (R355): the index of the slot that holds the present reading takes effect. -/
def execSlotBoundary (s : State) : Out :=
  let len := 8 * s.rd PART_SLOT_CFG_SLOT_LEN
  let t : Int := (s.timeAt (s.rd PART_SLOT_CFG_TS) (s.now / 8 * 8) : Nat) - (s.rd PART_SLOT_PHASE_PHASE : Nat)
  if ¬ s.on PART_SLOT_CFG_EN ∨ len = 0 then .next s
  else .next (s.mPart fun y => { y with slot := (t / (len : Int) % 64).toNat })

/-! ### Stop (R358) -/

/-- Core c stops: it issues nothing more, and its engines abandon their commands without further writes. -/
def State.stopCore (s : State) (c : Nat) : State :=
  (s.mCore fun y => { y with stopped := mset (fun _ => false) y.stopped c true, xfers := y.xfers.filter fun x => x.core != c,
                             attns := y.attns.filter fun x => x.core != c, claims := y.claims.filter fun x => x.core != c }).guardClear c

/-- PARTITION_STOP (R358): the stop message reaches a core or block of the partition. -/
def execPartitionStop (p : Fin 16) (target : Nat) (s : State) : Out :=
  if ¬ s.part.stops.contains (p.val, target) then .next s
  else
    let s1 := s.mPart fun y => { y with stops := y.stops.erase (p.val, target) }
    .next (if target < 256 then s1.stopCore target else s1)

/-! ### Reset (R359, R360) -/

def State.resetPhase (s : State) (p : Nat) : Nat := mget (fun _ => 0) s.part.resetStep p
def State.setPhase (s : State) (p v : Nat) : State := s.mPart fun y => { y with resetStep := mset (fun _ => 0) y.resetStep p v }

/-- A reset request that its requester may make (R360): ignored for a partition UNUSED or RESETTING. -/
def State.requestReset (s : State) (p : Nat) : State :=
  let st := s.rd (PART_STATUS_STATE p)
  if st = stUnused ∨ st = stResetting then s
  else (s.wr (PART_STATUS_STATE p) stResetting).mPart fun y =>
    { y with resetReq := mset (fun _ => false) y.resetReq p true,
             stops := y.stops ++ (if st = stFault then [] else ((s.coresOf p) ++ (List.range 13).map (256 + ·)).map fun t => (p, t)) }

/-- A write of PART_CTLp (R360). -/
def State.writePartCtl (s : State) (req : Requester) (p v : Nat) : State :=
  if ¬ bit v 31 then s
  else match req with
  | .host sl => if s.sliceOf sl p ∧ s.classOf p = 3 then s.requestReset p else s.wr PART_EVENT_CFG_ERR 1
  | _ => s.requestReset p

/-- PART_RESET_REQUEST (R360). -/
def execPartResetRequest (req : Requester) (p : Fin 16) (value : BitVec 32) (s : State) : Out :=
  .next (s.asWriter req (PART_CTL_RESET p).off 4 fun a => a.writePartCtl req p value.toNat)

/-- PARTITION_RESET (R359 step 1): a requested reset, or that of a faulted partition with AUTORESET, begins. -/
def execPartitionReset (p : Fin 16) (s : State) : Out :=
  let s1 := if s.rd (PART_STATUS_STATE p) = stFault ∧ s.on (PART_CFG_AUTORESET p) then s.requestReset p else s
  if mget (fun _ => false) s1.part.resetReq p then
    let s2 := (s1.setPhase p 1).mPart fun y =>
      { y with resetReq := mset (fun _ => false) y.resetReq p false, resetAt := mset (fun _ => 0) y.resetAt p s.now }
    .next (if s2.classOf p = 0 ∧ s2.slotNames p then s2.cause 3 p 0 0 else s2)
  else .next s1

/-- Nothing of partition p is under way: no tag held, no message (R359 step 2). -/
def State.drained (s : State) (p : Nat) : Bool :=
  (s.coresOf p).all (fun c => s.rd (CORE_TAG_BUSY_BUSY c) == 0) && !s.msgs.any fun m => m.part == p && m.cls != .saf

/-- Retire the tags of core c that are held: their responses are late ones from now on (R359 step 3). -/
def State.retireTags (s : State) (c : Nat) : State :=
  (setBitsOf 32 (s.rd (CORE_TAG_BUSY_BUSY c))).foldl (fun a t =>
    (a.setTag c t { a.tag c t with out := 0, epoch := !(a.tag c t).epoch }).freeTag c t) s

/-- The submission queues that a reset halts: DEC, CAN, NET, CKP (R359 step 4). -/
def haltedQueues : List Nat :=
  (List.range 16).map decQ ++
  ((List.range 16).flatMap fun n => (List.range 3).map fun q => 0xD01040 + 0x100 * n + 0x40 * q) ++
  ((List.range 10).flatMap fun n => (List.range 8).map fun q => 0xE01100 + 0x400 * n + 0x40 * q) ++
  (List.range 4).map fun n => 0x1102040 + 0x100 * n

/-- What the blocks do (R359 step 4). -/
def State.blocksReset (s : State) (p : Nat) : State :=
  let s1 := s.ctlReset p
  let s2 := (List.range 128).foldl (fun a x => if a.ctxPart x = p then (a.wr (PRE_CTX_CFG_EN x) 0).setCtx x none else a) s1
  let s3 := (List.range 16).foldl (fun a q =>
    if a.qPart (preQ q) = p then (a.wr (qEn (preQ q)) 0).setPreq q (preqReset 0) else a) s2
  let s4 := (List.range 16).foldl (fun a q =>
    if a.qPart (solQ q) = p then a.setQueue (solQ q) ⟨(a.queue (solQ q)).prod, (a.queue (solQ q)).prod⟩ else a) (s3.solDiscard p)
  let s5 := haltedQueues.foldl (fun a b => if a.qPart b = p then a.wr (qEn b) 0 else a) (s4.wr (EVT_RING_CFG_EN p) 0)
  if s5.on CKP_CFG_EN ∧ s5.rd CKP_CFG_OWNER = p then (List.range 32).foldl (fun a j => a.mute j a.now) s5 else s5

/-- PART_RESET_DRAIN_END (R359 steps 2 to 4): the drain is complete, or 1 ms has passed. -/
def execPartResetDrainEnd (p : Fin 16) (s : State) : Out :=
  if s.resetPhase p = 1 ∧ ¬ s.part.stops.any (fun x => x.1 == p.val) ∧
      (s.drained p ∨ mget (fun _ => 0) s.part.resetAt p + 10 ^ 6 ≤ s.now) then
    let s1 := (s.coresOf p).foldl (fun a c => a.retireTags c) s
    .next ((s1.blocksReset p).setPhase p 2)
  else .next s

/-- Zero core c's memory and operand buffers, the buffers with correct parity (R180). -/
def State.fillCore (s : State) (c : Nat) : State :=
  (s.fillRange (coreKey c 0) (coreKey c 0x180000)).mCore fun y => { y with
    acc := mdrop y.acc fun k => k / 32768 == c, accMark := mdrop y.accMark fun k => k / 32768 == c,
    vreg := mdrop y.vreg fun k => k / 8192 == c, vMark := mdrop y.vMark fun k => k / 128 == c,
    feedUses := mset (fun _ => 0) y.feedUses c 0, upsets := y.upsets.filter fun u => u.core != c }

/-- Counters, credits, tags, slots and the fault record of core c cleared; the core is IDLE (R124, R359 step 6). -/
def State.clearCore (s : State) (c : Nat) : State :=
  let s1 := (List.range 32).foldl (fun a n => ((a.wr (CORE_CNT_VALUE c n) 0).wr (CORE_CRD_BAL_CREDIT c n) 0)) s
  let s2 := (List.range 16).foldl (fun a i => a.setSlot c i (agReset 0)) s1
  let s3 := [CORE_WORDS_ISSUED_COUNT c, CORE_STALL_CYCLES_COUNT c, CORE_MAC_CYCLES_COUNT c, CORE_FEED_STALLS_COUNT c].foldl
    (fun a f => a.wr f 0) s2
  let s4 := [CORE_FAULT_VALID c, CORE_FAULT_ADDR_ADDR c, CORE_FAULT_ADDR_CHIP c, CORE_TAG_BUSY_BUSY c, CORE_SEQ_STATUS_STALL c,
    CORE_GUARD_STATUS_STALLED c].foldl (fun a f => a.setWord f.off 0) s3
  (s4.mCore fun y => { y with
    loops := mset (fun _ => []) y.loops c [], stopped := mset (fun _ => false) y.stopped c false,
    xfers := y.xfers.filter fun x => x.core != c, attns := y.attns.filter fun x => x.core != c,
    claims := y.claims.filter fun x => x.core != c, slots := mdrop y.slots fun k => k / 4096 == c,
    dcur := mdrop y.dcur fun k => k / 16 == c, pitch := mdrop y.pitch fun k => k / 512 == c }).wr (CORE_STATE_STATE c) 0

/-- The fill and the end of the reset (R359 steps 5 and 6). -/
def State.partCleared (s : State) (p : Nat) : State :=
  let s1 := (s.coresOf p).foldl (fun a c => (a.fillCore c).clearCore c) s
  let s2 := (s.groupsOf p).foldl (fun a g => a.fillRange (0x100000000 + g * 0x2000000) (0x100000000 + (g + 1) * 0x2000000)) s1
  let s3 := s2.mCore fun y => { y with
    barHere := mdrop y.barHere fun k => k / 16 == p,
    copies := y.copies.filter fun x => s.tunOwner (x.slice / 16) != some p }
  let s4 := s3.mPart fun y => { y with
    plan := mset (fun _ => none) y.plan p none, rptRead := mset (fun _ => 0) y.rptRead p 0 }
  (((((((s4.setWord (PART_FAULT_VALID p).off 0).setWord (PART_FAULT_ADDR_ADDR p).off 0).setWord (PART_FAULT_ADDR_CHIP p).off 0).wr
    (PART_RPT_WIDX_COUNT p) 0).detClear p).setFrz p 0).wr (PART_STATUS_STATE p) stEmpty).wr PART_EVENT_RESET_DONE 1

/-- PART_RESET_DONE (R359 steps 5 and 6, R356): then the load that waits, or, with AUTORELOAD, the image's plan. -/
def execPartResetDone (p : Fin 16) (s : State) : Out :=
  if s.resetPhase p = 2 then
    let s1 := (s.partCleared p).setPhase p 0
    let wait := mget (fun _ => none) s.part.nextLoad p
    let s2 := s1.mPart fun y => { y with nextLoad := mset (fun _ => none) y.nextLoad p none }
    match wait, mget (fun _ => none) s.part.imagePlan p with
    | some b, _ => .next ((s2.loadPlan p b).loadEnded p)
    | none, some b => .next (if s2.on (PART_CFG_AUTORELOAD p) then s2.loadPlan p b else s2)
    | none, none => .next s2
  else .next s

/-! ### Load (R121, R356) -/

/-- A load begins: at once in EMPTY; a COMPLETE partition is first reset. -/
def State.beginLoad (s : State) (p : Nat) (b : PlanBinary) : State :=
  let st := s.rd (PART_STATUS_STATE p)
  if st = stEmpty then s.loadPlan p b
  else if st = stComplete then (s.requestReset p).mPart fun y => { y with nextLoad := mset (fun _ => none) y.nextLoad p (some b) }
  else s

/-- LOAD (R121). -/
def execLoad (req : Requester) (p : Fin 16) (plan : PlanBinary) (s : State) : Out :=
  .next (if s.mayLoad req p then s.beginLoad p plan else s)

end Sys2Proof.Machine
end

