-- ==== Sys2Proof/Machine/Report.lean ====
section
/-! DEFINITION. REPORT and the report queue (R107, R110 to R112, R390, R521), and the words that stalled at issue and go on
(R92, R107). -/

namespace Sys2Proof.Machine

/-! ### REPORT -/

/-- The record of R110. -/
def reportRecord (t c code word payload : Nat) : List MByte :=
  leBytes 8 t ++ leBytes 1 c ++ leBytes 1 code ++ leBytes 2 0 ++ leBytes 4 word ++ leBytes 8 payload ++ leBytes 8 0

/-- The queue of partition p is full by a read index. -/
def State.rptFull (s : State) (p r : Nat) : Bool :=
  decide (2 ^ s.rd (PART_RPT_CFG_LOG2SIZE p) ≤ (s.rd (PART_RPT_WIDX_COUNT p) + 2 ^ 32 - r) % 2 ^ 32)

/-- The read index that PART goes by: its cached copy, or, where that shows the queue full, the word in the Tun (R111). -/
def State.rptIndex (s : State) (p : Nat) : Nat × State :=
  let cached := mget (fun _ => 0) s.part.rptRead p
  if s.rptFull p cached then
    let r := s.readRun (s.rd (PART_RPT_RADDR_ADDR p)) 4
    (leNum r.1, r.2.mPart fun y => { y with rptRead := mset (fun _ => 0) y.rptRead p (leNum r.1) })
  else (cached, s)

/-- Enter Cellar on request, or refuse it (R521). -/
def State.cellarRequest (s : State) : State :=
  if s.pwr.cellar ≠ 0 then s
  else if s.on SAF_STATE_SAFE && !(List.range 16).any fun p =>
      s.rd (PART_STATUS_STATE p) == stLoading || s.rd (PART_STATUS_STATE p) == stResetting then
    s.mPwr fun y => { y with cellar := 1 }
  else s.wr PWR_EVENT_CELLAR_REF 1

/-- What a REPORT does beside its record (R111, R390, R521). -/
def State.reportRest (s : State) (c p code payload : Nat) (evt : Bool) : State :=
  let s1 := if evt then
      let t := s.wr (PART_RPT_STAT_EVT p) 1
      if t.on (PART_RPT_EVT_EEN p) then t.notify 265 p (t.rd (PART_RPT_EVT_ECORE p)) (t.rd (PART_RPT_EVT_ECNT p)) 1 else t
    else s
  let s2 := if 0xC0 ≤ code ∧ code < 0xD0 then s1.send ⟨.saf, c, epSaf, p, 0, false, s.ownChip, .report code payload⟩ else s1
  if code = 0xFE ∧ s2.on PWR_CELLAR_CFG_REQ_EN ∧ s2.rd PWR_CELLAR_CFG_REQPART = p then s2.cellarRequest else s2

/-- REPORT (R107, R110 to R112). -/
def doReport (c w : Nat) (s : State) : IssueRes :=
  let p := s.partOf c
  let code := bits w 15 8
  let payload := bits w 127 64
  if ¬ s.on (PART_RPT_CFG_EN p) then .done ((s.bump (PART_RPT_STAT_DISCARD p)).reportRest c p code payload (bit w 16)) none
  else
    let r := s.rptIndex p
    if r.2.rptFull p r.1 then .stall stReport 0 r.2
    else
      let n := r.2.rd (PART_RPT_WIDX_COUNT p)
      let a := r.2.rd (PART_RPT_BASE_ADDR p) + n % 2 ^ r.2.rd (PART_RPT_CFG_LOG2SIZE p) * 32
      let s1 := (r.2.writeRun a (reportRecord s.now c code (s.pc c) payload)).bumpWrap (PART_RPT_WIDX_COUNT p) 1
      let s2 := if s1.on (PART_RPT_CFG_NEN p) then
        s1.notify 265 p (s1.rd (PART_RPT_CFG_CORE p)) (s1.rd (PART_RPT_CFG_CNT p)) 1 else s1
      .done (s2.reportRest c p code payload (bit w 16)) none

def execReport (c : Fin 256) (s : State) : Out := .next (s.issueIf c 0x08 noTest (doReport c))

/-! ### Words that stalled at issue (R92, R107) -/

/-- The meaning of a word at issue, by its OP. -/
def doWord (c w : Nat) : State → IssueRes :=
  match wOp w with
  | 0x01 => doEnd c w | 0x02 => doPhase c w | 0x03 => doAgload c w | 0x04 => doLoop c w | 0x05 => doNext c w
  | 0x06 => doAgadv c w | 0x08 => doReport c w | 0x0A => doWaitcnt c w | 0x0B => doWaittime c w | 0x0C => doCredit c w
  | 0x0E => doWaittag c w | 0x10 => doMmul c w | 0x11 => doMdrain c w | 0x18 => doAttn (bits w 10 8) c w
  | 0x20 => doVload c w | 0x21 => doVstore c w | 0x22 => doVbin c w | 0x23 => doVfma c w | 0x24 => doVcmp c w
  | 0x25 => doVsel c w | 0x26 => doVsfu c w | 0x27 => doVcvt c w | 0x28 => doVred c w | 0x29 => doVacc c w
  | 0x2A => doVimm c w | 0x2B => doVperm c w | 0x30 => doLcopy c w | 0x31 => doRwrite c w | 0x32 => doTunrd c w
  | 0x33 => doTunwr c w | 0x34 => doTatom c w | 0x35 => doDramrd c w | 0x36 => doDramwr c w | 0x38 => doRsignal c w
  | 0x40 => doCroprs c w | 0x41 => doBoxdec c w | 0x42 => doNms c w
  | _ => doNop c w

/-- A stalled word is looked at again: it issues where its stall's condition has cleared, else nothing happens. -/
def State.reissue (s : State) (c : Nat) (codes : List Nat) : State :=
  if s.mayIssue c && codes.contains (s.rd (CORE_SEQ_STATUS_STALL c)) then
    match doWord c (s.planWord c) s with
    | .stall .. => s
    | r => s.settle c r
  else s

/-- WAIT_SATISFIED (R107). -/
def execWaitSatisfied (c : Fin 256) (s : State) : Out := .next (s.reissue c [stCounter, stTime, stTags, stCredit])

/-- ISSUE_STALL_CLEAR (R92). -/
def execIssueStallClear (c : Fin 256) (s : State) : Out :=
  .next (s.reissue c [stCredit, stQueue, stPhase, stReport, stTag, stFetch, stEnd])

end Sys2Proof.Machine
end

