-- ==== Sys2Proof/Machine/Vms.lean ====
section
/-! DEFINITION. The host's slices (R419 to R442): configuration, doorbells, the admin commands, freeze, save and restore, outbound
requests, and the events of a PCIe port. -/

namespace Sys2Proof.Machine

/-! ### Configuration (R421, R434) -/

/-- A write of VMS_SLc_CFG with EN = 1 meets R421. -/
def State.sliceOk (s : State) (c v : Nat) : Bool :=
  let port := bits v 30 30
  let admin := bit v 29
  let others := (List.range 64).filter fun d => d != c && s.on (VMS_SL_CFG_EN d) && s.rd (VMS_SL_CFG_PORT d) == port
  (!bit v 28 || s.classOf (bits v 27 24) == 3) && (port == 0 || s.on VMS_PORT_CFG_BIFUR) &&
    !(admin && others.any fun d => s.on (VMS_SL_CFG_ADMIN d)) &&
    (admin || !others.any fun d => !s.on (VMS_SL_CFG_ADMIN d) && s.rd (VMS_SL_CFG_PASID d) == bits v 19 0)

/-- A write of a slice's registers, a doorbell page or the MSI-X structures. -/
def State.writeVms (s : State) (off v : Nat) : State :=
  s.writeIf off v fun s0 put =>
    if 0x701000 ≤ off ∧ off < 0x702000 then
      let c := (off - 0x701000) / 0x40
      let o := (off - 0x701000) % 0x40
      if o = 0 then (if bit v 31 ∧ ¬ s0.sliceOk c v then s0.cfgRefuse off
        else if ¬ bit v 31 ∧ bits v 30 30 = 1 ∧ ¬ s0.on VMS_PORT_CFG_BIFUR then s0.cfgRefuse off else put s0)
      else if o = 8 ∧ v % 4096 ≠ 0 then s0.cfgRefuse off
      else if o = 0x10 ∧ 2 ^ 21 < bits v 21 0 then s0.cfgRefuse off
      else if (o = 0x18 ∨ o = 0x20) ∧ v % 64 ≠ 0 then s0.cfgRefuse off
      else if s0.on (VMS_SL_ACFG_EN c) ∧ (0x18 ≤ o ∧ o < 0x28 ∨ (o = 0x14 ∧ bits v 3 0 ≠ s0.rd (VMS_SL_ACFG_LOG2SIZE c))) then
        s0.cfgRefuse off
      else put s0
    else if 0x780000 ≤ off ∧ off < 0x788000 ∧ off % 16 = 12 then
      let e := (off - 0x780000) / 16
      let t := put s0
      if ¬ bit v 0 ∧ bit (t.rd (VMS_MSIX_PBA_PEND (e / 32))) (e % 32) then
        (t.wr (VMS_MSIX_PBA_PEND (e / 32)) (t.rd (VMS_MSIX_PBA_PEND (e / 32)) - 2 ^ (e % 32))).msix (e / 32) (e % 32)
      else t
    else put s0

/-- VMS_SL_CFG_WRITE (R421). -/
def execVmsSlCfgWrite (req : Requester) (c : Fin 64) (value : BitVec 32) (s : State) : Out :=
  .next (s.asWriter req (VMS_SL_CFG_EN c).off 4 fun a => a.writeVms (VMS_SL_CFG_EN c).off value.toNat)

/-- The offset of the queue that VMS_QVEC number i stands for (R434). -/
def vecQueue (i : Nat) : Nat := if i < 16 then decQ i else if i < 32 then preQ (i - 16) else solQ (i - 32)

/-- A write of VMS_QVECi (R434). -/
def State.writeQvec (s : State) (i v : Nat) : State :=
  s.writeIf (VMS_QVEC_EN i).off v fun s0 put =>
    if bit v 31 ∧ s0.slicePart (bits v 21 16) ≠ some (s0.qPart (vecQueue i)) then s0.wr VMS_EVENT_ISO 1 else put s0

/-- VMS_QVEC_ENABLE (R434). -/
def execVmsQvecEnable (req : Requester) (i : Fin 48) (value : BitVec 32) (s : State) : Out :=
  .next (s.asWriter req (VMS_QVEC_EN i).off 4 fun a => a.writeQvec i value.toNat)

/-! ### Doorbells (R433) and admin rings (R431) -/

/-- What a write of DB does: the event, or, where its ring is not the slice's partition's, a count. -/
def State.doorbell (s : State) (c v : Nat) : State :=
  if s.slicePart c = some (s.rd (EVT_SRC_CFG_PART (208 + c))) then s.raiseInt (208 + c) v else s.bump (VMS_SL_STAT_DBDROP c)

/-- DOORBELL (R426, R433): delivered once the posted writes before it are acknowledged; the model does those at arrival. -/
def execDoorbell (req : Requester) (c : Fin 64) (value : BitVec 32) (s : State) : Out :=
  .next (s.asWriter req (VMS_DB_DB c).off 4 fun a => a.doorbell c value.toNat)

/-- APIDX_WRITE (R431). -/
def execApidxWrite (req : Requester) (c : Fin 64) (value : BitVec 32) (s : State) : Out :=
  .next (s.asWriter req (VMS_APIDX_INDEX c).off 4 fun a => a.writeThen (VMS_APIDX_INDEX c).off value.toNat id)

/-- Slice c has admin work. -/
def State.hasWork (s : State) (c : Nat) : Bool :=
  s.on (VMS_SL_CFG_EN c) && s.on (VMS_SL_ACFG_EN c) && s.rd (VMS_APIDX_INDEX c) != s.rd (VMS_SL_ACIDX_INDEX c)

/-- The slice to be served next, round-robin (R431). -/
def State.nextSlice (s : State) : Option Nat :=
  if s.vms.busy.isSome then none
  else ((List.range 64).map fun i => (s.vms.last + 1 + i) % 64).find? s.hasWork

/-- Run a command of slice c's ring: only if its turn has come; a slice without a partition gets STATE (R432). -/
def State.admin (s : State) (c tag : Nat) (f : Nat → State → State) : State :=
  if s.nextSlice ≠ some c then s
  else match s.slicePart c with
  | none => s.adminDone c tag asState 0
  | some p => f p s

/-- ADMIN_LOAD (R432): the plan binary read from host memory; none where that access failed. -/
def execAdminLoad (sl : Fin 64) (tag : BitVec 16) (plan : Option PlanBinary) (s : State) : Out :=
  .next (s.admin sl tag.toNat fun p a =>
    let st := a.rd (PART_STATUS_STATE p)
    if (st ≠ stEmpty ∧ st ≠ stComplete) ∨ a.frz p ≠ 0 then a.adminDone sl tag.toNat asState 0
    else match plan with
    | none => a.adminDone sl tag.toNat asAccess 0
    | some b =>
      let a1 := (a.mVms fun y => { y with busy := some ⟨sl, tag.toNat, p, false, a.now⟩ }).beginLoad p b
      if st = stEmpty then a1.loadEnded p else a1)

/-- ADMIN_RESET (R360, R432). -/
def execAdminReset (sl : Fin 64) (tag : BitVec 16) (s : State) : Out :=
  .next (s.admin sl tag.toNat fun p a =>
    let st := a.rd (PART_STATUS_STATE p)
    if st = stUnused ∨ st = stResetting then a.adminDone sl tag.toNat asState 0
    else (a.requestReset p).adminDone sl tag.toNat asOk 0)

/-- STATUS (R432). -/
def execStatus (sl : Fin 64) (tag : BitVec 16) (s : State) : Out :=
  if s.nextSlice ≠ some sl.val then .next s
  else .next (match s.slicePart sl with
    | none => s.adminDone sl tag.toNat asOk 0
    | some p => s.adminDone sl tag.toNat asOk (setBits (s.liveWord .image (PART_STATUS_STATE p).off) 28 27 (s.frz p)))

/-- ADMIN_UNKNOWN (R432). -/
def execAdminUnknown (sl : Fin 64) (tag : BitVec 16) (s : State) : Out :=
  .next (s.admin sl tag.toNat fun _ a => a.adminDone sl tag.toNat asOpcode 0)

/-! ### Freeze (R435, R436) -/

/-- Partition p owns an enabled resource of CTL, CAN or NET. -/
def State.ownsDevice (s : State) (p : Nat) : Bool :=
  let dev (b : Nat) : Bool := [12, 13, 14].contains (b >>> 20)
  let owns (w bt : Nat) : Bool := bit (s.word w) 31 && bits (s.word w) (bt + 3) bt == p
  (ownedArrays.any fun (b, n, st, _, cw, bt) => dev b && (List.range n).any fun i => owns (b + i * st + cw) bt) ||
  nestedArrays.any fun (o, b, n, st, _, cw, bt) => dev o.1 &&
    (List.range o.2.1).any fun j => (List.range n).any fun i => owns (o.1 + j * o.2.2 + b + i * st + cw) bt

/-- A resource of R436 keeps partition p from being frozen. -/
def State.noFreeze (s : State) (p : Nat) : Bool :=
  s.ownsDevice p || (s.on CKP_CFG_EN && s.rd CKP_CFG_OWNER == p) ||
  ((List.range 4).any fun n => s.on (CKP_TX_CFG_EN n) && s.rd (CKP_TX_CFG_OWNER n) == p) ||
  ((List.range 4).any fun n => s.rd (TIM_TS_CTL_OWNER n) == p) ||
  ((List.range 128).any fun x => s.on (PRE_CTX_CFG_EN x) && s.ctxPart x == p && (match s.ctx x with
    | some c => !pcSrc c.desc.toNat
    | none => false : Bool)) ||
  (List.range 16).any fun w => s.on (MEM_LPW_CFG_EN w) && !s.on (MEM_LPW_CFG_DEV w) && s.rd (MEM_LPW_CFG_OWNER w) == p &&
    (List.range 16).any fun q => q != p && s.on (PART_CFG_EN q) && (s.rd (PART_LP_CHMASK_MASK q) &&& s.rd (MEM_LPW_MAP_CHMASK w)) != 0

/-- FREEZE (R435). -/
def execFreeze (sl : Fin 64) (tag : BitVec 16) (s : State) : Out :=
  .next (s.admin sl tag.toNat fun p a =>
    let st := a.rd (PART_STATUS_STATE p)
    if (st ≠ stRunning ∧ st ≠ stComplete) ∨ a.frz p ≠ 0 then a.adminDone sl tag.toNat asState 0
    else if a.noFreeze p then a.adminDone sl tag.toNat asNoFreeze 0
    else
      ((a.setFrz p 1).wr (EVT_RING_CFG_EN p) 0).mVms fun y =>
        { y with busy := some ⟨sl, tag.toNat, p, true, a.now⟩, ring := mset (fun _ => false) y.ring p (a.on (EVT_RING_CFG_EN p)) })

/-- Every step of R435 has ended for partition p. -/
def State.quiet (s : State) (p : Nat) : Bool :=
  s.drained p && !(s.core.attns.any fun j => s.coreOwner j.core == some p) &&
    !((s.sol.run.toList ++ s.sol.susp).any fun j => s.qPart (solQ j.queue) == p)

/-- Release a partition from FREEZING or FROZEN: its event ring, its queues and its cores go on. -/
def State.unfreeze (s : State) (p : Nat) : State :=
  let s1 := s.setFrz p 0
  if mget (fun _ => false) s.vms.ring p then s1.wr (EVT_RING_CFG_EN p) 1 else s1

/-- FREEZE_DRAINED (R435, R438): the freeze has drained, its bound has passed, or a reset or fault has ended it. -/
def execFreezeDrained (s : State) : Out :=
  match s.vms.busy with
  | none => .next s
  | some b =>
    if ¬ b.freeze then .next s
    else
      let st := s.rd (PART_STATUS_STATE b.part)
      if st ≠ stRunning ∧ st ≠ stComplete then .next ((s.setFrz b.part 0).adminDone b.slice b.tag asAborted 0)
      else if s.quiet b.part then .next ((s.setFrz b.part 2).adminDone b.slice b.tag asOk 0)
      else if b.start + s.rd VMS_FRZ_TMO_TMO * 10 ^ 6 ≤ s.now then
        .next ((s.unfreeze b.part).adminDone b.slice b.tag asTimeout 0)
      else .next s

/-- THAW (R432, R438). -/
def execThaw (sl : Fin 64) (tag : BitVec 16) (s : State) : Out :=
  .next (s.admin sl tag.toNat fun p a =>
    if a.frz p = 2 then (a.unfreeze p).adminDone sl tag.toNat asOk 0 else a.adminDone sl tag.toNat asState 0)

/-! ### Save and restore (R437, R439) -/

/-- The words that a save record holds of core c. -/
def coreSaved (c : Nat) : List Nat :=
  ([0x4, 0x8, 0xC, 0x1000, 0x1004, 0x101C, 0x2000] ++ ((List.range 32).map fun i => 0x2080 + 4 * i) ++
    ((List.range 32).map fun i => 0x2100 + 4 * i) ++ (List.range 64).map fun i => 0x2200 + 4 * i).map fun o => 0x2000000 + 0x20000 * c + o

/-- The register words of the block state of partition p, and its STATE. -/
def State.blockSaved (s : State) (p : Nat) : List Nat :=
  ((List.range 48).flatMap fun i => if s.qPart (vecQueue i) = p then (List.range 16).map fun k => vecQueue i + 4 * k else []) ++
  ((List.range 128).flatMap fun x => if s.ctxPart x = p then (List.range 4).map fun k => 0xA01000 + 0x10 * x + 4 * k else []) ++
  ((List.range 8).map fun k => 0x302000 + 0x20 * p + 4 * k) ++
  [0x8, 0x20, 0x24, 0x40, 0x44].map fun o => 0x601000 + 0x100 * p + o

/-- The memory ranges of a save record. -/
def savedRanges (cores groups : List Nat) : List (Nat × Nat) :=
  (cores.map fun c => (coreKey c 0, coreKey c 0x180000)) ++
    groups.map fun g => (0x100000000 + g * 0x2000000, 0x100000000 + (g + 1) * 0x2000000)

/-- A key lies in one of the ranges. -/
def inRanges (l : List (Nat × Nat)) (k : Nat) : Bool := l.any fun r => decide (r.1 ≤ k ∧ k < r.2)

/-- The windows of partition p, as BASE, SIZE, GRAN, CHMASK, CHBASE. -/
def State.windowsOf (s : State) (p : Nat) : List (Nat × Nat × Nat × Nat × Nat) :=
  ((List.range 16).filter fun w => s.on (MEM_LPW_CFG_EN w) && !s.on (MEM_LPW_CFG_DEV w) && s.rd (MEM_LPW_CFG_OWNER w) == p).map
    fun w => (s.rd (MEM_LPW_CFG_BASE w), s.rd (MEM_LPW_CFG_SIZE w), s.rd (MEM_LPW_CFG_GRAN w), s.rd (MEM_LPW_MAP_CHMASK w),
      s.rd (MEM_LPW_MAP_CHBASE w))

/-- The save record of a frozen partition. -/
def State.saveRec (s : State) (p : Nat) : SaveRec :=
  let cores := s.coresOf p
  let groups := s.groupsOf p
  let rs := savedRanges cores groups
  let by1 (n : Nat) (k : Nat) : Bool := cores.contains (k / n)
  let q (i : Nat) : Bool := s.qPart i == p
  let c := s.core
  let ring := (EVT_RING_CFG_EN p).off
  { whole := true, shaOk := true, mcif := BitVec.ofNat 16 s.sys.mcif, plan := s.planOf p, cores := cores, groups := groups,
    windows := s.windowsOf p,
    regs := ((cores.flatMap coreSaved) ++ s.blockSaved p).map fun o => (o, BitVec.ofNat 32 (
      if o = ring then setBits (s.word o) 31 31 (b2n (mget (fun _ => false) s.vms.ring p)) else s.word o)),
    mem := (dedup (((s.mem.map (·.1)) ++ s.memory.ecc.flatMap fun x => (List.range 8).map (x.1 + ·)).filter (inRanges rs))).map
      fun k => (k, (s.byteAt k).1),
    poison := dedup ((s.memory.ecc.filter fun x => inRanges rs x.1 && s.poisoned (x.1 / 64 * 64)).map fun x => x.1 / 64 * 64),
    acc := c.acc.filter fun x => by1 32768 x.1, vreg := c.vreg.filter fun x => by1 8192 x.1,
    accMark := c.accMark.filter fun x => by1 32768 x.1, vMark := c.vMark.filter fun x => by1 128 x.1,
    loops := c.loops.filter fun x => by1 1 x.1, ag := c.ag.filter fun x => by1 16 x.1,
    slots := c.slots.filter fun x => by1 4096 x.1, dcur := c.dcur.filter fun x => by1 16 x.1,
    pitch := c.pitch.filter fun x => by1 512 x.1,
    barMask := c.barMask.filter fun x => x.1 / 16 == p, barHere := c.barHere.filter fun x => x.1 / 16 == p,
    choice := c.choice.filter fun x => by1 (2 ^ 24) x.1, debug := (c.debug).filter fun x => by1 1 x.1,
    banks := c.planBanks.filter fun x => by1 1 x.1,
    queues := s.queues.filter fun x => (x.1 >>> 20 == 9 || x.1 >>> 20 == 10 || x.1 >>> 20 == 11) && q x.1,
    ctx := s.vis.ctx.filter fun x => s.ctxPart x.1 == p, preq := s.vis.preq.filter fun x => q (preQ x.1),
    dec := s.vis.dec.filter fun x => match x.2 with
      | some t => t.part == p
      | none => false }

/-- The size of a save record (R437). -/
def recordSize (n g : Nat) : Nat :=
  4096 + n * 1700 * 1024 + g * 2 ^ 25 + 65536 + (n * 1696 * 1024 + g * 2 ^ 25) / 512

/-- SAVE (R437): `access` is false where a write to host memory failed. -/
def execSave (sl : Fin 64) (tag : BitVec 16) (addr len : Nat) (access : Bool) (s : State) : Out :=
  .next (s.admin sl tag.toNat fun p a =>
    if a.frz p ≠ 2 then a.adminDone sl tag.toNat asState 0
    else if ¬ access ∨ len < recordSize (a.coresOf p).length (a.groupsOf p).length then a.adminDone sl tag.toNat asAccess 0
    else (a.emit (.save sl addr (a.saveRec p))).adminDone sl tag.toNat asOk 0)

/-- Put a list of pairs into a map in place of the keys that satisfy a test. -/
def mreplace {α : Type} (m : SMap α) (p : Nat → Bool) (l : List (Nat × α)) : SMap α :=
  l.foldl (fun a x => mput a x.1 x.2) (mdrop m p)

/-- Write every section of a save record and reinstate poison form (R439). -/
def State.restored (s : State) (p : Nat) (r : SaveRec) : State :=
  let by1 (n : Nat) (k : Nat) : Bool := r.cores.contains (k / n)
  let s1 := (savedRanges r.cores r.groups).foldl (fun a x => a.fillRange x.1 x.2) s
  let s2 := { s1 with mem := r.mem.foldl (fun (a : List Host.Cell) (x : Nat × BitVec 8) => mset (fun _ => (0 : Byte)) a x.1 x.2) s1.mem }
  let s3 := r.poison.foldl (fun a g => (granuleWords g).foldl (fun b k => b.setSynd k 0x7F) a) s2
  let s4 := r.regs.foldl (fun a x => a.setWord x.1 x.2.toNat) s3
  let s5 := s4.mCore fun y =>
    { y with acc := mreplace y.acc (by1 32768) r.acc, vreg := mreplace y.vreg (by1 8192) r.vreg,
             accMark := mreplace y.accMark (by1 32768) r.accMark, vMark := mreplace y.vMark (by1 128) r.vMark,
             loops := mreplace y.loops (by1 1) r.loops, ag := mreplace y.ag (by1 16) r.ag,
             slots := mreplace y.slots (by1 4096) r.slots, dcur := mreplace y.dcur (by1 16) r.dcur,
             pitch := mreplace y.pitch (by1 512) r.pitch,
             barMask := mreplace y.barMask (fun k => k / 16 == p) r.barMask,
             barHere := mreplace y.barHere (fun k => k / 16 == p) r.barHere,
             choice := mreplace y.choice (by1 (2 ^ 24)) r.choice, debug := mreplace y.debug (by1 1) r.debug,
             planBanks := mreplace y.planBanks (by1 1) r.banks }
  let s6 := { s5 with queues := mreplace s5.queues (fun _ => false) r.queues }
  let s7 := s6.mVis fun y => { y with ctx := mreplace y.ctx (fun _ => false) r.ctx, preq := mreplace y.preq (fun _ => false) r.preq,
                                      dec := mreplace y.dec (fun _ => false) r.dec }
  let ring := s7.on (EVT_RING_CFG_EN p)
  (((s7.mPart fun y => { y with plan := mset (fun _ => none) y.plan p r.plan }).mVms fun y =>
    { y with ring := mset (fun _ => false) y.ring p ring }).wr (EVT_RING_CFG_EN p) 0).setFrz p 2

/-- RESTORE (R439); none where a read of host memory failed. -/
def execRestore (sl : Fin 64) (tag : BitVec 16) (rec : Option SaveRec) (s : State) : Out :=
  .next (s.admin sl tag.toNat fun p a =>
    let mcif := a.sys.mcif
    let done (st : Nat) : State := a.adminDone sl tag.toNat st 0
    if a.rd (PART_STATUS_STATE p) ≠ stEmpty ∨ a.frz p ≠ 0 then done asState
    else match rec with
    | none => done asAccess
    | some r =>
      if ¬ r.whole ∨ ¬ r.shaOk then done asDigest
      else if ¬ (r.mcif.toNat / 256 = mcif / 256 ∧ r.mcif.toNat % 256 ≤ mcif % 256) then done asMismatch
      else if r.cores ≠ a.coresOf p ∨ r.groups ≠ a.groupsOf p ∨ r.windows ≠ a.windowsOf p then done asMismatch
      else (a.restored p r).adminDone sl tag.toNat asOk 0)

/-! ### Outbound requests (R430) -/

/-- The oldest outbound read of core c that waits for its completion. -/
def State.takeOutbound (s : State) (c : Nat) : Option (Msg × State) :=
  s.take fun m => m.dst == epHost && m.src == c && (match m.body with
    | .memRead .. => true
    | _ => false)

/-- An outbound read ends in an error response. -/
def State.outboundError (s : State) (m : Msg) (timeout : Bool) : State :=
  match m.body with
  | .memRead a _ _ => s.send (m.reply (.error (Config.outboundKind timeout).toNat a))
  | _ => s

/-- OUTBOUND_COMPLETION (R430). -/
def execOutboundCompletion (c : Fin 256) (cpl : OutCpl) (s : State) : Out :=
  match s.takeOutbound c with
  | none => .next s
  | some (m, s1) =>
    match m.body, cpl with
    | .memRead _ len back, .ok data ep =>
      .next (s1.send (m.reply (.readData back ((List.range len).map fun i => (data.getD i 0, ep)))))
    | _, .ok .. => .next s1
    | _, _ => .next ((s1.wr VMS_EVENT_UR 1).outboundError m false)

/-- OUTBOUND_TIMEOUT (R430). -/
def execOutboundTimeout (c : Fin 256) (s : State) : Out :=
  match s.takeOutbound c with
  | none => .next s
  | some (m, s1) => .next ((s1.wr VMS_EVENT_CTO 1).outboundError m true)

/-! ### Events of a port (R419, R441) -/

/-- A port's slices. -/
def State.portSlices (s : State) (n : Nat) : List Nat := (List.range 64).filter fun c => s.rd (VMS_SL_CFG_PORT c) == n

/-- Hot reset or link down: the link, MSI-X table and power state of the port reset; its outbound reads end in errors. -/
def State.portReset (s : State) (n : Nat) : State :=
  let s1 := ((s.setWord (VMS_PORT_STAT_UP n).off (s.rd (VMS_PORT_STAT_LINKDOWNS n))).bump (VMS_PORT_STAT_LINKDOWNS n)).wr VMS_EVENT_LINKDOWN 1
  let sl := s.portSlices n
  let s2 := sl.foldl (fun a c => (List.range 32).foldl (fun b v =>
    let e := 32 * c + v
    (((b.wr (VMS_MSIX_LO_ADDR e) 0).wr (VMS_MSIX_HI_ADDR e) 0).wr (VMS_MSIX_DATA_DATA e) 0).wr (VMS_MSIX_CTL_MASK e) 1)
    (a.wr (VMS_MSIX_PBA_PEND c) 0)) s1
  let mine (m : Msg) : Bool := m.dst == epHost && (match m.body with
    | .memRead a _ _ => sl.contains (hostSlice a)
    | _ => false)
  let lost := s2.msgs.filter mine
  let s3 := { s2 with msgs := s2.msgs.filter fun m => !mine m }
  (lost.foldl (fun a m => a.outboundError m false) s3).mVms fun y => { y with d3 := mset (fun _ => false) y.d3 n false }

/-- HOT_RESET (R441). -/
def execHotReset (port : Fin 2) (s : State) : Out := .next (s.portReset port)

/-- FLR (R441). -/
def execFlr (port : Fin 2) (s : State) : Out :=
  let n := port.val
  let s1 := (s.portReset n).wr VMS_EVENT_FLR 1
  let s2 := (List.range 16).foldl (fun (a : State) (p : Nat) =>
    let sl : List Nat := (List.range 64).filter fun c => a.on (VMS_SL_CFG_EN c) && a.sliceOf c p
    if a.classOf p == 3 && a.on (PART_CFG_EN p) && !sl.isEmpty && sl.all (fun c => a.rd (VMS_SL_CFG_PORT c) == n) then
      a.requestReset p else a) s1
  .next ((s2.portSlices n).foldl (fun a c =>
    if a.on (VMS_SL_CFG_ADMIN c) then a else (a.wr (VMS_SL_CFG_PASID c) 0).wr (VMS_SL_ACFG_EN c) 0) s2)

/-- D3HOT (R441). -/
def execD3hot (port : Fin 2) (s : State) : Out :=
  .next (s.mVms fun y => { y with d3 := mset (fun _ => false) y.d3 port.val true })

/-- D0_ENTRY (R441). -/
def execD0Entry (port : Fin 2) (s : State) : Out :=
  .next (s.mVms fun y => { y with d3 := mset (fun _ => false) y.d3 port.val false })

/-- PCIE_LINK_UP (R419, R544): a port that is to train comes up at a rate and width within its configuration. -/
def execPcieLinkUp (port : Fin 2) (speed : Fin 8) (width : Fin 32) (s : State) : Out :=
  let n := port.val
  let en := if n = 0 then s.on VMS_PORT_CFG_EN0 else s.on VMS_PORT_CFG_EN1 && s.on VMS_PORT_CFG_BIFUR
  let top := if n = 0 ∧ ¬ s.on VMS_PORT_CFG_BIFUR then 16 else 8
  if en && decide (1 ≤ speed.val ∧ speed.val ≤ s.rd VMS_PORT_CFG_MAXSPD) && [1, 2, 4, 8, 16].contains width.val &&
      decide (width.val ≤ top) then
    .next (((s.wr (VMS_PORT_STAT_UP n) 1).wr (VMS_PORT_STAT_SPEED n) speed).wr (VMS_PORT_STAT_WIDTH n) width)
  else .next s

end Sys2Proof.Machine
end

