-- ==== Sys2Proof/Machine/Ring.lean ====
section
/-! DEFINITION. The Traeglink ring (R444 to R459): member states, frames and retries, the map, retraining, time frames. -/

namespace Sys2Proof.Machine

/-! ### Ring states (R447) -/
def rsBypass : Nat := 0
def rsTraining : Nat := 1
def rsForward : Nat := 2
def rsMember : Nat := 3

/-- The device acts as the ring's manager (R446). -/
def State.ringManager (s : State) : Bool := s.on LNK_CFG_ROLE && !s.lnk.actWorker

/-- The ring begins to retrain (R454). -/
def State.startRetrain (s : State) : State := s.wr LNK_STATE_RETRAIN 1

/-- Put the map (R453). -/
def State.setMap (s : State) (members fwd : Nat) : State :=
  let s1 := (s.wr LNK_MAP_FWD fwd).wr LNK_MAP_MEMBERS members
  if s.rd LNK_MAP_MEMBERS = members then s1 else (s1.wr LNK_EVENT_MAPCHG 1).mLnk fun y => { y with noPam := false }

/-- Enter BYPASS: the switch closes, the ports go off, no frame is kept. -/
def State.bypass (s : State) : State :=
  let s1 := (List.range 2).foldl (fun a n => (a.wr (LNK_PORT_STAT_UP n) 0).wr (LNK_PORT_STAT_LOCK n) 0) ((s.setWord LNK_STATE_STATE.off 0).setMap 0 0)
  s1.mLnk fun y => { y with hello := [], order := false, actWorker := false, pam := false, txSeq := [], rxSeq := [], nak := [],
                            retry := [], held := [] }

/-- Enter BYPASS while powered: an active device of a failover pair also demotes itself (R416, R447). -/
def State.enterBypass (s : State) : State :=
  if s.on SAF_FO_CFG_EN ∧ s.on SAF_STATE_ACTIVE then s.bypass.selfDemote 0 else s.bypass

/-- BYPASS_ENTRY (R416, R447): EN is 0, or domain 98 or 99 is out of Run. -/
def execBypassEntry (s : State) : Out :=
  if s.rd LNK_STATE_STATE ≠ rsBypass ∧ (¬ s.on LNK_CFG_EN ∨ s.domState 98 ≠ 0 ∨ s.domState 99 ≠ 0) then .next s.enterBypass else .next s

/-- The conditions of TRAINING. -/
def State.mayTrain (s : State) : Bool :=
  s.rd LNK_STATE_STATE == rsBypass && s.on LNK_CFG_EN && s.domState 98 == 0 && s.domState 99 == 0 && s.sys.launched

/-- Enter TRAINING. -/
def State.train (s : State) : State := (s.wr LNK_STATE_STATE rsTraining).mLnk fun y => { y with trainAt := s.now }

/-- TRAINING (R447). -/
def execTraining (s : State) : Out := if s.mayTrain ∧ s.lnk.fails = 0 then .next s.train else .next s

/-- TRAINING_COMPLETE (R447): both ports are up; their link delays are measured (R459). -/
def execTrainingComplete (delayA delayB : BitVec 16) (s : State) : Out :=
  if s.rd LNK_STATE_STATE ≠ rsTraining then .next s
  else
    let s1 := (List.range 2).foldl (fun a n => (a.wr (LNK_PORT_STAT_UP n) 1).wr (LNK_PORT_STAT_LOCK n) 0xFF) (s.wr LNK_STATE_STATE rsForward)
    let s2 := (((s1.wr (LNK_PORT_DELAY_NS 0) delayA.toNat).wr (LNK_PORT_DELAY_NS 1) delayB.toNat).wr LNK_STATE_RATE 0).mLnk fun y =>
      { y with fails := 0 }
    .next (s2.emit (.ringHello s.ownChip (s.on LNK_CFG_ROLE)))

/-- TRAIN_FAIL (R447). -/
def execTrainFail (s : State) : Out :=
  if s.rd LNK_STATE_STATE = rsTraining ∧ s.lnk.trainAt + 12 * 10 ^ 6 ≤ s.now then
    .next ((s.enterBypass.wr LNK_EVENT_TRAIN_FAIL 1).mLnk fun y => { y with fails := y.fails + 1, trainAt := s.now })
  else .next s

/-- TRAIN_RETRY (R447): a second after a failure, unless it was the third in a row. -/
def execTrainRetry (s : State) : Out :=
  if s.mayTrain ∧ 0 < s.lnk.fails ∧ s.lnk.fails < 3 ∧ s.lnk.trainAt + 10 ^ 9 ≤ s.now then .next s.train else .next s

/-- A write of LNK_CFG: EN = 1 ends the wait after three failures (R447). -/
def State.writeLnk (s : State) (off v : Nat) : State :=
  s.writeThen off v fun t => if off = LNK_CFG_EN.off ∧ bit v 31 then t.mLnk fun y => { y with fails := 0 } else t

/-! ### Hellos, the map, admission (R446, R453, R455, R456) -/

/-- Chip numbers rise along TLB, with one step back to the lowest (R445). -/
def ascending (l : List Nat) : Bool :=
  match l with
  | [] => true
  | x :: _ => decide (((l.zip (l.drop 1 ++ [x])).filter fun p => decide (p.2 < p.1)).length ≤ 1)

/-- HELLO (R446): the hello of the device some positions away along TLB. -/
def execHello (pos : Fin 8) (chip : Fin 8) (manager : Bool) (s : State) : Out :=
  if s.rd LNK_STATE_STATE < rsForward ∨ pos.val = 0 then .next s
  else
    let seen := (s.lnk.hello.filter fun h => h.1 != pos.val) ++ [(pos.val, chip.val, manager)]
    let order := (List.range 8).filterMap fun k => if k = 0 then some s.ownChip else (seen.find? fun h => h.1 == k).map fun h => h.2.1
    let s1 := s.mLnk fun y => { y with hello := seen, order := !ascending order }
    let s2 := if ascending order then s1 else s1.wr LNK_EVENT_ORDER 1
    let s3 := if chip.val = s.ownChip then s2.wr LNK_EVENT_DUPID 1 else s2
    let s4 := if manager ∧ s.on LNK_CFG_ROLE ∧ chip.val < s.ownChip then
      (s3.wr LNK_EVENT_ROLE 1).mLnk fun y => { y with actWorker := true } else s3
    .next (if bit (s4.rd LNK_MAP_MEMBERS) chip ∨ chip.val = s.ownChip then s4
      else s4.wr LNK_MAP_FWD (s4.rd LNK_MAP_FWD ||| 2 ^ chip.val))

/-- ADMISSION (R455, R458): the manager admits a FORWARD chip, itself among them, and distributes the map; a worker
admitted late receives the image so far (R458). -/
def execAdmission (chip : Fin 8) (s : State) : Out :=
  let own : Bool := chip.val == s.ownChip
  let there := if own then s.rd LNK_STATE_STATE == rsForward else bit (s.rd LNK_MAP_FWD) chip && s.rd LNK_STATE_STATE == rsMember
  if s.ringManager && !s.lnk.order && there && bit (s.rd LNK_CFG_EXPECT) chip then
    let members := s.rd LNK_MAP_MEMBERS ||| 2 ^ chip.val
    let s1 := (s.setMap members (s.rd LNK_MAP_FWD &&& (0xFF - 2 ^ chip.val))).emit (.ringMap members)
    let s2 := if own then (s1.wr LNK_STATE_STATE rsMember).wr LNK_STATE_MANAGER s.ownChip else s1
    let s3 := match own, s.sys.header with
      | false, some h => (List.range s.sys.comp).foldl (fun (a : State) (i : Nat) => match h.comps[i]? with
        | some c => if bit c.chips.toNat chip then a.emit (.image (some chip) (some i) s.sys.copy) else a
        | none => a) (s2.emit (.image (some chip) none s.sys.copy))
      | _, _ => s2
    .next s3.startRetrain
  else .next s

/-- Partitions that occupy chips which have left are faulted with kind LINK (R456). -/
def State.chipsLeft (s : State) (left : Nat) : State :=
  (List.range 16).foldl (fun a p =>
    match (setBitsOf 8 left).find? fun k => Config.spans p k with
    | some k => if a.on (PART_CFG_EN p) then a.partFault p kLink 266 k 0 else a
    | none => a) s

/-- MAP (R453): a map frame reaches a worker. -/
def execMapFrame (manager : Fin 8) (members fwd : BitVec 8) (s : State) : Out :=
  if s.rd LNK_STATE_STATE < rsForward ∨ s.ringManager then .next s
  else
    let left := s.rd LNK_MAP_MEMBERS &&& (0xFF - members.toNat)
    let s1 := ((s.setMap members.toNat fwd.toNat).wr LNK_STATE_MANAGER manager).wr LNK_STATE_STATE
      (if bit members.toNat s.ownChip then rsMember else rsForward)
    .next ((if s.rd LNK_MAP_MEMBERS = members.toNat then s1 else s1.startRetrain).chipsLeft left)

/-- MEMBER_LEAVE (R456): a member other than an absent manager, whose members keep the map, leaves it. -/
def execMemberLeave (chip : Fin 8) (s : State) : Out :=
  if bit (s.rd LNK_MAP_MEMBERS) chip ∧ chip.val ≠ s.ownChip ∧ (s.ringManager ∨ chip.val ≠ s.rd LNK_STATE_MANAGER) then
    let members := s.rd LNK_MAP_MEMBERS - 2 ^ chip.val
    let s1 := (s.setMap members (s.rd LNK_MAP_FWD)).startRetrain.mLnk fun y =>
      { y with pam := false, hello := y.hello.filter fun h => h.2.1 != chip.val }
    .next ((if s1.ringManager then s1.emit (.ringMap members) else s1).chipsLeft (2 ^ chip.val))
  else .next s

/-! ### Retraining (R454, R455) -/

/-- RATE_RETRAIN (R455): to PAM4 once the map equals EXPECT, or back to NRZ; a worker follows the manager. -/
def execRateRetrain (pam : Bool) (s : State) : Out :=
  let up := s.on LNK_CFG_AUTORATE && s.rd LNK_MAP_MEMBERS == s.rd LNK_CFG_EXPECT && !s.lnk.noPam
  if s.rd LNK_STATE_STATE = rsMember ∧ ¬ s.on LNK_STATE_RETRAIN ∧ s.on LNK_STATE_RATE = !pam ∧ (¬ s.ringManager ∨ ¬ pam ∨ up) then
    .next (s.startRetrain.mLnk fun y => { y with pam := pam })
  else .next s

/-- RETRAIN_COMPLETE (R454, R455): the links are trained and held frames leave; links that do not train at PAM4 train at NRZ. -/
def execRetrainComplete (ok : Bool) (delayA delayB : BitVec 16) (s : State) : Out :=
  if ¬ s.on LNK_STATE_RETRAIN ∨ s.on PWR_SAG_HOLD then .next s
  else if ¬ ok ∧ s.lnk.pam then
    .next ((s.wr LNK_EVENT_RATE_FAIL 1).mLnk fun y => { y with pam := false, noPam := true })
  else
    let s1 := (((s.wr LNK_STATE_RETRAIN 0).wr LNK_STATE_RATE (b2n s.lnk.pam)).bump LNK_STAT_RETRAINS).wr (LNK_PORT_DELAY_NS 0) delayA.toNat
    let s2 := (List.range 2).foldl (fun a n => (mget (fun _ => []) s.lnk.held n).foldl (fun b f => b.emit (.ring n f)) a)
      (s1.wr (LNK_PORT_DELAY_NS 1) delayB.toNat)
    .next (s2.mLnk fun y => { y with held := [] })

/-! ### Frames (R449 to R452) -/

/-- End a ring transaction in an error response of kind LINK. -/
def State.ringEnd (s : State) (x : RingPend) : State :=
  let s1 := s.mLnk fun y => { y with pend := y.pend.erase x }
  s1.send ⟨.rsp, 266 + x.port, x.msg.src, x.msg.part, x.msg.tag, x.msg.epoch, x.msg.chip, .error kLink (ringBody x.msg.body).2.1⟩

/-- Requests that waited for a direction try again (R453). -/
def State.ringRetryWaits (s : State) : State := s.lnk.wait.foldl (fun a m => a.ringReq m) (s.mLnk fun y => { y with wait := [] })

/-- The transaction a frame belongs to. -/
def State.pendOf? (s : State) (source tag chip : Nat) : Option RingPend :=
  s.lnk.pend.find? fun x => x.msg.src == source && x.msg.tag % 32 + 32 * b2n x.msg.epoch == tag && x.msg.chip == chip

/-- A port goes down after 16 attempts at one frame (R451). -/
def State.portDown (s : State) (port : Nat) : State :=
  let lost := (mget (fun _ => []) s.lnk.retry port).map (·.1)
  let s1 := lost.foldl (fun a f =>
    if f.vc ≠ 0 then a
    else if f.src = a.ownChip then match a.pendOf? f.source f.tag f.dst with
      | some x => a.ringEnd x
      | none => a
    else a.ringTx (1 - port) { f with vc := 1, dst := f.src, src := a.ownChip, op := 9, len := kLink, data := [], notify := none }) s
  let s2 := (((s1.wr (LNK_PORT_STAT_UP port) 0).wr (LNK_PORT_STAT_LOCK port) 0).bump (LNK_PORT_STAT_LINKDOWNS port)).wr LNK_EVENT_LINKDOWN 1
  s2.train.mLnk fun y =>
    { y with retry := mset (fun _ => []) y.retry port [], held := mset (fun _ => []) y.held port [],
             txSeq := mset (fun _ => 0) y.txSeq port 0, rxSeq := mset (fun _ => 0) y.rxSeq port 0, nak := mset (fun _ => false) y.nak port false }

/-- NAK (R451): the receiver expects a SEQ; what came before it is acknowledged, the rest is sent again. -/
def execNak (port : Fin 2) (seq : BitVec 16) (s : State) : Out :=
  let n := port.val
  match (mget (fun _ => []) s.lnk.retry n).dropWhile fun e => e.1.seq != seq.toNat with
  | [] => .next s
  | e :: rest =>
    if 16 ≤ e.2 then .next (s.portDown n)
    else
      let again := (e :: rest).map fun x => (x.1, x.2 + 1)
      let s1 := (s.mLnk fun y => { y with retry := mset (fun _ => []) y.retry n again }).bumpBy (LNK_PORT_ERR_RETRIES n) again.length
      if s1.on LNK_STATE_RETRAIN then .next (s1.mLnk fun y => { y with held := mset (fun _ => []) y.held n (again.map (·.1)) })
      else .next (again.foldl (fun a x => a.emit (.ring n x.1)) s1)

/-- A request of another chip reaches its device: to the home slice, or answered with a decode error (R46, R47, R347). -/
def State.ringServe (s : State) (port : Nat) (f : RingFrame) : State :=
  let src := epRemote port f.src f.source
  let mk (cls : MsgCls) (a b : Nat) (body : MsgBody) : Msg := ⟨cls, a, b, f.part, f.tag % 32, bit f.tag 5, s.ownChip, body⟩
  let v (n i : Nat) : Nat := leNum ((f.data.drop (i * n)).take n)
  match s.decode f.addr with
  | .tun sl =>
    match f.op with
    | 0 => s.send (mk .req src (epSlice sl) (.memRead f.addr f.len (List.replicate (2 * f.len) none)))
    | 1 => s.send (mk .req src (epSlice sl) (.memWrite f.addr f.data none))
    | 2 => s.send (mk .req src (epSlice sl) (.memWrite f.addr f.data f.notify))
    | 3 => s.send (mk .req src (epSlice sl) (.atomic f.addr false (f.data.length == 8) (v f.data.length 0) 0 (anyPois f.data) 0))
    | 4 =>
      let n := f.data.length / 2
      s.send (mk .req src (epSlice sl) (.atomic f.addr true (n == 8) (v n 0) (v n 1) (anyPois f.data) 0))
    | _ => s
  | _ => s.send (mk .rsp (266 + port) src (.error kDecode f.addr))

/-- A response for this device: its transaction ends; one that none waits for is late (R452). -/
def State.ringAnswer (s : State) (port : Nat) (f : RingFrame) : State :=
  match s.pendOf? f.source f.tag f.src with
  | none => s.bump LNK_STAT_LATE
  | some x =>
    let body : MsgBody := match f.op, x.msg.body with
      | 5, .memRead _ _ back => .readData back f.data
      | 7, .atomic _ _ w64 _ _ _ back => .atomRes back w64 (leNum f.data) (anyPois f.data)
      | 9, _ => .error f.len f.addr
      | _, _ => .ack
    let s1 := s.mLnk fun y => { y with pend := y.pend.erase x }
    (s1.send ⟨.rsp, 266 + port, x.msg.src, x.msg.part, x.msg.tag, x.msg.epoch, x.msg.chip, body⟩).ringRetryWaits

/-- What an accepted frame does: delivered, or forwarded by the other port. -/
def State.ringDeliver (s : State) (port : Nat) (f : RingFrame) : State :=
  if f.op = 15 then
    match (mget (fun _ => []) s.lnk.retry port).dropWhile fun e => e.1.seq != f.addr % 2 ^ 16 with
    | [] => s
    | _ :: rest => s.mLnk fun y => { y with retry := mset (fun _ => []) y.retry port rest }
  else if f.vc = 3 then s
  else if f.dst ≠ s.ownChip then s.ringTx (1 - port) f
  else if s.rd LNK_STATE_STATE ≠ rsMember then s
  else match f.vc with
  | 0 => s.ringServe port f
  | 1 => s.ringAnswer port f
  | _ => if s.on (PART_CFG_EN f.part) then s.partFault f.part f.len f.source f.src f.addr else s

/-- RING_FRAME (R451): a frame arrives, its CRC good or not. -/
def execRingFrame (port : Fin 2) (f : RingFrame) (crcOk : Bool) (s : State) : Out :=
  let n := port.val
  if s.rd LNK_STATE_STATE < rsForward ∨ ¬ s.on (LNK_PORT_STAT_UP n) then .next s
  else
    let want := mget (fun _ => 0) s.lnk.rxSeq n
    if ¬ crcOk ∨ f.seq ≠ want then
      let s1 := s.bump (LNK_PORT_ERR_CRC n)
      if mget (fun _ => false) s.lnk.nak n then .next s1
      else .next ((s1.mLnk fun y => { y with nak := mset (fun _ => false) y.nak n true }).emit (.ringNak n want))
    else
      let s1 := s.mLnk fun y => { y with rxSeq := mset (fun _ => 0) y.rxSeq n ((want + 1) % 2 ^ 16), nak := mset (fun _ => false) y.nak n false }
      .next ((s1.emit (.ringAck n want)).ringDeliver n f)

/-- RING_TIMEOUT (R452): TMO ms without a response; the tag's epoch bit marks a later one as late. -/
def execRingTimeout (c : Fin 256) (tag : Fin 32) (s : State) : Out :=
  match s.lnk.pend.find? fun x => x.msg.src == c.val && x.msg.tag == tag.val && decide (x.sent + s.rd LNK_CFG_TMO * 10 ^ 6 ≤ s.now) with
  | none => .next s
  | some x =>
    let s1 := (s.mLnk fun y => { y with pend := y.pend.erase x }).setTag c tag { s.tag c tag with epoch := !(s.tag c tag).epoch }
    .next ((s1.send ⟨.rsp, 266 + x.port, c, x.msg.part, tag, !x.msg.epoch, x.msg.chip, .error kLink (ringBody x.msg.body).2.1⟩).ringRetryWaits)

/-! ### Time (R459) -/

/-- TIME_FRAME_SEND (R459). -/
def execTimeFrameSend (s : State) : Out :=
  if s.ringManager ∧ s.on LNK_TIME_CFG_EN ∧ s.rd LNK_STATE_STATE = rsMember ∧ ¬ s.on LNK_STATE_RETRAIN ∧
      s.lnk.timeAt + s.rd LNK_TIME_CFG_INTERVAL * 10 ^ 6 ≤ s.now then
    let t := s.time (s.rd LNK_TIME_CFG_TS)
    .next (((s.emit (.ringTime 0 t 0)).emit (.ringTime 1 t 0)).mLnk fun y => { y with timeAt := s.now })
  else .next s

/-- TIME_FRAME (R459): forwarded with the delay of the link it came by and its residence time (in 2⁻¹⁶ ns) added; where it came
by the worker's port, also a pair for the servo. -/
def execTimeFrame (port : Fin 2) (t : BitVec 64) (corr residence : Nat) (s : State) : Out :=
  if s.rd LNK_STATE_STATE < rsForward ∨ s.ringManager then .next s
  else
    let c := corr + s.rd (LNK_PORT_DELAY_NS port) * 2 ^ 16
    let s1 := s.emit (.ringTime (1 - port.val) t.toNat (c + residence))
    .next (if s.on LNK_TIME_CFG_EN ∧ s.rd LNK_TIME_CFG_PORT = port.val ∧ s.rd LNK_STATE_STATE = rsMember then
      s1.pair 2 ((t.toNat + c / 2 ^ 16) % 2 ^ 64) s.now else s1)

end Sys2Proof.Machine
end

