-- ==== Sys2Proof/Machine/Roce.lean ====
section
/-! DEFINITION. The RoCE engine (R460 to R464): work requests, inbound requests, retransmission and congestion. -/

namespace Sys2Proof.Machine

def qpBase (q : Nat) : Nat := 0xE90000 + 0x40 * q
def qpReset : Nat → QpSt := fun _ => ⟨[], 0, 0, [], 2 ^ 16, 0⟩
def State.qpOf (s : State) (q : Nat) : QpSt := mget qpReset s.qp q
def State.setQp (s : State) (q : Nat) (v : QpSt) : State := { s with qp := mset qpReset s.qp q v }
def State.qpPart (s : State) (q : Nat) : Nat := s.rd (NET_QP_CFG_OWNER q)
def State.qpSize (s : State) (q : Nat) : Nat := 2 ^ s.rd (NET_QP_CFG_LOG2SIZE q)
def qpReady : Nat := 1
def qpError : Nat := 2

/-- A write of a register of a QP: CFG's other fields change only while EN is 0 (NET_QPq_CFG). -/
def State.writeQp (s : State) (q off v : Nat) : State :=
  s.writeIf off v fun s0 put =>
    let t := put s0
    let en := s0.on (NET_QP_CFG_EN q)
    if off ≠ (NET_QP_CFG_EN q).off then
      if (off - qpBase q = 0x10 ∨ off - qpBase q = 0x18) ∧ v % 64 ≠ 0 then s0.cfgRefuse off else t
    else if en ∧ bits (t.word off) 30 0 ≠ bits (s0.word off) 30 0 then s0.cfgRefuse off
    else if ¬ en ∧ t.on (NET_QP_CFG_EN q) then
      ((t.wr (NET_QP_STAT_STATE q) qpReady).setQp q (qpReset 0)).setQueue (qpBase q) ⟨0, 0⟩
    else if en ∧ ¬ t.on (NET_QP_CFG_EN q) then (t.wr (NET_QP_STAT_STATE q) 0).setQp q (qpReset 0)
    else t

/-- The QP works: enabled, READY, its owner's blocks running. -/
def State.qpLive (s : State) (q : Nat) : Bool :=
  s.on (NET_QP_CFG_EN q) && s.rd (NET_QP_STAT_STATE q) == qpReady && s.fetchOk (s.qpPart q)

/-- Read a QP's producer word (R463). -/
def State.qpPoll (s : State) (q : Nat) : State :=
  let a := Config.qpPword (s.rd (NET_QP_SQ_ADDR q)) (s.rd (NET_QP_CFG_LOG2SIZE q))
  let p := s.qpPart q
  if ¬ s.qpLive q then s
  else if ¬ s.inTun a then s.blkFail p srcNet .decode a
  else match s.checkRun p false a 4 with
  | .ok =>
    let r := s.blkRead a 4
    if anyPois r.1 then r.2.bite p srcNet a else r.2.setQueue (qpBase q) ⟨leNum r.1, (s.queue (qpBase q)).next⟩
  | c => s.blkFail p srcNet c a

/-- Write a completion of a QP. -/
def State.qpDone (s : State) (q : Nat) (d : RoceDone) : State :=
  let x := s.qpOf q
  let a := s.rd (NET_QP_CQ_ADDR q) + x.cidx % s.qpSize q * 64
  let p := s.qpPart q
  match s.checkRun p true a 64 with
  | .ok => (s.blkWrite a (leBytes 64 (Config.roceRecord d).toNat)).setQp q { x with cidx := x.cidx + 1 }
  | c => s.blkFail p srcNet c a

/-- Notify a QP's owner of units. -/
def State.qpNotify (s : State) (q units : Nat) : State :=
  if s.on (NET_QP_NOTE_EN q) then s.notify srcNet (s.qpPart q) (s.rd (NET_QP_NOTE_CORE q)) (s.rd (NET_QP_NOTE_CNT q)) units else s

/-- A range is Tun or LPDDR of the partition. -/
def State.roceRange (s : State) (p : Nat) (write : Bool) (a len : Nat) : Bool :=
  s.checkRun p write a len == .ok && decide (0x100000000 ≤ a)

/-- A work request's 512 bits (R463); none where a field is illegal. -/
def roceWr? (d : Nat) : Option RoceWr :=
  let op : RoceOp := match bits d 1 0 with | 0 => .send | 1 => .write | 2 => .writeImm | _ => .read
  let len := rdWord d 0x10
  let used := coverMask [(2, 0), (127, 64), (191, 128), (255, 192), (287, 256)]
  if d &&& (2 ^ 512 - 1 - used) ≠ 0 ∨ len = 0 ∨ 2 ^ 30 < len ∨ (op = .writeImm ∧ len % 64 ≠ 0) then none
  else some ⟨op, bit d 2, bits d 127 64, len, rdWord d 0x14, bits d 255 192, rdWord d 0x20⟩

/-- Deal with the answer to the oldest request sent. -/
def State.roceReply (s : State) (q : Nat) (r : RoceReply) : State :=
  let x := s.qpOf q
  match x.sent with
  | [] => s
  | (wr, _, _) :: rest =>
    let t := s.setQp q { x with sent := rest, tries := 0 }
    match r with
    | .nothing => s
    | .ack => t.qpDone q (.sent wr .ok)
    | .data bytes =>
      if wr.op = .read then (t.blkWrite wr.laddr ((List.range wr.len).map fun i => (bytes.getD i 0, false))).qpDone q (.sent wr .ok) else s
    | .accessError => (t.qpDone q (.sent wr .remote)).wr (NET_QP_STAT_STATE q) qpError

/-- ROCE_WORK_REQUEST (R461 to R463): the next posted request is checked and sent; `r` is what has come back, where it is the
only one in flight. -/
def execRoceWorkRequest (q : Fin 512) (r : RoceReply) (s : State) : Out :=
  let u := s.queue (qpBase q)
  let a := s.rd (NET_QP_SQ_ADDR q) + u.next % s.qpSize q * 64
  let p := s.qpPart q
  if ¬ s.qpLive q ∨ u.prod = u.next then .next s
  else match s.checkRun p false a 64 with
  | .ok =>
    let d := s.blkRead a 64
    let s1 := d.2.setQueue (qpBase q) ⟨u.prod, (u.next + 1) % 2 ^ 32⟩
    if anyPois d.1 then .next ((s1.qpDone q (.sent ⟨.send, false, 0, 0, 0, 0, 0⟩ .poison)).bite p srcNet a)
    else match roceWr? (leNum d.1) with
    | none => .next (s1.qpDone q (.sent ⟨.send, false, 0, 0, 0, 0, 0⟩ .desc))
    | some wr =>
      if wr.fence ∧ (s.qpOf q).sent.any (fun x => x.1.op == .read) then .next s
      else if ¬ s1.roceRange p (wr.op == .read) wr.laddr wr.len then .next (s1.qpDone q (.sent wr .iso))
      else
        let b := if wr.op = .read then ([], s1) else s1.blkRead wr.laddr wr.len
        if anyPois b.1 then .next ((b.2.qpDone q (.sent wr .poison)).bite p srcNet wr.laddr)
        else
          let psn := b.2.rd (NET_QP_PSN_PSN q)
          let data := b.1.map (·.1)
          let x := b.2.qpOf q
          let s2 := ((b.2.setQp q { x with sent := x.sent ++ [(wr, psn, data)] }).wr (NET_QP_PSN_PSN q)
            ((psn + ceilDiv wr.len (1024 * 2 ^ b.2.rd (NET_QP_CFG_MTU q))) % 2 ^ 24)).emit (.roceSend q psn wr data)
          .next (if x.sent.isEmpty then s2.roceReply q r else s2)
  | c => .next (s.blkFail p srcNet c a)

/-- ROCE_RETRANSMIT (R461): everything unanswered is sent again; after 7 retries the QP enters ERROR and its owner is notified. -/
def execRoceRetransmit (q : Fin 512) (replies : List RoceReply) (s : State) : Out :=
  let x := s.qpOf q
  if ¬ s.qpLive q ∨ x.sent.isEmpty then .next s
  else if 7 ≤ x.tries then .next ((s.wr (NET_QP_STAT_STATE q) qpError).qpNotify q 1)
  else
    let s1 := x.sent.foldl (fun a w => a.emit (.roceSend q w.2.1 w.1 w.2.2)) ((s.setQp q { x with tries := x.tries + 1 }).bump (NET_QP_STAT_RETRY q))
    .next (replies.foldl (fun a r => a.roceReply q r) s1)

/-- The key of an inbound request permits it (R462). -/
def State.keyOk (s : State) (q : Nat) (r : RoceIn) : Bool :=
  let k := r.rkey.toNat % 256
  let base := s.rd (NET_MKEY_BASE_ADDR k)
  let write := r.op != .read
  s.on (NET_MKEY_CFG_EN k) && s.rd (NET_MKEY_CFG_PART k) == s.qpPart q && s.rd (NET_MKEY_CFG_TAG k) == r.rkey.toNat / 256 &&
    (!write || s.on (NET_MKEY_CFG_WR k)) && decide (base ≤ r.raddr ∧ r.raddr + r.len ≤ base + 64 * s.rd (NET_MKEY_LEN_LEN k)) &&
    s.roceRange (s.qpPart q) write r.raddr r.len

/-- ROCE_INBOUND (R462): executed, or answered with a remote access error and the QP in ERROR. -/
def execRoceInbound (q : Fin 512) (r : RoceIn) (s : State) : Out :=
  if ¬ s.qpLive q then .next s
  else if r.op = .send then .next ((s.qpDone q (.received 0 r.data)).emit (.roceAnswer q .ack))
  else if ¬ s.keyOk q r then .next ((s.wr (NET_QP_STAT_STATE q) qpError).emit (.roceAnswer q .accessError))
  else if r.op = .read then
    let b := s.blkRead r.raddr r.len
    .next (if anyPois b.1 then b.2.bite (s.qpPart q) srcNet r.raddr else b.2.emit (.roceAnswer q (.data (b.1.map (·.1)))))
  else
    let s1 := s.blkWrite r.raddr ((List.range r.len).map fun i => (r.data.getD i 0, false))
    let s2 := if r.op = .writeImm then s1.setQp q { s1.qpOf q with imms := (s1.qpOf q).imms ++ [(r.len, r.imm.toNat)] } else s1
    .next (s2.emit (.roceAnswer q .ack))

/-- ROCE_IMMEDIATE_DONE (R463): the counter advances, then the receive completion is written. -/
def execRoceImmediateDone (q : Fin 512) (s : State) : Out :=
  let x := s.qpOf q
  match x.imms with
  | [] => .next s
  | (len, imm) :: rest => .next (((s.setQp q { x with imms := rest }).qpNotify q (len / 64)).qpDone q (.received imm []))

/-- The fraction of its rate a QP has regained (R461): linear over 1 ms. -/
def State.qpRate (s : State) (q : Nat) : Nat :=
  let x := s.qpOf q
  min (2 ^ 16) (x.rate + (2 ^ 16 - x.rate) * (s.now - x.cut) / 10 ^ 6)

/-- ROCE_CNP (R461): the QP's rate halves. -/
def execRoceCnp (q : Fin 512) (s : State) : Out :=
  if s.on (NET_QP_CFG_EN q) then .next (s.setQp q { s.qpOf q with rate := s.qpRate q / 2, cut := s.now }) else .next s

end Sys2Proof.Machine
end

