-- ==== Sys2Proof/Machine/Can.lean ====
section
/-! DEFINITION. Receive rings of CAN, NET and SER (R474, R481, R486), the CAN controllers (R466 to R473) and the gateway
(R475 to R479). -/

namespace Sys2Proof.Machine

def State.mCan (s : State) (f : CanSt → CanSt) : State := { s with can := f s.can }
def State.mNet (s : State) (f : NetSt → NetSt) : State := { s with net := f s.net }

/-! ### Receive rings, by the offset of their registers (R340 to R342, R474) -/

def rBase (b : Nat) : Fld := ⟨b, 47, 0, true⟩
def rEn (b : Nat) : Fld := ⟨b + 8, 31, 31, false⟩
def rOwner (b : Nat) : Fld := ⟨b + 8, 29, 26, false⟩
def rLog (b : Nat) : Fld := ⟨b + 8, 20, 16, false⟩
def rNen (b : Nat) : Fld := ⟨b + 8, 15, 15, false⟩
def rCnt (b : Nat) : Fld := ⟨b + 8, 12, 8, false⟩
def rCore (b : Nat) : Fld := ⟨b + 8, 7, 0, false⟩
def rWidx (b : Nat) : Fld := ⟨b + 0xC, 31, 0, false⟩
def rRaddr (b : Nat) : Fld := ⟨b + 0x10, 47, 0, true⟩
def rLost (b : Nat) : Fld := ⟨b + 0x18, 31, 0, false⟩

def ringReset : Nat → RingSt := fun _ => ⟨0, false⟩
def State.ring (s : State) (b : Nat) : RingSt := mget ringReset s.rings b
def State.setRing (s : State) (b : Nat) (v : RingSt) : State := { s with rings := mset ringReset s.rings b v }

/-- The partition of a ring: CKP's belong to the block's owner (R499). -/
def State.rPart (s : State) (b : Nat) : Nat := if b >>> 20 = 17 then s.rd CKP_CFG_OWNER else s.rd (rOwner b)

/-- Record in the block a ring belongs to that a record was lost; CKP has no bit for it. -/
def State.rxLost (s : State) (b : Nat) : State :=
  match b >>> 20 with
  | 13 => s.wr CAN_EVENT_RXLOST 1
  | 14 => s.wr NET_EVENT_RXLOST 1
  | 16 => s.wr SER_EVENT_RXLOST 1
  | _ => s
/-- The bit a refused enable sets: ISO of the block, CFG_ERR of CKP. -/
def rIso (b : Nat) : Fld :=
  match b >>> 20 with | 13 => CAN_EVENT_ISO | 14 => NET_EVENT_ISO | 16 => SER_EVENT_ISO | _ => CKP_EVENT_CFG_ERR

/-- Notify a ring's target of units. -/
def State.ringNotify (s : State) (b units : Nat) : State :=
  if s.on (rNen b) then s.notify (qSrc b) (s.rPart b) (s.rd (rCore b)) (s.rd (rCnt b)) units else s

/-- Write a record of n bytes into a ring, or lose it; the record is made from its LOST bit (R340, R341). -/
def State.ringPut (s : State) (b n : Nat) (rec : Bool → List MByte) (note : Bool) : State :=
  let size := 2 ^ s.rd (rLog b)
  let w := s.rd (rWidx b)
  let p := s.rPart b
  let full (r : Nat) : Bool := decide (size ≤ (w + 2 ^ 32 - r) % 2 ^ 32)
  if ¬ s.on (rEn b) then (s.bump (rLost b)).rxLost b
  else
    let s1 := if full (s.ring b).read then
        let r := s.blkRead (s.rd (rRaddr b)) 4
        r.2.setRing b { s.ring b with read := leNum r.1 }
      else s
    if full (s1.ring b).read then
      ((s1.bump (rLost b)).rxLost b).setRing b { s1.ring b with lost := true }
    else
      let a := s1.rd (rBase b) + w % size * n
      match s1.checkRun p true a n with
      | .ok =>
        let s2 := ((s1.blkWrite a (rec (s1.ring b).lost)).bumpWrap (rWidx b) 1).setRing b { s1.ring b with lost := false }
        if note then s2.ringNotify b 1 else s2
      | c => s1.blkFail p (qSrc b) c a

/-- The ring, as its registers stand, meets R342; n is the size of a record. -/
def State.rxOk (s : State) (b n : Nat) : Bool :=
  let p := s.rPart b
  s.tunOwned p (s.rd (rBase b)) (n * 2 ^ s.rd (rLog b)) && s.tunOwned p (s.rd (rRaddr b)) 4 &&
    (!s.on (rNen b) || s.coreIn (s.rd (rCore b)) p)

/-- A write of a register of a receive ring (R342, R490). -/
def State.writeRx (s : State) (off b n v : Nat) : State :=
  s.writeIf off v fun s0 put =>
    let t := put s0
    let o := off - b
    if s0.on (rEn b) ∧ (o < 8 ∨ o = 0x10 ∨ o = 0x14 ∨ (o = 8 ∧ bits (t.word off) 30 0 ≠ bits (s0.word off) 30 0)) then s0.cfgRefuse off
    else if o = 8 ∧ t.on (rEn b) ∧ ¬ s0.on (rEn b) then
      if t.rd (rBase b) % 64 ≠ 0 ∨ t.rd (rRaddr b) % 4 ≠ 0 then s0.cfgRefuse off
      else if ¬ t.rxOk b n then s0.wr (rIso b) 1
      else (t.wr (rWidx b) 0).setRing b ⟨0, false⟩
    else t

/-- A write of a configuration register of a unit that stands enabled is ignored (R490), but for one of its CFG at `cfg` that clears
EN and leaves the rest. -/
def State.writeUnderEn (s : State) (en : Fld) (off v : Nat) (f : State → State → State) : State :=
  s.writeIf off v fun s0 put =>
    let t := put s0
    if s0.on en ∧ (off ≠ en.off ∨ (t.word off ≠ s0.word off ∧ t.word off + 2 ^ 31 ≠ s0.word off)) then s0.cfgRefuse off else f s0 t

/-! ### CAN queues (R471 to R473) -/

def canQ (n q : Nat) : Nat := 0xD01040 + 0x100 * n + 0x40 * q
def canRing (r : Nat) : Nat := 0xD03000 + 0x20 * r

/-- Data bytes of a frame by its DLC (R471). -/
def canLen (fdf : Bool) (dlc : Nat) : Nat :=
  if fdf then [0, 1, 2, 3, 4, 5, 6, 7, 8, 12, 16, 20, 24, 32, 48, 64].getD dlc 0 else min dlc 8

/-- The frame of a transmit descriptor (R471); none where it completes with DESC. -/
def canDesc? (d : Nat) : Option CanFrame :=
  let fdf := bit d 36
  let rtr := bit d 30
  let used := coverMask [(30, 0), (39, 32), (127, 64), (639, 128)]
  if d &&& (2 ^ 1024 - 1 - used) ≠ 0 ∨ (bit d 37 ∧ ¬ fdf) ∨ (rtr ∧ fdf) then none
  else some ⟨BitVec.ofNat 29 d, bit d 29, rtr, fdf, bit d 37, bit d 38, BitVec.ofNat 4 (d >>> 32),
    (List.range (if rtr then 0 else canLen fdf (bits d 35 32))).map fun i => BitVec.ofNat 8 (d >>> (128 + 8 * i))⟩

/-- A frame at offsets 0x00 to 0x4F of the descriptor layout, with the word at 0x08 and 0x0C given. -/
def canImage (f : CanFrame) (w8 : Nat) : List MByte :=
  leBytes 4 (f.id.toNat + b2n f.ide * 2 ^ 29 + b2n f.rtr * 2 ^ 30) ++
  leBytes 4 (f.dlc.toNat + b2n f.fdf * 16 + b2n f.brs * 32 + b2n f.esi * 64) ++ leBytes 8 w8 ++
  (List.range 64).map fun i => (f.data.getD i 0, false)

/-- A transmit completion record (R471). -/
def txRecord (stamp ts status tries err index user : Nat) : List MByte :=
  leBytes 8 stamp ++ leBytes 1 ts ++ leBytes 1 status ++ leBytes 1 (min tries 255) ++ leBytes 1 err ++ leBytes 4 index ++
    leBytes 8 user ++ leBytes 8 0

def txOk : Nat := 0
def txArbLost : Nat := 1
def txError : Nat := 2
def txBusOff : Nat := 3
def txFlushed : Nat := 4
def txPoison : Nat := 5
def txDesc : Nat := 6
def txLinkDown : Nat := 7
def txGateLong : Nat := 8
def txIso : Nat := 9

def State.canHead (s : State) (n q : Nat) : Option CanHead := mget (fun _ => none) s.can.heads (4 * n + q)
def State.setHead (s : State) (n q : Nat) (h : Option CanHead) : State :=
  s.mCan fun y => { y with heads := mset (fun _ => none) y.heads (4 * n + q) h }

/-- Complete the head of a queue. -/
def State.canDone (s : State) (n q : Nat) (h : CanHead) (status err : Nat) : State :=
  (s.setHead n q none).complete (canQ n q) 32
    (txRecord (if h.tsreq then h.stamp else 0) (s.rd (CAN_TX_CFG_TS n q)) status h.tries err h.index h.user)

/-- Take the next entry of a queue of n-byte descriptors: its index, contents and whether it is poisoned. -/
def State.qTakeN (s : State) (b n : Nat) : Option (Nat × Nat × Bool) × State :=
  let u := s.queue b
  let a := s.rd (qSq b) + u.next % s.qSize b * n
  match s.checkRun (s.qPart b) false a n with
  | .ok =>
    let r := s.blkRead a n
    (some (u.next, leNum r.1, anyPois r.1), r.2.setQueue b ⟨u.prod, (u.next + 1) % 2 ^ 32⟩)
  | c => (none, s.blkFail (s.qPart b) (qSrc b) c a)

/-- Bring the next sendable frame of a queue to its head: poisoned and illegal descriptors complete on the way. -/
def State.canFetch (s : State) (n q : Nat) : Nat → State
  | 0 => s
  | k + 1 =>
    if (s.canHead n q).isSome ∨ ¬ s.qReady (canQ n q) then s
    else
      let r := s.qTakeN (canQ n q) 128
      match r.1 with
      | none => r.2
      | some (i, d, pois) =>
        let done (t : State) (st : Nat) : State :=
          t.complete (canQ n q) 32 (txRecord 0 (t.rd (CAN_TX_CFG_TS n q)) st 0 0 i (bits d 127 64))
        if pois then
          ((done r.2 txPoison).wr CAN_EVENT_POISON 1).bite (s.qPart (canQ n q)) srcCan (s.rd (qSq (canQ n q)) + i % s.qSize (canQ n q) * 128)
        else match canDesc? d with
        | none => (done r.2 txDesc).canFetch n q k
        | some f => r.2.setHead n q (some ⟨f, i, bits d 127 64, bit d 39, 0, 0⟩)

/-- Entries of a queue not yet taken. -/
def State.qLeft (s : State) (b : Nat) : Nat := ((s.queue b).prod + 2 ^ 32 - (s.queue b).next) % 2 ^ 32

/-- Complete every entry of a queue before index `upto` with a status, the head included. -/
def State.canDrain (s : State) (n q status upto : Nat) : Nat → State
  | 0 => s
  | k + 1 =>
    let t := s.canFetch n q (s.qLeft (canQ n q) + 1)
    match t.canHead n q with
    | none => t
    | some h => if (upto + 2 ^ 32 - h.index - 1) % 2 ^ 32 < 2 ^ 31 then (t.canDone n q h status 0).canDrain n q status upto k else t

/-- Bits that decide arbitration under ISO 11898-1, most significant first; the lowest number wins (R472). -/
def arbKey (f : CanFrame) : Nat :=
  bits f.id.toNat 28 18 * 2 ^ 21 +
    (if f.ide then 2 ^ 20 + 2 ^ 19 + bits f.id.toNat 17 0 * 2 + b2n f.rtr else b2n f.rtr * 2 ^ 20)

/-- The frame that a controller's queue offers (queue 3: the gateway's egress). -/
def State.canOffer (s : State) (n q : Nat) : Option CanFrame :=
  if q = 3 then (mget (fun _ => []) s.can.egress n).head?
  else if s.on (qEn (canQ n q)) ∧ s.fetchOk (s.qPart (canQ n q)) then (s.canHead n q).map (·.frame) else none

/-- CAN_ARBITRATION (R472): the frame that would win arbitration is offered; equal fields go in ascending queue order. -/
def execCanArbitration (n : Fin 16) (s : State) : Out :=
  if ¬ s.on (CAN_CFG_EN n) ∨ s.rd (CAN_CFG_MODE n) = 1 ∨ 2 ≤ s.rd (CAN_STAT_STATE n) ∨
      (mget (fun _ => none) s.can.bus n).isSome then .next s
  else
    let s1 := [0, 1, 2].foldl (fun a q => a.canFetch n q (a.qLeft (canQ n q) + 1)) s
    let best := [0, 1, 2, 3].foldl (fun (a : Option (Nat × Nat)) q => match s1.canOffer n q, a with
      | some f, some (k, q') => if arbKey f < k then some (arbKey f, q) else some (k, q')
      | some f, none => some (arbKey f, q)
      | none, _ => a) none
    match best with
    | some (_, q) => .next (s1.mCan fun y => { y with bus := mset (fun _ => none) y.bus n (some q) })
    | none => .next s1

/-! ### Fault confinement (R470) -/

def canBusOff : Nat := 2
def canRecovering : Nat := 3

/-- Every queued frame of the one-shot queues of a controller completes with BUSOFF. -/
def State.dropOneShot (s : State) (n : Nat) : State :=
  [0, 1, 2].foldl (fun a q =>
    if Config.canOneShot n q then a.canDrain n q txBusOff (a.queue (canQ n q)).prod (a.qLeft (canQ n q) + 2) else a) s

/-- The counters take new values and the state follows (R470). -/
def State.canMove (s : State) (n tec0 rec0 : Nat) : State :=
  let t0 := s.rd (CAN_ERR_TEC n)
  let r0 := s.rd (CAN_ERR_REC n)
  let tec := min tec0 511
  let rr := min rec0 511
  let s1 := ((s.wr (CAN_ERR_TEC n) tec).wr (CAN_ERR_REC n) rr).wr (CAN_STAT_WARN n) (b2n (decide (96 ≤ tec ∨ 96 ≤ rr)))
  let s2 := if (t0 < 96 ∧ 96 ≤ tec) ∨ (r0 < 96 ∧ 96 ≤ rr) then s1.wr CAN_EVENT_WARN 1 else s1
  if 255 < tec then
    ((s2.wr (CAN_STAT_STATE n) (if s.on (CAN_CFG_BO_AUTO n) then canRecovering else canBusOff)).wr CAN_EVENT_BUSOFF 1).dropOneShot n
  else if 128 ≤ tec ∨ 128 ≤ rr then
    let s3 := s2.wr (CAN_STAT_STATE n) 1
    if s.rd (CAN_STAT_STATE n) = 0 then s3.wr CAN_EVENT_PASSIVE 1 else s3
  else s2.wr (CAN_STAT_STATE n) 0

/-- CAN_BUS_ERROR (R470): an error while receiving; `one` says that the increment of 1 applies. -/
def execCanBusError (n : Fin 16) (code : Fin 6) (one : Bool) (eights : Nat) (s : State) : Out :=
  if ¬ s.on (CAN_CFG_EN n) ∨ 2 ≤ s.rd (CAN_STAT_STATE n) then .next s
  else .next ((s.wr (CAN_STAT_LEC n) code).canMove n (s.rd (CAN_ERR_TEC n)) (s.rd (CAN_ERR_REC n) + b2n one + 8 * eights))

/-- Recovery starts (R470). -/
def State.canRecover (s : State) (n : Nat) : State :=
  if s.rd (CAN_STAT_STATE n) = canBusOff then s.wr (CAN_STAT_STATE n) canRecovering else s

/-- RECOVER (R470). -/
def execRecover (req : Requester) (n : Fin 16) (s : State) : Out :=
  .next (s.asWriter req (CAN_CMD_RECOVER n).off 4 fun a => a.canRecover n)

/-- RECOVERY_COMPLETE (R470). -/
def execRecoveryComplete (n : Fin 16) (s : State) : Out :=
  if s.rd (CAN_STAT_STATE n) = canRecovering then
    .next ((((s.wr (CAN_ERR_TEC n) 0).wr (CAN_ERR_REC n) 0).wr (CAN_STAT_WARN n) 0).wr (CAN_STAT_STATE n) 0)
  else .next s

/-- A FLUSH of a queue (R473). -/
def State.canFlush (s : State) (n q : Nat) : State :=
  let upto := (s.queue (canQ n q)).prod
  if mget (fun _ => none) s.can.bus n = some q then s.mCan fun y => { y with flush := mset (fun _ => none) y.flush (4 * n + q) (some upto) }
  else s.canDrain n q txFlushed upto (s.qLeft (canQ n q) + 2)

/-- A flush of the gateway's egress queue: a frame on the bus ends its attempt first. -/
def State.gwFlush (s : State) (n : Nat) : State :=
  if mget (fun _ => none) s.can.bus n = some 3 then
    s.mCan fun y => { y with flush := mset (fun _ => none) y.flush (4 * n + 3) (some 0),
                             egress := mset (fun _ => []) y.egress n ((mget (fun _ => []) y.egress n).take 1) }
  else s.mCan fun y => { y with egress := mset (fun _ => []) y.egress n [] }

/-- A write of CAN_n_CMD. -/
def State.writeCanCmd (s : State) (n v : Nat) : State :=
  let s1 := if bit v 0 then s.canRecover n else s
  let s2 := [0, 1, 2].foldl (fun a q => if bit v (q + 1) then a.canFlush n q else a) s1
  if bit v 4 then s2.gwFlush n else s2

/-- FLUSH (R473). -/
def execFlush (req : Requester) (n : Fin 16) (mask : BitVec 3) (s : State) : Out :=
  .next (s.asWriter req (CAN_CMD_FLUSH n).off 4 fun a => a.writeCanCmd n (2 * mask.toNat))

/-- FLUSH_GATEWAY_EGRESS (R490). -/
def execFlushGatewayEgress (req : Requester) (n : Fin 16) (s : State) : Out :=
  .next (s.asWriter req (CAN_CMD_FLUSH_GW n).off 4 fun a => a.writeCanCmd n 16)

/-! ### The gateway (R475 to R478) -/

def ruleW (s : State) (i w : Nat) : Nat := s.rd (CAN_RULE_WORD i w)

/-- The rule is enabled, of a KIND and IN. -/
def State.ruleFor (s : State) (i kind inp : Nat) : Bool :=
  bit (ruleW s i 0) 31 && bits (ruleW s i 0) 30 28 == kind && bits (ruleW s i 0) 27 22 == inp

/-- The bits of a CAN frame that a rule compares. -/
def gwBits (f : CanFrame) : Nat := f.id.toNat + b2n f.ide * 2 ^ 29 + b2n f.fdf * 2 ^ 30

/-- The first enabled rule that matches a CAN frame (KIND 0 or 2). -/
def State.canRule (s : State) (kind inp bus : Nat) (f : CanFrame) : Option Nat :=
  (List.range 4096).find? fun i => s.ruleFor i kind inp && (kind == 0 || bits (ruleW s i 0) 4 0 == bus) &&
    ((ruleW s i 1 ^^^ gwBits f) &&& bits (ruleW s i 2) 30 0) == 0

/-- The first enabled rule that matches an Ethernet frame. -/
def State.ethRule (s : State) (inp : Nat) (f : EthFrame) : Option Nat :=
  (List.range 4096).find? fun i => s.ruleFor i 1 inp && ruleW s i 1 + bits (ruleW s i 2) 15 0 * 2 ^ 32 == f.dst.toNat &&
    (!bit (ruleW s i 2) 28 || match f.tag with
      | some t => t.toNat % 2 ^ 12 == bits (ruleW s i 2) 27 16
      | none => false)

/-- The frame a rule sends to a CAN egress; none where FDOUT drops it (R476). -/
def gwCanOut (w5 : Nat) (f : CanFrame) : Option CanFrame :=
  let g := if bit w5 29 then { f with id := BitVec.ofNat 29 w5 } else f
  let dlc8 : BitVec 4 := if 8 < f.dlc.toNat ∧ ¬ f.fdf then 8 else f.dlc
  match bits w5 31 30 with
  | 0 => some g
  | 1 => if 8 < f.data.length then none else some { g with fdf := false, brs := false, esi := false }
  | k => if f.rtr then some g else some { g with fdf := true, brs := k == 3, dlc := dlc8 }

/-- A frame for the egress queue of a controller: 64 places (R478). -/
def State.gwToCan (s : State) (n w5 : Nat) (f : CanFrame) : State :=
  match gwCanOut w5 f with
  | none => (s.bump CAN_GW_DROP_FORMAT).wr CAN_EVENT_GWDROP 1
  | some g =>
    let l := mget (fun _ => []) s.can.egress n
    if 64 ≤ l.length then (s.bump CAN_GW_DROP_EGRESS).wr CAN_EVENT_GWDROP 1
    else s.mCan fun y => { y with egress := mset (fun _ => []) y.egress n (l ++ [g]) }

/-- The class of a port for a frame's PCP (R478, R481). -/
def State.rxClass (s : State) (port : Nat) (f : EthFrame) : Nat :=
  let pcp := match f.tag with
    | some t => t.toNat / 2 ^ 13
    | none => 0
  bits (s.rd (NET_P_RXMAP_MAP port)) (3 * pcp + 2) (3 * pcp)

/-- A frame for an Ethernet egress: 8 places per class (R478). -/
def State.gwToEth (s : State) (port : Nat) (f : EthFrame) : State :=
  let k := 8 * port + s.rxClass port f
  let l := mget (fun _ => []) s.net.egress k
  if 8 ≤ l.length then (s.bump CAN_GW_DROP_EGRESS).wr CAN_EVENT_GWDROP 1
  else s.mNet fun y => { y with egress := mset (fun _ => []) y.egress k (l ++ [f]) }

/-- A receive record of a CAN frame into a ring (R474). -/
def State.canRecord (s : State) (r rule : Nat) (noMatch : Bool) (ingress : Nat) (f : CanFrame) (stamp ts : Nat) : State :=
  s.ringPut (canRing r) 128 (fun lost =>
    canImage f (rule + b2n noMatch * 2 ^ 12 + ingress * 2 ^ 16) ++ leBytes 8 stamp ++ leBytes 1 ts ++ leBytes 1 (b2n lost) ++ leBytes 38 0) true

/-- A message for an encapsulation stream (R477). -/
def State.encPush (s : State) (e : Nat) (f : CanFrame) (bus stamp : Nat) : State :=
  if s.on (CAN_ENC_CFG_EN e) ∧ ¬ s.on (CAN_ENC_CFG_DIR e) then
    let l := mget (fun _ => []) s.can.enc e
    s.mCan fun y => { y with
      enc := mset (fun _ => []) y.enc e (l ++ [(f, bus, s.timeAt (s.rd (CAN_ENC_CFG_TS e)) stamp)]),
      encAt := if l.isEmpty then mset (fun _ => 0) y.encAt e s.now else y.encAt }
  else s

/-- What a matching rule does with a CAN frame. -/
def State.canActs (s : State) (i ingress bus : Nat) (f : CanFrame) (stamp ts : Nat) : State :=
  let w3 := ruleW s i 3
  let s1 := (setBitsOf 16 (bits w3 15 0)).foldl (fun a n => a.gwToCan n (ruleW s i 5) f) (s.bump (CAN_RCNT_HITS i))
  let s2 := if bit w3 26 then s1.canRecord (bits (ruleW s i 4) 5 0) i false ingress f stamp ts else s1
  if bit w3 27 then s2.encPush (bits (ruleW s i 4) 13 8) f bus stamp else s2

/-- An unmatched frame of a controller: to DEFRING, or dropped and counted (R475). -/
def State.canDefault (s : State) (n : Nat) (f : CanFrame) (stamp : Nat) : State :=
  if s.on (CAN_CFG_DEFRX n) then s.canRecord (s.rd (CAN_CFG_DEFRING n)) 0 true n f stamp (s.rd (CAN_CFG_TS n))
  else (s.mCan fun y => { y with noMatch := y.noMatch + 1 }).wr CAN_EVENT_GWDROP 1

/-- CAN_FRAME_RECEIVED (R470, R475). -/
def execCanFrameReceived (n : Fin 16) (f : CanFrame) (stamp : BitVec 64) (s : State) : Out :=
  if ¬ s.on (CAN_CFG_EN n) ∨ s.rd (CAN_CFG_MODE n) = 2 ∨ 2 ≤ s.rd (CAN_STAT_STATE n) then .next s
  else
    let r := s.rd (CAN_ERR_REC n)
    let d := s.draw
    let s0 := if 127 < r then d.2 else s
    let s1 := s0.canMove n (s.rd (CAN_ERR_TEC n)) (if 127 < r then 119 + (Config.canRec d.1).val else r - 1)
    .next (match if s.on CAN_GW_CFG_EN then s1.canRule 0 n 0 f else none with
      | some i => s1.canActs i n n f stamp.toNat (s.rd (CAN_CFG_TS n))
      | none => s1.canDefault n f stamp.toNat)

/-- CAN_TX_ATTEMPT_END (R470, R473): `tdcv` is the delay measured in a transmitted FD frame (R469). -/
def execCanTxAttemptEnd (n : Fin 16) (how : CanTxEnd) (stamp : BitVec 64) (tdcv : Option (BitVec 7)) (s : State) : Out :=
  match mget (fun _ => none) s.can.bus n with
  | none => .next s
  | some q =>
    let fl := mget (fun _ => none) s.can.flush (4 * n + q)
    let frame := s.canOffer n q
    let s0 := s.mCan fun y => { y with bus := mset (fun _ => none) y.bus n none, flush := mset (fun _ => none) y.flush (4 * n + q) none }
    let s1 := match tdcv with
      | some d =>
        let t := s0.wr (CAN_STAT_TDCV n) d.toNat
        if s.on (CAN_CFG_TDC_EN n) ∧ 127 < d.toNat + s.rd (CAN_CFG_TDCO n) then t.wr CAN_EVENT_CFG_ERR 1 else t
      | none => s0
    let code : Nat := match how with
      | .error c _ _ => c
      | _ => 0
    let tec : Nat := match how with
      | .ok => s.rd (CAN_ERR_TEC n) - 1
      | .lost => s.rd (CAN_ERR_TEC n)
      | .error _ sp e => s.rd (CAN_ERR_TEC n) + (if sp then 0 else 8) + 8 * e
    let gone := how == .ok || fl.isSome
    let s2 := match frame with
      | some f => if how = .ok then s1.emit (.canTx n f) else s1
      | none => s1
    let s3 : State := if q = 3 then
        (if gone then s2.mCan fun y => { y with egress := mset (fun _ => []) y.egress n ((mget (fun _ => []) y.egress n).drop 1) } else s2)
      else match s2.canHead n q with
        | none => s2
        | some h0 =>
          let h := { h0 with tries := h0.tries + 1, stamp := stamp.toNat }
          let one := Config.canOneShot n q
          let a := if how = .ok then s2.canDone n q h txOk code
            else if fl.isSome then s2.canDone n q h txFlushed code
            else if how = .lost then (if one then s2.canDone n q h txArbLost code else s2.setHead n q (some h))
            else if one ∨ 255 < tec then s2.canDone n q h txError code
            else s2.setHead n q (some h)
          match fl with
          | some upto => a.canDrain n q txFlushed upto (a.qLeft (canQ n q) + 2)
          | none => a
    let s4 := if code = 0 then s3 else s3.wr (CAN_STAT_LEC n) code
    let s5 := if how = .lost then s4 else s4.canMove n tec (s.rd (CAN_ERR_REC n))
    match frame with
    | some f => .next (if how = .ok ∧ s.rd (CAN_CFG_MODE n) = 2 then s5.canDefault n f stamp.toNat else s5)
    | none => .next s5

/-! ### Encapsulation (R477) -/

/-- The bytes of a number, most significant first. -/
def beBytes (n v : Nat) : List (BitVec 8) := ((List.range n).map fun i => BitVec.ofNat 8 (v / 2 ^ (8 * i))).reverse

/-- An ACF CAN message (IEEE 1722-2016). -/
def acfBytes (m : CanFrame × Nat × Nat) : List (BitVec 8) :=
  let f := m.1
  let pad := (4 - f.data.length % 4) % 4
  let quads := 4 + (f.data.length + pad) / 4
  beBytes 2 (2 ^ 9 + quads) ++
  beBytes 1 (pad * 64 + 32 + b2n f.rtr * 16 + b2n f.ide * 8 + b2n f.brs * 4 + b2n f.fdf * 2 + b2n f.esi) ++ beBytes 1 m.2.1 ++
  beBytes 8 m.2.2 ++ beBytes 4 (if f.ide then f.id.toNat else f.id.toNat / 2 ^ 18) ++ f.data ++ List.replicate pad 0

/-- The NTSCF AVTPDU of some messages (IEEE 1722-2016), from its EtherType. -/
def avtpBytes (stream seq : Nat) (l : List (CanFrame × Nat × Nat)) : List (BitVec 8) :=
  let b := l.flatMap acfBytes
  beBytes 2 0x22F0 ++ beBytes 1 0x82 ++ beBytes 2 (2 ^ 15 + b.length) ++ beBytes 1 seq ++ beBytes 8 stream ++ b

/-- AVTPDU_SEND (R477): BATCH messages are collected, or HOLD µs passed since the first. -/
def execAvtpduSend (e : Fin 64) (s : State) : Out :=
  let l := mget (fun _ => []) s.can.enc e
  let n := s.rd (CAN_ENC_CFG_BATCH e) + 1
  let port := s.rd (CAN_ENC_CFG_PORT e)
  if ¬ s.on (CAN_ENC_CFG_EN e) ∨ l.isEmpty ∨ (l.length < n ∧ s.now < mget (fun _ => 0) s.can.encAt e + 1000 * s.rd (CAN_ENC_HOLD_HOLD e)) then .next s
  else
    let q := mget (fun _ => 0) s.can.encSeq e
    let s1 := s.mCan fun y => { y with enc := mset (fun _ => []) y.enc e (l.drop n), encSeq := mset (fun _ => 0) y.encSeq e ((q + 1) % 256),
                                       encAt := mset (fun _ => 0) y.encAt e s.now }
    .next (s1.gwToEth port ⟨BitVec.ofNat 48 (s.rd (CAN_ENC_DMAC_DMAC e)), BitVec.ofNat 48 (s.rd (NET_P_MAC_MAC port)),
      some (BitVec.ofNat 16 (s.rd (CAN_ENC_CFG_PCP e) * 2 ^ 13 + s.rd (CAN_ENC_CFG_VID e))),
      avtpBytes (s.rd (CAN_ENC_ID_STREAM_ID e)) q (l.take n)⟩)

/-- AVTPDU_RECEIVE (R475, R477): each ACF CAN message is looked up as KIND 2. -/
def execAvtpduReceive (e : Fin 64) (seq : BitVec 8) (msgs : List AcfMsg) (s : State) : Out :=
  if ¬ s.on (CAN_ENC_CFG_EN e) ∨ ¬ s.on (CAN_ENC_CFG_DIR e) then .next s
  else
    let gap := match mget (fun _ => none) s.can.decSeq e with
      | some q => b2n (decide ((q + 1) % 256 ≠ seq.toNat))
      | none => 0
    let s1 := s.mCan fun y => { y with decSeq := mset (fun _ => none) y.decSeq e (some seq.toNat),
                                       gaps := mset (fun _ => 0) y.gaps e (mget (fun _ => 0) y.gaps e + gap) }
    let ingress := 16 + s.rd (CAN_ENC_CFG_PORT e)
    .next (msgs.foldl (fun a m => match m with
      | .other => (a.bump CAN_GW_DROP_ACF).wr CAN_EVENT_ACFSKIP 1
      | .can bus f =>
        match if a.on CAN_GW_CFG_EN then a.canRule 2 e bus f else none with
        | some i => let d := a.draw
          d.2.canActs i ingress bus f (Config.acfStamp d.1).toNat (Config.acfTs d.1).toNat
        | none => (a.mCan fun y => { y with noMatch := y.noMatch + 1 }).wr CAN_EVENT_GWDROP 1) s1)

/-! ### Writes of CAN registers -/

/-- CLK_CAN cycles of a bit (R467). -/
def State.nomCycles (s : State) (n : Nat) : Nat :=
  (s.rd (CAN_NBT_NBRP n) + 1) * (s.rd (CAN_NBT_NTSEG1 n) + s.rd (CAN_NBT_NTSEG2 n) + 3)
def State.dataCycles (s : State) (n : Nat) : Nat :=
  (s.rd (CAN_DBT_DBRP n) + 1) * (s.rd (CAN_DBT_DTSEG1 n) + s.rd (CAN_DBT_DTSEG2 n) + 3)

/-- The nominal setting is legal (R467). -/
def State.nomOk (s : State) (n : Nat) : Bool :=
  let q := s.rd (CAN_NBT_NTSEG1 n) + s.rd (CAN_NBT_NTSEG2 n) + 3
  decide (1 ≤ s.rd (CAN_NBT_NTSEG1 n) ∧ s.rd (CAN_NBT_NTSEG2 n) ≤ 127 ∧ s.rd (CAN_NBT_NSJW n) ≤ s.rd (CAN_NBT_NTSEG2 n) ∧
    8 ≤ q ∧ q ≤ 385 ∧ 40 ≤ s.nomCycles n ∧ s.nomCycles n ≤ 4000)
/-- The data setting is legal (R467). -/
def State.dataOk (s : State) (n : Nat) : Bool :=
  let q := s.rd (CAN_DBT_DTSEG1 n) + s.rd (CAN_DBT_DTSEG2 n) + 3
  decide (s.rd (CAN_DBT_DSJW n) ≤ s.rd (CAN_DBT_DTSEG2 n) ∧ 5 ≤ q ∧ q ≤ 49 ∧ 5 ≤ s.dataCycles n)

/-- A write of a CAN_n register (R467, R468, R490). -/
def State.writeCanN (s : State) (n off v : Nat) : State :=
  let en := CAN_CFG_EN n
  if off = (CAN_CMD_FLUSH n).off then s.writeCanCmd n v
  else if off = (CAN_NBT_NBRP n).off then s.writeUnderEn en off v fun s0 t => if t.nomOk n then t else s0.cfgRefuse off
  else if off = (CAN_DBT_DBRP n).off then s.writeUnderEn en off v fun s0 t => if t.dataOk n then t else s0.cfgRefuse off
  else if off = en.off then
    s.writeUnderEn en off v fun s0 t =>
      if t.on en ∧ ((t.on (CAN_CFG_TRIPLE n) ∧ t.nomCycles n < 160) ∨ t.nomCycles n < t.dataCycles n ∨ ¬ t.nomOk n ∨ ¬ t.dataOk n) then
        s0.cfgRefuse off
      else t
  else s.writeThen off v id

/-- A rule's KIND and actions agree (R476). -/
def ruleOk (w : Nat → Nat) : Bool :=
  let kind := bits (w 0) 30 28
  let inp := bits (w 0) 27 22
  let eth := bits (w 3) 25 16
  let can := bits (w 3) 15 0 != 0 || bits (w 5) 31 29 != 0
  let common := decide (eth < 2 ^ 10)
  match kind with
  | 0 => common && decide (inp < 16) && eth == 0 && !bit (w 3) 28 && !bit (w 6) 15
  | 1 => common && decide (16 ≤ inp ∧ inp ≤ 25) && !can && !bit (w 3) 26 && !bit (w 3) 27
  | 2 => common && eth == 0 && !bit (w 3) 27 && !bit (w 3) 28 && !bit (w 6) 15
  | _ => false

/-- The bits of rule word w that R476 gives a field. -/
def ruleMask (w : Nat) : Nat :=
  match w with
  | 0 => 0xFFC0001F | 1 => 0xFFFFFFFF | 2 => 0x7FFFFFFF | 3 => 0x1FFFFFFF | 4 => 0x3F3F | 5 => 0xFFFFFFFF | 6 => 0xFFFF | _ => 0

/-- A write of a word of a rule (R476): judged once the rule stands enabled, its KIND at once. -/
def State.writeRule (s : State) (i off v : Nat) : State :=
  s.writeIf off (v &&& ruleMask ((off - 0xD10000) % 0x20 / 4)) fun s0 put =>
    let t := put s0
    if 3 ≤ bits (ruleW t i 0) 30 28 ∨ (bit (ruleW t i 0) 31 ∧ ¬ ruleOk (ruleW t i)) then s0.cfgRefuse off else t

/-- A write of any register of CAN. -/
def State.writeCan (s : State) (off v : Nat) : State :=
  if off = CAN_GW_CFG_EN.off then
    s.writeUnderEn CAN_GW_CFG_EN off v fun s0 t =>
      let p := t.rd CAN_GW_CFG_OWNER
      if t.on CAN_GW_CFG_EN ∧ ¬ (t.on (PART_CFG_EN p) ∧ t.classOf p = 1) then s0.wr CAN_EVENT_ISO 1 else t
  else if 0xD01000 ≤ off ∧ off < 0xD02000 then
    let n := (off - 0xD01000) / 0x100
    let o := (off - 0xD01000) % 0x100
    if o < 0x40 then s.writeCanN n off v
    else
      let q := (o - 0x40) / 0x40
      s.writeQueue off (canQ n q) v (fun t => (t.qEnabled (canQ n q)).setHead n q none)
        (fun t => if mget (fun _ => none) t.can.bus n = some q then t else t.setHead n q none)
  else if 0xD03000 ≤ off ∧ off < 0xD03800 then s.writeRx off (canRing ((off - 0xD03000) / 0x20)) 128 v
  else if 0xD04000 ≤ off ∧ off < 0xD04800 then
    let e := (off - 0xD04000) / 0x20
    s.writeUnderEn (CAN_ENC_CFG_EN e) off v fun _ t => t
  else if 0xD10000 ≤ off ∧ off < 0xD30000 then s.writeRule ((off - 0xD10000) / 0x20) off v
  else s.writeThen off v id

end Sys2Proof.Machine
end

