-- ==== Sys2Proof/Machine/Net.lean ====
section
/-! DEFINITION. The Ethernet ports (R480 to R485): transmission and its gates, reception, stream filtering, gPTP, MDIO and links. -/

namespace Sys2Proof.Machine

def netQ (n q : Nat) : Nat := 0xE01100 + 0x400 * n + 0x40 * q
def netRing (n q : Nat) : Nat := 0xE01300 + 0x400 * n + 0x20 * q

/-- The bytes of a frame in the order of the wire. -/
def ethBytes (f : EthFrame) : List (BitVec 8) :=
  beBytes 6 f.dst.toNat ++ beBytes 6 f.src.toNat ++ (match f.tag with
    | some t => beBytes 2 0x8100 ++ beBytes 2 t.toNat
    | none => []) ++ f.body

/-- The port works. -/
def State.netUp (s : State) (n : Nat) : Bool := s.on (NET_P_CFG_EN n) && s.on (NET_P_STAT_UP n)

def State.netDrop (s : State) (n kind : Nat) : State :=
  s.mNet fun y => { y with drops := mset (fun _ => 0) y.drops (4 * n + kind) (mget (fun _ => 0) y.drops (4 * n + kind) + 1) }

/-! ### Gates (R484) -/

/-- The gate list in force at a port, and its anchor. -/
def State.gateList (s : State) (n : Nat) : List (Nat × Nat) × Nat := mget (fun _ => ([], 0)) s.net.gates n

def cycleOf (l : List (Nat × Nat)) : Nat := (l.map (·.2)).foldl (· + ·) 0

/-- The rest of a list from a position inside its cycle: entries with the time each still lasts. -/
def restFrom : List (Nat × Nat) → Nat → List (Nat × Nat)
  | [], _ => []
  | (g, t) :: r, pos => if pos < t then (g, t - pos) :: r else restFrom r (pos - t)

/-- How long class c stays open at the head of a list of entries. -/
def openRun (c : Nat) : List (Nat × Nat) → Nat
  | [] => 0
  | (g, t) :: r => if bit g c then t + openRun c r else 0

/-- Gating is in force at a port. -/
def State.gated (s : State) (n : Nat) : Bool := s.on (NET_P_TAS_CTL_EN n) && !(s.gateList n).1.isEmpty

/-- The time for which class c of a port stays open from now; none where its gate never closes. -/
def State.openFor (s : State) (n c : Nat) : Option Nat :=
  let l := (s.gateList n).1
  if ¬ s.gated n ∨ l.all (fun e => bit e.1 c) then none
  else
    let pos := (((s.time (s.rd (NET_P_TAS_CTL_TS n)) : Int) - (s.gateList n).2) % (cycleOf l : Nat)).toNat
    some (openRun c (restFrom l pos ++ l))

/-- The longest window of class c; none where its gate never closes. -/
def State.longest (s : State) (n c : Nat) : Option Nat :=
  let l := (s.gateList n).1
  if ¬ s.gated n ∨ l.all (fun e => bit e.1 c) then none
  else some ((List.range l.length).foldl (fun a i => max a (openRun c (l.drop i ++ l))) 0)

/-- The time of a frame of len bytes without FCS, with preamble and gap, at a SPEED code, in ns. -/
def frameTime (speed len : Nat) : Nat :=
  let b := (8 + len + 4 + 12) * 8
  match speed with
  | 0 => b * 100 | 1 => b * 10 | 2 => b | 3 => ceilDiv (b * 2) 5 | 4 => ceilDiv b 5 | _ => ceilDiv b 10

/-- A gate list of 8 B entries. -/
def gateEntries (n : Nat) (data : Nat) : List (Nat × Nat) :=
  (List.range n).map fun i => (bits data (64 * i + 7) (64 * i), bits data (64 * i + 63) (64 * i + 32))

/-- A COMMIT of a gate list (R484). -/
def State.tasCommit (s : State) (n off v : Nat) : State :=
  s.writeIf off v fun s0 put =>
    let t := put s0
    let p := t.rd (NET_P_CFG_OWNER n)
    let a := t.rd (NET_P_TAS_LIST_ADDR n)
    let k := t.rd (NET_P_TAS_CTL_NENT n)
    if s0.on (NET_P_TAS_CTL_COMMIT n) ∨ a % 8 ≠ 0 then s0.cfgRefuse off
    else if ¬ t.tunOwned p a (8 * k) then s0.wr NET_EVENT_ISO 1
    else
      let r := s0.blkRead a (8 * k)
      let l := gateEntries k (leNum r.1)
      if anyPois r.1 then (r.2.wr NET_EVENT_POISON 1).bite p srcNet a
      else if l.any (fun e => decide (e.2 < 64)) then r.2.cfgRefuse off
      else
        let t := put r.2
        let now := t.time (t.rd (NET_P_TAS_CTL_TS n))
        let base := t.rd (NET_P_TAS_BASE_BASE n)
        let g := s0.gateList n
        let cur := cycleOf g.1
        let till := if s0.gated n ∧ g.2 ≤ now then g.2 + ((now - g.2) / cur + 1) * cur else now
        let start := if till ≤ base then base else base + ceilDiv (till - base) (cycleOf l) * cycleOf l
        let t1 := t.mNet fun y => { y with newGates := mset (fun _ => none) y.newGates n (some (l, base, start)) }
        if base < now then t1.wr NET_EVENT_TAS_LATE 1 else t1

/-- A write of NET_Pn_TAS_CTL: COMMIT stands until its list takes effect. -/
def State.writeTasCtl (s : State) (n off v : Nat) : State :=
  if bit v 31 then s.tasCommit n off v
  else s.writeThen off v fun t => t.wr (NET_P_TAS_CTL_COMMIT n) (s.rd (NET_P_TAS_CTL_COMMIT n))

/-- TAS_COMMIT (R484). -/
def execTasCommit (req : Requester) (n : Fin 10) (value : BitVec 32) (s : State) : Out :=
  let off := (NET_P_TAS_CTL_COMMIT n).off
  .next (if bit value.toNat 31 then s.asWriter req off 4 fun a => a.tasCommit n off value.toNat else s)

/-- TAS_CYCLE_START (R484): the list to come takes effect at its first cycle start; a cycle of the list in force needs no more. -/
def execTasCycleStart (n : Fin 10) (s : State) : Out :=
  match mget (fun _ => none) s.net.newGates n with
  | some (l, base, start) =>
    if start ≤ s.time (s.rd (NET_P_TAS_CTL_TS n)) then
      .next ((s.mNet fun y => { y with gates := mset (fun _ => ([], 0)) y.gates n (l, base),
                                       newGates := mset (fun _ => none) y.newGates n none }).wr (NET_P_TAS_CTL_COMMIT n) 0)
    else .next s
  | none => .next s

/-! ### Transmission (R478, R481) -/

def State.netHeadOf (s : State) (n q : Nat) : Option NetHead := mget (fun _ => none) s.net.heads (8 * n + q)
def State.setNetHead (s : State) (n q : Nat) (h : Option NetHead) : State :=
  s.mNet fun y => { y with heads := mset (fun _ => none) y.heads (8 * n + q) h }

/-- Complete the head of an Ethernet queue. -/
def State.netDone (s : State) (n q : Nat) (h : NetHead) (status stamp : Nat) : State :=
  (s.setNetHead n q none).complete (netQ n q) 32
    (txRecord (if h.tsreq then stamp else 0) (s.rd (NET_TX_CFG_TS n q)) status (b2n (status == txOk)) 0 h.index h.user)

/-- Bring the next legal descriptor of a queue to its head. -/
def State.netFetch (s : State) (n q : Nat) : Nat → State
  | 0 => s
  | k + 1 =>
    if (s.netHeadOf n q).isSome ∨ ¬ s.qReady (netQ n q) then s
    else
      let r := s.qTakeN (netQ n q) 64
      match r.1 with
      | none => r.2
      | some (i, d, pois) =>
        let h : NetHead := ⟨bits d 63 0, bits d 79 64, bit d 80, bits d 191 128, i⟩
        let used := coverMask [(63, 0), (79, 64), (80, 80), (191, 128)]
        if pois then
          ((r.2.netDone n q h txPoison 0).wr NET_EVENT_POISON 1).bite (s.qPart (netQ n q)) srcNet
            (s.rd (qSq (netQ n q)) + i % s.qSize (netQ n q) * 64)
        else if d &&& (2 ^ 512 - 1 - used) ≠ 0 ∨ h.len < 60 ∨ s.rd (NET_P_CFG_MAXLEN n) < h.len + 4 then
          (r.2.netDone n q h txDesc 0).netFetch n q k
        else r.2.setNetHead n q (some h)

/-- What class c of a port offers: the gateway's frame, or the queue's, in turn where both wait (R478). -/
inductive NetOffer where
  | queue (h : NetHead)
  | gateway (f : EthFrame)
  deriving DecidableEq, Repr

def State.netOffer (s : State) (n c : Nat) : Option NetOffer :=
  let sw : Option NetHead := if s.on (qEn (netQ n c)) ∧ s.fetchOk (s.qPart (netQ n c)) then s.netHeadOf n c else none
  match sw, (mget (fun _ => []) s.net.egress (8 * n + c)).head? with
  | some h, some f => some (if mget (fun _ => false) s.net.turn (8 * n + c) then .queue h else .gateway f)
  | some h, none => some (.queue h)
  | none, some f => some (.gateway f)
  | none, none => none

def NetOffer.len : NetOffer → Nat
  | .queue h => h.len
  | .gateway f => (ethBytes f).length

/-- Take the gateway's frame out of a class. -/
def State.egressPop (s : State) (n c : Nat) : State :=
  s.mNet fun y => { y with egress := mset (fun _ => []) y.egress (8 * n + c) ((mget (fun _ => []) y.egress (8 * n + c)).drop 1) }

/-- Send what a class offers. -/
def State.netSend (s : State) (n c stamp : Nat) (o : NetOffer) : State :=
  match o with
  | .gateway f =>
    ((s.egressPop n c).mNet fun y => { y with turn := mset (fun _ => false) y.turn (8 * n + c) true }).emit (.ethTx n (ethBytes f))
  | .queue h =>
    let p := s.qPart (netQ n c)
    let s0 := s.mNet fun y => { y with turn := mset (fun _ => false) y.turn (8 * n + c) false }
    if s0.checkRun p false h.addr h.len true ≠ .ok ∨ h.addr < 0x100000000 then (s0.netDone n c h txIso 0).wr NET_EVENT_ISO 1
    else
      let r := s0.blkRead h.addr h.len
      if anyPois r.1 then ((r.2.netDone n c h txPoison 0).wr NET_EVENT_POISON 1).bite p srcNet h.addr
      else (r.2.emit (.ethTx n (r.1.map (·.1)))).netDone n c h txOk stamp

/-- A frame longer than every window of its class ends (R484). -/
def State.gateLong (s : State) (n c : Nat) : State :=
  match s.netOffer n c, s.longest n c with
  | some o, some w =>
    if w < frameTime (s.rd (NET_P_STAT_SPEED n)) o.len then
      let s1 := (s.wr NET_EVENT_GATE_LONG 1).netDrop n 2
      match o with
      | .queue h => s1.netDone n c h txGateLong 0
      | .gateway _ => s1.egressPop n c
    else s
  | _, _ => s

/-- ETH_TX_FRAME (R478, R481, R484): among open classes with a frame that fits, the highest sends. -/
def execEthTxFrame (n : Fin 10) (stamp : BitVec 64) (s : State) : Out :=
  if ¬ s.netUp n then .next s
  else
    let s1 := (List.range 8).foldl (fun a q => (a.netFetch n q (a.qLeft (netQ n q) + 1)).gateLong n q) s
    let fits (c : Nat) : Bool := match s1.netOffer n c, s1.openFor n c with
      | some o, some t => decide (frameTime (s.rd (NET_P_STAT_SPEED n)) o.len ≤ t)
      | some _, none => true
      | none, _ => false
    match (List.range 8).reverse.find? fits with
    | some c => match s1.netOffer n c with
      | some o => .next (s1.netSend n c stamp.toNat o)
      | none => .next s1
    | none => .next s1

/-- Every entry of a queue ends with a status. -/
def State.netDrain (s : State) (n q status : Nat) : Nat → State
  | 0 => s
  | k + 1 =>
    let t := s.netFetch n q (s.qLeft (netQ n q) + 1)
    match t.netHeadOf n q with
    | some h => (t.netDone n q h status 0).netDrain n q status k
    | none => t

/-- ETH_LINK_DOWN (R481). -/
def execEthLinkDown (n : Fin 10) (s : State) : Out :=
  if ¬ s.on (NET_P_STAT_UP n) then .next s
  else .next ((List.range 8).foldl (fun a q => a.netDrain n q txLinkDown (a.qLeft (netQ n q) + 2))
    (((s.wr (NET_P_STAT_UP n) 0).bump (NET_P_STAT_LINKDOWNS n)).wr NET_EVENT_LINK 1))

/-- ETH_LINK_UP (R544): the speed that auto-negotiation found. -/
def execEthLinkUp (n : Fin 10) (speed : Fin 6) (s : State) : Out :=
  if ¬ s.on (NET_P_CFG_EN n) then .next s
  else .next (((s.wr (NET_P_STAT_UP n) 1).wr (NET_P_STAT_SPEED n) speed).wr NET_EVENT_LINK 1)

/-! ### Stream filtering and policing (R485) -/

/-- PSFP_COMMIT (R485): the table is copied; buckets start full. -/
def State.psfpCommit (s : State) (off v : Nat) : State :=
  s.writeIf off v fun s0 put =>
    let a := s0.rd NET_PSFP_TAB_ADDR
    if a % 64 ≠ 0 ∨ ¬ s0.inTun a ∨ ¬ s0.inTun (a + 46079) then s0.cfgRefuse off
    else
      let r := s0.blkRead a 46080
      let d := leNum r.1
      if anyPois r.1 then r.2.wr NET_EVENT_POISON 1
      else
        let fl := (List.range 256).map fun i => BitVec.ofNat 128 (d >>> (128 * i))
        ((put r.2).wr NET_PSFP_CTL_COMMIT 0).mNet fun y =>
          { y with
            filters := fl
            meters := (List.range 256).map fun i => BitVec.ofNat 256 (d >>> (32768 + 256 * i))
            sgates := (List.range 64).map fun i => BitVec.ofNat 128 (d >>> (98304 + 128 * i))
            slists := (List.range 64).map fun i => (List.range 64).map fun j => BitVec.ofNat 64 (d >>> (106496 + 4096 * i + 64 * j))
            blocked := (List.range 256).foldl (fun m i => mset (fun _ => false) m i (Config.psfpFilter 10 (fl.getD i 0) != 0)) []
            closed := []
            tokens := [] }

def execPsfpCommit (req : Requester) (value : BitVec 32) (s : State) : Out :=
  .next (if bit value.toNat 31 then s.asWriter req NET_PSFP_CTL_COMMIT.off 4 fun a => a.psfpCommit NET_PSFP_CTL_COMMIT.off value.toNat else s)

/-- Filter i matches a frame of a port. -/
def State.filterHit (s : State) (n i : Nat) (f : EthFrame) : Bool :=
  let g (k : Nat) : Nat := Config.psfpFilter k (s.net.filters.getD i 0)
  g 0 != 0 && bit (g 1) n && (g 3 != 0 || g 2 == f.dst.toNat) &&
    (g 5 != 0 || match f.tag with
      | some t => g 4 == t.toNat % 2 ^ 12
      | none => false)

/-- Stream gate g is open at a receive stamp. -/
def State.sgateOpen (s : State) (g stamp : Nat) : Bool :=
  let hd := s.net.sgates.getD g 0
  let l := ((s.net.slists.getD g []).take (Config.psfpGate 1 hd)).map fun e => (e.toNat % 256, e.toNat / 2 ^ 32)
  let r := s.timeAt (s.rd NET_PSFP_CTL_TS) stamp
  !mget (fun _ => false) s.net.closed g &&
    (l.isEmpty || match restFrom l ((((r : Int) - Config.psfpGate 0 hd) % (cycleOf l : Nat)).toNat) with
      | (e, _) :: _ => bit e 0
      | [] => true)

/-- The two token buckets of meter m at a time, in units of 1/8,000,000 B, before a frame of len bytes; 0 green, 1 yellow, 2 red. -/
def State.meter (s : State) (m len stamp : Nat) : Nat × State :=
  let f (k : Nat) : Nat := Config.psfpMeter k (s.net.meters.getD m 0)
  let cap (k : Nat) : Nat := f k * 8000000
  let old := (mget (fun _ => none) s.net.tokens m).getD (cap 2, cap 3, stamp)
  let dt := stamp - old.2.2
  let c := old.1 + f 0 * dt
  let e := min (cap 3) (old.2.1 + f 1 * dt + (if f 4 ≠ 0 then c - cap 2 else 0))
  let c := min (cap 2) c
  let w := len * 8000000
  let put (c e : Nat) : State := s.mNet fun y => { y with tokens := mset (fun _ => none) y.tokens m (some (c, e, stamp)) }
  if w ≤ c then (0, put (c - w) e) else if w ≤ e then (1, put c (e - w)) else (2, put c e)

/-- A received frame passes the filters: the frame that goes on, if any (R485). -/
def State.psfp (s : State) (n : Nat) (f : EthFrame) (stamp : Nat) : Option EthFrame × State :=
  match (List.range s.net.filters.length).find? fun i => s.filterHit n i f with
  | none => (some f, s)
  | some i =>
    let g (k : Nat) : Nat := Config.psfpFilter k (s.net.filters.getD i 0)
    let drop (t : State) : Option EthFrame × State :=
      (none, (t.mNet fun y => { y with fdrops := mset (fun _ => 0) y.fdrops i (mget (fun _ => 0) y.fdrops i + 1) }).wr NET_EVENT_PSFP_DROP 1)
    if mget (fun _ => false) s.net.blocked i then drop s
    else if g 6 < f.body.length then
      drop (if g 9 ≠ 0 then s.mNet fun y => { y with blocked := mset (fun _ => false) y.blocked i true } else s)
    else if ¬ s.sgateOpen (g 7) stamp then
      drop (if Config.psfpGate 2 (s.net.sgates.getD (g 7) 0) ≠ 0 then s.mNet fun y => { y with closed := mset (fun _ => false) y.closed (g 7) true } else s)
    else
      let m := s.meter (g 8) ((ethBytes f).length + 4) stamp
      match m.1 with
      | 0 => (some f, m.2)
      | 1 => if Config.psfpMeter 5 (s.net.meters.getD (g 8) 0) ≠ 0 then drop m.2
        else (some { f with tag := f.tag.map fun t => t ||| 0x1000 }, m.2)
      | _ => drop m.2

/-! ### Reception (R482) -/

/-- Into the receive ring of the frame's queue (R481). -/
def State.netRx (s : State) (n : Nat) (f : EthFrame) (stamp : Nat) : State :=
  let b := netRing n (s.rxClass n f)
  let size := 2 ^ s.rd (NET_RX_CFG_SLOT n (s.rxClass n f))
  let l := ethBytes f
  if size < 64 + l.length then s.netDrop n 1
  else
    let d := s.draw
    d.2.ringPut b size (fun lost =>
      leBytes 8 (Config.netHead l.length f.tag).toNat ++ leBytes 8 stamp ++ leBytes 1 (Config.netRxTs d.1).toNat ++
        leBytes 1 (b2n lost) ++ leBytes 46 0 ++ l.map (·, false)) true

/-- What a matching rule does with an Ethernet frame (R476, R478). -/
def State.ethActs (s : State) (n i : Nat) (f : EthFrame) (stamp : Nat) : State :=
  let w3 := ruleW s i 3
  let w6 := ruleW s i 6
  let g : EthFrame := if bit w6 15 then { f with tag := f.tag.map fun t => BitVec.ofNat 16 (setBits (setBits t.toNat 11 0 (bits w6 11 0)) 15 13 (bits w6 14 12)) } else f
  let s1 := (setBitsOf 10 (bits w3 25 16)).foldl (fun a p => a.gwToEth p g) (s.bump (CAN_RCNT_HITS i))
  if bit w3 28 then s1.netRx n f stamp else s1

/-- ETH_FRAME_RECEIVED (R482): gPTP's own frames are the business of SYNC_SEND, FOLLOW_UP and PDELAY; an Announce is counted. -/
def execEthFrameReceived (n : Fin 10) (f : EthFrame) (fcsOk : Bool) (stamp : BitVec 64) (s : State) : Out :=
  let len := (ethBytes f).length + 4
  if ¬ s.netUp n then .next s
  else if ¬ fcsOk ∨ len < 64 ∨ s.rd (NET_P_CFG_MAXLEN n) < len then .next (s.netDrop n 0)
  else if f.body.take 2 = [0x88, 0xF7] ∧ s.rd (NET_P_PTP_ROLE n) ≠ 0 then
    .next (if (f.body.getD 2 0).toNat % 16 = 11 then s.netDrop n 3 else s)
  else match s.psfp n f stamp.toNat with
  | (none, t) => .next t
  | (some g, t) =>
    .next (match if t.on (NET_P_CFG_GW n) && t.on CAN_GW_CFG_EN then t.ethRule (16 + n) g else none with
      | some i => t.ethActs n i g stamp.toNat
      | none => t.netRx n g stamp.toNat)

/-! ### gPTP (R483): corrections and delays are in 2⁻¹⁶ ns, rate offsets in 2⁻⁴¹ -/

def State.slavePort (s : State) : Option Nat :=
  (List.range 10).find? fun n => s.on (NET_P_CFG_EN n) && s.rd (NET_P_PTP_ROLE n) == 2

/-- SYNC_SEND (R483): as grandmaster, or relaying what the slave port received. -/
def execSyncSend (n : Fin 10) (stamp : BitVec 64) (s : State) : Out :=
  if ¬ s.netUp n ∨ s.rd (NET_P_PTP_ROLE n) ≠ 1 then .next s
  else match s.slavePort with
  | none => .next (s.emit (.ptpSync n stamp.toNat (s.timeAt (s.rd (NET_P_PTP_TS n)) stamp.toNat) 0 0))
  | some m => match mget (fun _ => none) s.net.sync m with
    | none => .next s
    | some (rx, origin, corr, off) =>
      let o := off + mget (fun _ => 0) s.net.nrr m
      let res : Int := (stamp.toNat : Int) - rx
      .next (s.emit (.ptpSync n stamp.toNat origin
        (corr + mget (fun _ => 0) s.net.delay m + (res * (2 ^ 41 + o)) / 2 ^ 25) o))

/-- FOLLOW_UP (R483): the pair goes to the servo. -/
def execFollowUp (n : Fin 10) (stamp origin : BitVec 64) (corr offset : Int) (s : State) : Out :=
  if ¬ s.netUp n ∨ s.rd (NET_P_PTP_ROLE n) ≠ 2 then .next s
  else
    let s1 := s.mNet fun y => { y with
      sync := mset (fun _ => none) y.sync n (some (stamp.toNat, origin.toNat, corr, offset)),
      syncAt := mset (fun _ => 0) y.syncAt n s.now, syncLost := mset (fun _ => false) y.syncLost n false }
    if s.rd TIM_SRV_CFG_PORT = n then
      .next (s1.pair 0 (ofSigned 64 (origin.toNat + (corr + mget (fun _ => 0) s.net.delay n) / 2 ^ 16)) stamp.toNat)
    else .next s1

/-- PDELAY (R483): the delay and the neighbour's rate as the standard states them, or an answer to the peer. -/
def execPdelay (n : Fin 10) (x : PeerDelay) (s : State) : Out :=
  if ¬ s.netUp n ∨ s.rd (NET_P_PTP_ROLE n) = 0 then .next s
  else match x with
  | .answer => .next (s.emit (.ptpPdelay n true))
  | .own t1 t2 t3 t4 =>
    let r : Int := match mget (fun _ => none) s.net.pd n with
      | some (p3, p4) => if (t4 : Int) - p4 = 0 then 0 else (((t3 : Int) - p3 - ((t4 : Int) - p4)) * 2 ^ 41) / ((t4 : Int) - p4)
      | none => 0
    let d : Int := ((((t4 : Int) - t1) * (2 ^ 41 + r)) / 2 ^ 25 - ((t3 : Int) - t2) * 2 ^ 16) / 2
    .next ((s.mNet fun y => { y with
      pd := mset (fun _ => none) y.pd n (some (t3, t4)), nrr := mset (fun _ => 0) y.nrr n r,
      delay := mset (fun _ => 0) y.delay n d }).emit (.ptpPdelay n false))

/-- The interval of a port's Sync, in ns. -/
def State.syncInterval (s : State) (n : Nat) : Nat := 10 ^ 9 / 2 ^ ((16 - s.rd (NET_P_PTP_LOGSYNC n)) % 16)

/-- SYNC_TMO (R483). -/
def execSyncTmo (n : Fin 10) (s : State) : Out :=
  if s.netUp n ∧ s.rd (NET_P_PTP_ROLE n) = 2 ∧ ¬ mget (fun _ => false) s.net.syncLost n ∧
      mget (fun _ => 0) s.net.syncAt n + 3 * s.syncInterval n ≤ s.now then
    .next ((s.wr NET_EVENT_SYNC_TMO 1).mNet fun y => { y with syncLost := mset (fun _ => false) y.syncLost n true })
  else .next s

/-! ### MDIO (R490) -/

/-- A write of NET_MDIO: ignored while a frame runs. -/
def State.writeMdio (s : State) (v : Nat) : State :=
  if s.on NET_MDIO_GO then s
  else s.writeThen NET_MDIO_GO.off v fun t => if bit v 31 then t.emit (.mdio (t.word NET_MDIO_GO.off)) else t

/-- MDIO_GO (R490). -/
def execMdioGo (req : Requester) (value : BitVec 32) (s : State) : Out :=
  .next (if bit value.toNat 31 then s.asWriter req NET_MDIO_GO.off 4 fun a => a.writeMdio value.toNat else s)

/-- MDIO_COMPLETE (R490). -/
def execMdioComplete (data : BitVec 16) (s : State) : Out :=
  if ¬ s.on NET_MDIO_GO then .next s
  else
    let s1 := s.wr NET_MDIO_GO 0
    .next (if s.rd NET_MDIO_OP = 2 then s1.wr NET_MDIO_DATA data.toNat else s1)

/-! ### Writes of NET registers -/

/-- A signed 4-bit exponent lies in a range. -/
def expIn (v : Nat) (lo hi : Int) : Bool := decide (lo ≤ toSigned 4 v ∧ toSigned 4 v ≤ hi)

/-- A write of a NET_Pn register that only configures the port (R480, R483, R490). -/
def State.writeNetP (s : State) (n off v : Nat) : State :=
  s.writeUnderEn (NET_P_CFG_EN n) off v fun s0 t =>
    let bad : Bool :=
      if off = (NET_P_CFG_EN n).off then t.on (NET_P_CFG_EN n) && (if n < 8 then t.rd (NET_P_CFG_IF n) == 2 else t.rd (NET_P_CFG_IF n) != 2)
      else if off = (NET_P_PTP_ROLE n).off then
        !expIn (t.rd (NET_P_PTP_LOGSYNC n)) (-5) 0 || !expIn (t.rd (NET_P_PTP_LOGPD n)) (-3) 3 ||
          (t.rd (NET_P_PTP_ROLE n) == 2 && (List.range 10).any fun m => m != n && s0.rd (NET_P_PTP_ROLE m) == 2)
      else false
    if bad then s0.cfgRefuse off else t

/-- A write of any register of NET. -/
def State.writeNet (s : State) (off v : Nat) : State :=
  if off = NET_MDIO_GO.off then s.writeMdio v
  else if off = NET_PSFP_CTL_COMMIT.off then (if bit v 31 then s.psfpCommit off v else s.writeThen off v id)
  else if 0xE01000 ≤ off ∧ off < 0xE03800 then
    let n := (off - 0xE01000) / 0x400
    let o := (off - 0xE01000) % 0x400
    if o = 0x1C then s.writeTasCtl n off v
    else if o = 0x10 ∨ (0x20 ≤ o ∧ o < 0x100) then s.writeThen off v id
    else if o < 0x20 then s.writeNetP n off v
    else if o < 0x300 then
      let q := (o - 0x100) / 0x40
      s.writeQueue off (netQ n q) v (fun t => (t.qEnabled (netQ n q)).setNetHead n q none) (fun t => t.setNetHead n q none)
    else s.writeRx off (netRing n ((o - 0x300) / 0x20)) (2 ^ s.rd (NET_RX_CFG_SLOT n ((o - 0x300) / 0x20))) v
  else if 0xE90000 ≤ off ∧ off < 0xE98000 then s.writeQp ((off - 0xE90000) / 0x40) off v
  else s.writeThen off v id

end Sys2Proof.Machine
end

