-- ==== Sys2Proof/Machine/Ser.lean ====
section
/-! DEFINITION. UARTs and general-purpose pins (R486 to R489). -/

namespace Sys2Proof.Machine

def State.mSer (s : State) (f : SerSt → SerSt) : State := { s with ser := f s.ser }
def serQ (u : Nat) : Nat := 0x1001040 + 0x100 * u
def serRing (u : Nat) : Nat := 0x1001080 + 0x100 * u

/-- Data bits of a character. -/
def State.uartBits (s : State) (u : Nat) : Nat := 7 + s.rd (SER_U_CFG_BITS u)

/-- Notify the entries of a UART not yet notified (R486). -/
def State.uartNotify (s : State) (u : Nat) : State :=
  (s.ringNotify (serRing u) (mget (fun _ => 0) s.ser.pend u)).mSer fun y => { y with pend := mset (fun _ => 0) y.pend u 0 }

/-- The majority of three samples, low bit first. -/
def maj3 (x : BitVec 3) : Bool := decide (2 ≤ b2n x[0] + b2n x[1] + b2n x[2])

/-- UART_CHARACTER (R487): samples 7, 8 and 9 of each bit from the start bit on; `early`: a falling edge came before sample 7 of the
last stop bit. -/
def execUartCharacter (u : Fin 8) (samples : List (BitVec 3)) (early : Bool) (s : State) : Out :=
  let d := s.uartBits u
  let par := s.rd (SER_U_CFG_PAR u)
  let np := b2n (par != 0)
  let stops := 1 + s.rd (SER_U_CFG_STOP2 u)
  let v := samples.map maj3
  if ¬ s.on (SER_U_CFG_EN u) ∨ samples.isEmpty then .next s
  else if v.getD 0 true then .next (s.bump (SER_U_STAT_FALSE u))
  else if samples.length ≠ 1 + d + np + stops then .next s
  else
    let data := (List.range d).foldl (fun a i => a + b2n (v.getD (1 + i) false) * 2 ^ i) 0
    let ones := (List.range (d + np)).foldl (fun a i => a + b2n (v.getD (1 + i) false)) 0
    let perr := par != 0 && decide (ones % 2 ≠ par - 1)
    let ferr := early || (List.range stops).any fun i => !v.getD (1 + d + np + i) false
    let brk := v.all fun x => !x
    let noise := samples.any fun x => x != 0 && x != 7
    let s1 := if ferr then s.wr SER_EVENT_FRAMING 1 else s
    let s2 := if perr then s1.wr SER_EVENT_PARITY 1 else s1
    let s3 := if ferr || perr then s2.bump (SER_U_STAT_ERRS u) else s2
    let s4 := s3.ringPut (serRing u) 4 (fun lost => leBytes 4 (data + b2n perr * 2 ^ 9 + b2n ferr * 2 ^ 10 + b2n brk * 2 ^ 11 +
      b2n noise * 2 ^ 12 + b2n lost * 2 ^ 13)) false
    let k := mget (fun _ => 0) s.ser.pend u + b2n (s4.word (serRing u + 0xC) != s.word (serRing u + 0xC))
    let s5 := s4.mSer fun y => { y with pend := mset (fun _ => 0) y.pend u k }
    .next (if k ≠ 0 ∧ s.rd (SER_U_CFG_THRESH u) ≤ k then s5.uartNotify u else s5)

/-- UART_IDLE_NOTIFY (R486). -/
def execUartIdleNotify (u : Fin 8) (s : State) : Out :=
  if s.on (SER_U_CFG_EN u) ∧ mget (fun _ => 0) s.ser.pend u ≠ 0 then .next (s.uartNotify u) else .next s

/-- UARTn_RTS_n is low: the receive ring has room for 16 entries (R486). -/
def State.rtsLow (s : State) (u : Nat) : Bool :=
  let used := (s.rd (rWidx (serRing u)) + 2 ^ 32 - (s.ring (serRing u)).read) % 2 ^ 32
  s.on (rEn (serRing u)) && decide (used + 16 ≤ 2 ^ s.rd (rLog (serRing u)))

/-- Bytes of a character in memory. -/
def State.charBytes (s : State) (u : Nat) : Nat := if s.uartBits u = 9 then 2 else 1

/-- Complete the descriptor at hand. -/
def State.uartDone (s : State) (u index : Nat) (ok : Bool) : State :=
  (s.mSer fun y => { y with tx := mset (fun _ => none) y.tx u none }).complete (serQ u) 32 (leBytes 32 (Config.serRecord index ok).toNat)

/-- Take the next descriptor of a UART's queue, where none is at hand. -/
def State.uartFetch (s : State) (u : Nat) : State :=
  if (mget (fun _ => none) s.ser.tx u).isSome ∨ ¬ s.qReady (serQ u) then s
  else
    let r := s.qTakeN (serQ u) 64
    match r.1 with
    | none => r.2
    | some (i, d, pois) =>
      if pois then (r.2.uartDone u i false).bite (s.qPart (serQ u)) srcCan (s.rd (qSq (serQ u)) + i % s.qSize (serQ u) * 64)
      else r.2.mSer fun y => { y with tx := mset (fun _ => none) y.tx u (some (bits d 47 0, bits d 95 64, 0, i)) }

/-- UART_TX_CHARACTER (R486): one character of the descriptor at hand; with CTSEN none starts while UARTn_CTS_n is high. -/
def execUartTxCharacter (u : Fin 8) (ctsHigh : Bool) (s : State) : Out :=
  if ¬ s.on (SER_U_CFG_EN u) ∨ (s.on (SER_U_CFG_CTSEN u) ∧ ctsHigh) then .next s
  else
    let s1 := s.uartFetch u
    let p := s1.qPart (serQ u)
    match mget (fun _ => none) s1.ser.tx u with
    | none => .next s1
    | some (a, len, k, i) =>
      let w := s.charBytes u
      if len ≤ k then .next (s1.uartDone u i true)
      else match s1.checkRun p false (a + k) w with
      | .ok =>
        let r := s1.blkRead (a + k) w
        if anyPois r.1 then .next ((r.2.uartDone u i false).bite p srcCan (a + k))
        else
          let t := r.2.emit (.uartTx u (leNum r.1 % 2 ^ s.uartBits u))
          .next (if len ≤ k + w then t.uartDone u i true
            else t.mSer fun y => { y with tx := mset (fun _ => none) y.tx u (some (a, len, k + w, i)) })
      | c => .next (((s1.uartDone u i false).wr SER_EVENT_ISO 1).blkFail p srcCan c (a + k))

/-! ### Pins (R489) -/

/-- The pins a requester drives: a host those of its slice's partition, others all. -/
def State.pinMask (s : State) (req : Requester) : Nat :=
  match req with
  | .host sl => (List.range 32).foldl (fun a n => if s.slicePart sl == some (s.rd (SER_GPIO_CFG_OWNER n)) then a + 2 ^ n else a) 0
  | _ => 2 ^ 32 - 1

/-- A write of SER_GPIO_SET or SER_GPIO_CLR. -/
def State.writePins (s : State) (req : Requester) (off v : Nat) : State :=
  let m := v &&& s.pinMask req
  let o := s.rd SER_GPIO_OUT_OUT
  s.wr SER_GPIO_OUT_OUT (if off = SER_GPIO_SET_SET.off then o ||| m else o - (o &&& m))

/-- GPIO_SET (R489). -/
def execGpioSet (req : Requester) (value : BitVec 32) (s : State) : Out :=
  .next (s.asWriter req SER_GPIO_SET_SET.off 4 fun a => a.writePins req SER_GPIO_SET_SET.off value.toNat)

/-- GPIO_CLR (R489). -/
def execGpioClr (req : Requester) (value : BitVec 32) (s : State) : Out :=
  .next (s.asWriter req SER_GPIO_CLR_CLR.off 4 fun a => a.writePins req SER_GPIO_CLR_CLR.off value.toNat)

/-- A write of any register of SER. -/
def State.writeSer (s : State) (req : Requester) (off v : Nat) : State :=
  if off = SER_GPIO_SET_SET.off ∨ off = SER_GPIO_CLR_CLR.off then s.writePins req off v
  else if 0x1001000 ≤ off ∧ off < 0x1001800 then
    let u := (off - 0x1001000) / 0x100
    let o := off % 0x100
    if o = 8 then s.writeThen off v id
    else if o < 8 then s.writeUnderEn (SER_U_CFG_EN u) off v fun _ t => t
    else if o < 0x80 then
      s.writeQueue off (serQ u) v (fun t => (t.qEnabled (serQ u)).mSer fun y => { y with tx := mset (fun _ => none) y.tx u none }) id
    else s.writeRx off (serRing u) 4 v
  else s.writeThen off v id

end Sys2Proof.Machine
end

