-- ==== Sys2Proof/Machine/Ckp.lean ====
section
/-! DEFINITION. The cockpit block CKP (R491 to R502): composition and the tell-tale layer, TDM audio, amplifier faults. -/

namespace Sys2Proof.Machine

def ckpQ (n : Nat) : Nat := 0x1102040 + 0x100 * n
def ckpRing (n : Nat) : Nat := 0x1102080 + 0x100 * n

/-! ### Composition (R493) -/

/-- A component of n bits scaled to m bits by bit replication. -/
def replicate2 (n m v : Nat) : Nat := (v * (2 ^ n + 1)) >>> (2 * n - m)

/-- The quotient of numbers to nearest, ties to even. -/
def rneNat (a b : Nat) : Nat := (rneQuot a b).toNat

/-- Bytes of a pixel, and its R, G, B at m bits with its alpha at 8 bits, by format. -/
def fmtBytes (fmt : Nat) : Nat := if fmt = 3 then 2 else 4
def fmtPixel (fmt m w : Nat) : List Nat × Nat :=
  match fmt with
  | 2 => ([replicate2 10 m (bits w 29 20), replicate2 10 m (bits w 19 10), replicate2 10 m (bits w 9 0)], bits w 31 30 * 85)
  | 3 => ([replicate2 5 m (bits w 15 11), replicate2 6 m (bits w 10 5), replicate2 5 m (bits w 4 0)], 255)
  | k => ([replicate2 8 m (bits w 23 16), replicate2 8 m (bits w 15 8), replicate2 8 m (bits w 7 0)], if k = 1 then bits w 31 24 else 255)

/-- The blend of a layer's component over what lies beneath. -/
def blend (alpha s d : Nat) : Nat := rneNat (s * alpha + d * (255 - alpha)) 255

def layerZero : CkpLayer := ⟨0, 0, 0, 0, 0, false, 0, 0, 0⟩

/-- Layer l of output o as shown. -/
def State.layer (s : State) (o l : Nat) : CkpLayer := (mget (fun _ => []) s.ckp.shown o).getD l layerZero

/-- Layer l of output o is its tell-tale layer. -/
def State.isTt (s : State) (o l : Nat) : Bool := l == 7 && s.on (CKP_D_TT_EN o)

/-- Depth of an output's components. -/
def State.depth (s : State) (o : Nat) : Nat := if s.on (CKP_D_CFG_BPC10 o) then 10 else 8

/-- The first pixel of a layer's row, the format and the bytes of its rows inside the active area. -/
def State.layerFmt (s : State) (o l : Nat) : Nat := if s.isTt o l then 0 else (s.layer o l).fmt
def State.rowAddr (s : State) (o l j : Nat) : Nat := (s.layer o l).addr + (if s.isTt o l then 64 else 0) + j * (s.layer o l).pitch
def State.seenW (s : State) (o l : Nat) : Nat := min (s.layer o l).w (s.rd (CKP_D_HT_ACTIVE o) - (s.layer o l).x)
def State.seenH (s : State) (o l : Nat) : Nat := min (s.layer o l).h (s.rd (CKP_D_VT_ACTIVE o) - (s.layer o l).y)
def State.rowBytes (s : State) (o l : Nat) : Nat := s.seenW o l * fmtBytes (s.layerFmt o l)

/-- The keys a layer reads in a frame. -/
def State.layerKeys (s : State) (o l : Nat) : List Nat :=
  (List.range (s.seenH o l)).flatMap fun j => s.runKeys (s.rowAddr o l j) (s.rowBytes o l)

/-- A layer is fetched: enabled, and all it reads lies within the owner's reach. -/
def State.layerReach (s : State) (o l : Nat) : Check :=
  let p := s.rd CKP_CFG_OWNER
  let cs := (List.range (s.seenH o l)).map fun j => s.checkRun p false (s.rowAddr o l j) (s.rowBytes o l)
  if cs.contains .decode then .decode else if cs.contains .isolation then .isolation else .ok

/-- A layer takes part in a frame: enabled, reachable and without poison (R495). -/
def State.layerLive (s : State) (o l : Nat) : Bool :=
  (s.layer o l).en && s.layerReach o l == .ok && !(s.layerKeys o l).any fun k => s.poisoned (k / 64 * 64)

/-- One composed pixel of output o; `live` names the layers that take part. -/
def State.pixel (s : State) (o : Nat) (live : List Nat) (x y : Nat) : List Nat :=
  let m := s.depth o
  let bg := s.rd (CKP_D_CFG_BG o)
  live.foldl (fun d l =>
    let a := s.layer o l
    if a.x ≤ x ∧ x < a.x + a.w ∧ a.y ≤ y ∧ y < a.y + a.h then
      let n := fmtBytes (s.layerFmt o l)
      let w := leNum ((s.runKeys (s.rowAddr o l (y - a.y) + n * (x - a.x)) n).map s.byteAt)
      let p := fmtPixel (s.layerFmt o l) m w
      let alpha := if s.isTt o l then 255 else rneNat (p.2 * a.galpha) 255
      (p.1.zip d).map fun c => blend alpha c.1 c.2
    else d) [replicate2 8 m (bits bg 23 16), replicate2 8 m (bits bg 15 8), replicate2 8 m (bits bg 7 0)]

/-- One byte into CRC-32C (reflected). -/
def crc32cByte (c b : Nat) : Nat :=
  (List.range 8).foldl (fun a _ => if bit a 0 then (a >>> 1) ^^^ 0x82F63B78 else a >>> 1) (c ^^^ b)

/-- CRC-32C of bytes (R497). -/
def crc32c (l : List Nat) : Nat := l.foldl crc32cByte 0xFFFFFFFF ^^^ 0xFFFFFFFF

/-- The bytes that the tell-tale window of an output contributes. -/
def State.ttBytes (s : State) (o : Nat) (live : List Nat) (under : List (Nat × Nat)) : List Nat :=
  let a := s.layer o 7
  let bg := s.on (CKP_D_TT_TT_FAIL o) && s.on (CKP_D_TT_TT_ACT o)
  (List.range (s.seenH o 7)).flatMap fun j => (List.range (s.seenW o 7)).flatMap fun i =>
    let hide := bg || under.contains (a.x + i, a.y + j)
    (s.pixel o (if hide then [] else live) (a.x + i) (a.y + j)).flatMap fun c =>
      if s.depth o = 10 then [c % 256, c / 256] else [c]

/-! ### Frames (R494 to R497) -/

/-- VBLANK_COMMIT (R494): `same`: COMMIT was written in this very cycle. -/
def execVblankCommit (o : Fin 4) (same : Bool) (s : State) : Out :=
  if ¬ s.on (CKP_D_CTL_COMMIT o) ∨ same then .next s
  else
    let l := (List.range 8).map fun l => (⟨s.rd (CKP_L_ADDR_ADDR o l), s.rd (CKP_L_SIZE_H o l), s.rd (CKP_L_SIZE_W o l), s.rd (CKP_L_POS_Y o l),
      s.rd (CKP_L_POS_X o l), s.on (CKP_L_CFG_EN o l), s.rd (CKP_L_CFG_FMT o l), s.rd (CKP_L_CFG_GALPHA o l), s.rd (CKP_L_CFG_PITCH o l)⟩ : CkpLayer)
    .next ((s.mCkp fun y => { y with shown := mset (fun _ => []) y.shown o l }).wr (CKP_D_CTL_COMMIT o) 0)

/-- A tell-tale failure (R497). -/
def State.ttFail (s : State) (o : Nat) : State :=
  if s.on (CKP_D_TT_TT_FAIL o) then s
  else
    let s1 := (s.wr (CKP_D_TT_TT_FAIL o) 1).wr CKP_EVENT_TT_FAIL 1
    if s1.on (CKP_D_NOTE_EN o) then
      s1.notify srcCkp (s1.rd CKP_CFG_OWNER) (s1.rd (CKP_D_NOTE_CORE o)) (s1.rd (CKP_D_NOTE_CNT o)) 1 else s1

/-- The verdict on the tell-tale layer of a frame. -/
def State.ttVerdict (s : State) (o : Nat) (live : List Nat) (under : List (Nat × Nat)) : State :=
  let a := (s.layer o 7).addr
  let p := s.rd CKP_CFG_OWNER
  let r := s.blkRead a 8
  let hd := leNum r.1
  let bad := anyPois r.1 || !live.contains 7 || s.checkRun p false a 8 != .ok || crc32c (s.ttBytes o live under) != hd / 2 ^ 32
  let seq := hd % 2 ^ 32
  let rep := mget (fun _ => none) s.ckp.ttSeq o == some seq
  let mis' := if bad then mget (fun _ => 0) s.ckp.mis o + 1 else if rep then mget (fun _ => 0) s.ckp.mis o else 0
  let rep' := if rep then mget (fun _ => 0) s.ckp.rep o + 1 else if bad then mget (fun _ => 0) s.ckp.rep o else 0
  let s1 := r.2.mCkp fun y => { y with
    ttSeq := mset (fun _ => none) y.ttSeq o (some seq), mis := mset (fun _ => 0) y.mis o mis', rep := mset (fun _ => 0) y.rep o rep' }
  let s2 := if bad then (s1.bump (CKP_D_TT_TTMIS o)).wr CKP_EVENT_TT_CRC 1 else s1
  if (bad ∧ s.rd (CKP_D_TT_TT_LIMIT o) ≤ mis') ∨ (rep ∧ s.rd (CKP_D_TT_TT_STALE o) ≤ rep') then s2.ttFail o else s2

/-- TELLTALE_VERDICT (R493, R495, R497): a frame ends; `under` lists the positions not fetched in time. -/
def execTelltaleVerdict (o : Fin 4) (under : List (Nat × Nat)) (s : State) : Out :=
  if ¬ s.on CKP_CFG_EN ∨ ¬ s.on (CKP_D_CFG_EN o) then .next s
  else
    let on := (List.range 8).filter fun l => (s.layer o l).en
    let live := on.filter fun l => s.layerLive o l
    let p := s.rd CKP_CFG_OWNER
    let s1 := if under.isEmpty then s else (s.bumpBy (CKP_D_STAT_UNDERRUN o) under.length).wr CKP_EVENT_UNDERRUN 1
    let s2 := on.foldl (fun a l => if a.layerReach o l = .ok then (a.readKeys 128 (a.layerKeys o l)).2 else a) s1
    let s3 := if s.on (CKP_D_TT_EN o) then s2.ttVerdict o live under else s2
    .next (on.foldl (fun a l =>
      if live.contains l then a
      else match s.layerReach o l with
        | .ok => a.bite p srcCkp (((s.layerKeys o l).find? fun k => s.poisoned (k / 64 * 64)).getD (s.layer o l).addr)
        | c => a.blkFail p srcCkp c (s.layer o l).addr) s3)

/-- DP_HPD_LOSS (R492). -/
def execDpHpdLoss (o : Fin 4) (s : State) : Out :=
  if s.on (CKP_D_CFG_EN o) then .next ((s.wr (CKP_D_STAT_UP o) 0).wr CKP_EVENT_LINK 1) else .next s

/-- DP_HPD_RETURN (R492): the link trains again, or fails. -/
def execDpHpdReturn (o : Fin 4) (ok : Bool) (s : State) : Out :=
  if ¬ s.on (CKP_D_CFG_EN o) then .next s
  else .next (if ok then s.wr (CKP_D_STAT_UP o) 1 else (s.wr (CKP_D_STAT_UP o) 0).wr CKP_EVENT_LINK 1)

/-! ### Audio (R498 to R501) -/

/-- Output channels, and input channels (32 on), bound to a port, ascending. -/
def State.bound (s : State) (n lo hi : Nat) : List Nat :=
  (List.range hi).filter fun j => decide (lo ≤ j) && s.on (CKP_CH_EN j) && s.rd (CKP_CH_PORT j) == n

def State.gainOf (s : State) (j : Nat) : Nat := mget (fun _ => 48) s.ckp.gain j
def State.setGain (s : State) (j g : Nat) : State := s.mCkp fun y => { y with gain := mset (fun _ => 48) y.gain j g }

/-- The gain of channel j in a frame whose FS comes at a count, and the state after it (R500, R501). -/
def State.ramp (s : State) (j fs : Nat) : Nat × State :=
  let g := s.gainOf j
  if s.on (CKP_CH_MUTE j) then
    if fs < mget (fun _ => 0) s.ckp.rampAt j then (g, s)
    else (g - 1, (s.setGain j (g - 1)).wr (CKP_CH_RAMP j) (b2n (decide (1 < g))))
  else if g < 48 then (g + 1, (s.setGain j (g + 1)).wr (CKP_CH_RAMP j) (b2n (decide (g + 1 < 48))))
  else (48, s)

/-- The next buffer of a port's output queue, where none is being played. -/
def State.tdmFetch (s : State) (n : Nat) : State :=
  if (mget (fun _ => none) s.ckp.play n).isSome ∨ ¬ s.qReady (ckpQ n) then s
  else
    let r := s.qTakeN (ckpQ n) 64
    match r.1 with
    | none => r.2
    | some (i, d, pois) =>
      if pois then (r.2.complete (ckpQ n) 32 (leBytes 32 (Config.tdmDone i).toNat)).bite (s.qPart (ckpQ n)) srcCkp
        (s.rd (qSq (ckpQ n)) + i % s.qSize (ckpQ n) * 64)
      else
        let e := BitVec.ofNat 512 d
        r.2.mCkp fun y => { y with play := mset (fun _ => none) y.play n (some (Config.tdmEntry 0 e, Config.tdmEntry 1 e, i)) }

/-- One sample of output: read, limited to the port's width; a poisoned one is 0 and bites. -/
def State.sample (s : State) (n p a : Nat) : Int × State :=
  let w := if s.on (CKP_T_CFG_S24 n) then 24 else 16
  match s.checkRun p false a 4 with
  | .ok =>
    let r := s.blkRead a 4
    if anyPois r.1 then (0, r.2.bite p srcCkp a) else (toSigned w (leNum r.1), r.2)
  | c => (0, s.blkFail p srcCkp c a)

/-- Record the samples of a frame (R499). -/
def State.tdmRecordFrame (s : State) (n fs : Nat) (vals : List Nat) : State :=
  if ¬ s.on (rEn (ckpRing n)) ∨ vals.isEmpty then s
  else
    let old := mget (fun _ => (0, [])) s.ckp.recd n
    let first := if old.2.isEmpty then fs else old.1
    let l := old.2 ++ vals
    let k := mget (fun _ => 0) s.ckp.recs n
    let frames := max (Config.tdmFrames n k).toNat 1
    if l.length < frames * vals.length then s.mCkp fun y => { y with recd := mset (fun _ => (0, [])) y.recd n (first, l) }
    else
      let a := (Config.tdmBuffer n k).toNat
      let p := s.rd CKP_CFG_OWNER
      let s0 := s.mCkp fun y => { y with recd := mset (fun _ => (0, [])) y.recd n (0, []), recs := mset (fun _ => 0) y.recs n (k + 1) }
      match s0.checkRun p true a (4 * l.length) with
      | .ok => (s0.blkWrite a (l.flatMap fun v => leBytes 4 v)).ringPut (ckpRing n) 16
          (fun lost => leBytes 16 (Config.tdmRecord first frames a lost).toNat) true
      | c => s0.blkFail p srcCkp c a

/-- TDM_FRAME (R498 to R501): a frame whose FS is stamped, with the samples of its input slots. -/
def execTdmFrame (n : Fin 4) (fs : BitVec 64) (ins : List (BitVec 32)) (s : State) : Out :=
  if ¬ s.on CKP_CFG_EN ∨ ¬ s.on (CKP_T_CFG_EN n) then .next s
  else
    let outs := s.bound n 0 32
    let s1 := if outs.isEmpty then s else s.tdmFetch n
    let p := s1.rd CKP_CFG_OWNER
    let cur := mget (fun _ => none) s1.ckp.play n
    let s2 := if cur.isNone ∧ ¬ outs.isEmpty then
        (s1.mCkp fun y => { y with under := mset (fun _ => 0) y.under n (mget (fun _ => 0) y.under n + 1) }).wr CKP_EVENT_UNDERRUN 1 else s1
    let r := outs.foldl (fun (a : List (Nat × Int) × State × Nat) j =>
      let x := match cur with
        | some (addr, _, _) => a.2.1.sample n p (addr + 4 * a.2.2)
        | none => (0, a.2.1)
      let g := x.2.ramp j fs.toNat
      (a.1 ++ [(s.rd (CKP_CH_SLOT j), rneQuot (x.1 * g.1) 48)], g.2, a.2.2 + 1)) ([], s2, 0)
    let s3 := r.2.1.emit (.tdm n r.1)
    let s4 := match cur with
      | some (addr, left, i) =>
        if left ≤ 1 then (s3.mCkp fun y => { y with play := mset (fun _ => none) y.play n none }).complete (ckpQ n) 32 (leBytes 32 (Config.tdmDone i).toNat)
        else s3.mCkp fun y => { y with play := mset (fun _ => none) y.play n (some (addr + 4 * outs.length, left - 1, i)) }
      | none => s3
    .next (s4.tdmRecordFrame n fs.toNat ((s4.bound n 32 48).map fun i => (ins.getD (s4.rd (CKP_CH_SLOT i)) 0).toNat))

/-- AMP_FAULT (R500): fault input k is accepted low, or high again. -/
def execAmpFault (k : Fin 8) (low : Bool) (stamp : BitVec 64) (s : State) : Out :=
  let s0 := s.mCkp fun y => { y with amp := mset (fun _ => false) y.amp k low }
  if ¬ s.on CKP_CFG_EN ∨ ¬ low then .next s0
  else
    let l := (List.range 32).filter fun j => s.on (CKP_CH_EN j) && s.rd (CKP_CH_AMP j) == k.val
    let s1 := l.foldl (fun a j => a.mute j (stamp.toNat + 16)) s0
    let s2 := ((s1.wr (CKP_AMP_LOG_STAMP k) stamp.toNat).wr (CKP_AMP_MASK_MASK k) (l.foldl (fun a j => a + 2 ^ j) 0)).wr CKP_EVENT_AMP 1
    .next (if s2.on CKP_CFG_NEN then s2.notify srcCkp (s2.rd CKP_CFG_OWNER) (s2.rd CKP_CFG_CORE) (s2.rd CKP_CFG_CNT) 1 else s2)

/-- Clear the mute of a channel, unless its fault input is low or a fault came in this TICK. -/
def State.unmute (s : State) (j : Nat) : State :=
  let k := s.rd (CKP_CH_AMP j)
  if ¬ s.on (CKP_CH_MUTE j) ∨ (k < 8 ∧ (mget (fun _ => false) s.ckp.amp k ∨
      (bit (s.rd (CKP_AMP_MASK_MASK k)) j ∧ s.rd (CKP_AMP_LOG_STAMP k) = s.stamp))) then s
  else ((s.wr (CKP_CH_MUTE j) 0).wr (CKP_CH_RAMP j) 1).setGain j 0

/-- CKP_CMD_POLL (R501). -/
def execCkpCmdPoll (s : State) : Out :=
  let a := s.rd CKP_CMD_ADDR
  let p := s.rd CKP_CFG_OWNER
  if ¬ s.on CKP_CFG_EN ∨ ¬ s.fetchOk p then .next s
  else if ¬ s.inTun a then .next (s.blkFail p srcCkp .decode a)
  else match s.checkRun p false a 8 with
  | .ok =>
    let r := s.blkRead a 8
    let v := leNum r.1
    if anyPois r.1 then .next (r.2.bite p srcCkp a)
    else if v / 2 ^ 32 = s.ckp.cmdSeq then .next r.2
    else .next ((setBitsOf 32 (v % 2 ^ 32)).foldl (fun b j => b.unmute j) (r.2.mCkp fun y => { y with cmdSeq := v / 2 ^ 32 }))
  | c => .next (s.blkFail p srcCkp c a)

/-! ### Writes of CKP registers -/

/-- The pixel clock fits the link (R491). -/
def State.dpFits (s : State) (o : Nat) : Bool :=
  let rate := [1620000, 2700000, 5400000, 8100000].getD (s.rd (CKP_D_CFG_RATE o)) 0
  decide (s.rd (CKP_D_PCLK_KHZ o) * 3 * s.depth o * 10 ≤ 2 ^ s.rd (CKP_D_CFG_LANES o) * rate * 8)

/-- Two enabled channels of a kind are bound to one slot of a port. -/
def State.slotClash (s : State) (lo hi : Nat) : Bool :=
  (List.range 4).any fun n =>
    let l := (s.bound n lo hi).map fun j => s.rd (CKP_CH_SLOT j)
    (dedup l).length != l.length

/-- A write of any register of CKP. -/
def State.writeCkp (s : State) (off v : Nat) : State :=
  if 0x1101000 ≤ off ∧ off < 0x1102000 then
    let o := (off - 0x1101000) / 0x400
    let w := (off - 0x1101000) % 0x400
    if w = 4 then s.writeThen off v fun t => t.wr (CKP_D_CTL_COMMIT o) (b2n (s.on (CKP_D_CTL_COMMIT o) || bit v 31))
    else if w < 0x100 then
      s.writeIf off v fun s0 put =>
        let t := put s0
        if ((w = 0 ∨ w = 0x1C) ∧ t.on (CKP_D_CFG_EN o) ∧ ¬ t.dpFits o) ∨ (w = 0x10 ∧ t.rd (CKP_D_HT_TOTAL o) ≤ t.rd (CKP_D_HT_ACTIVE o)) ∨
          (w = 0x14 ∧ t.rd (CKP_D_VT_TOTAL o) ≤ t.rd (CKP_D_VT_ACTIVE o)) then s0.cfgRefuse off else t
    else
      let l := (w - 0x100) / 0x20
      if s.isTt o l ∧ s.locked off ∧ v ≠ s.word off then s.lockViol off
      else s.writeIf off v fun s0 put =>
        let t := put s0
        if t.rd (CKP_L_ADDR_ADDR o l) % 64 ≠ 0 ∨ t.rd (CKP_L_CFG_PITCH o l) % 64 ≠ 0 then s0.cfgRefuse off else t
  else if 0x1102000 ≤ off ∧ off < 0x1102400 then
    let n := (off - 0x1102000) / 0x100
    let w := off % 0x100
    if w = 0 then s.writeIf off v fun s0 put =>
        let t := put s0
        if t.on (CKP_T_CFG_I2S n) ∧ t.rd (CKP_T_CFG_SLOTS n) ≠ 0 then s0.cfgRefuse off else t
    else if w < 0x80 then
      s.writeQueue off (ckpQ n) v (fun t => (t.qEnabled (ckpQ n)).mCkp fun y => { y with play := mset (fun _ => none) y.play n none }) id
    else s.writeRx off (ckpRing n) 16 v
  else if 0x1103000 ≤ off ∧ off < 0x11030C0 then
    s.writeIf off v fun s0 put =>
      let t := put s0
      if t.slotClash 0 32 ∨ t.slotClash 32 48 then s0.cfgRefuse off else t
  else if off = CKP_CFG_EN.off then
    s.writeIf off v fun s0 put =>
      let t := put s0
      let p := t.rd CKP_CFG_OWNER
      if t.on CKP_CFG_EN ∧ ¬ (t.on (PART_CFG_EN p) ∧ t.classOf p = 2) then s0.cfgRefuse off else t
  else s.writeThen off v id

end Sys2Proof.Machine
end

