-- ==== Sys2Proof/Machine/Logs.lean ====
section
/-! DEFINITION. The event record and the fault log in boot flash, and reading them (R520, R530, R556 to R558). -/

namespace Sys2Proof.Machine

/-- Rail group 1 is up, log flash is there and its pins are driven (R520, R538, R552). -/
def State.flashUp (s : State) : Bool := bit s.pwr.en 1 && bit s.pwr.pg 1 && s.sys.flash && !s.on SYS_BOOT_STATUS_XSPI_REL

/-- An entry enters a ring of cap entries: with a sector begun, the next one is erased (R557). -/
def flashPut (l : List FlashEnt) (count cap : Nat) (e : FlashEnt) : List FlashEnt :=
  e :: (if count % 64 = 0 then l.take (cap - 128) else l)

/-- The SEQ that newest entries have. -/
def seqOf (count : Nat) : Nat := count % 2 ^ 32

/-- Write one entry (R556): types below 0x80 to the event record, the others to the fault log. -/
def State.flashWrite (s : State) (e : LogEnt) : State :=
  if e.type < 0x80 then
    let n := seqOf s.sys.eventCount
    let boot := if e.type = 1 ∧ e.chip = s.ownChip then n else s.sys.bootSeq
    s.mSys fun y => { y with events := flashPut y.events y.eventCount 65536 ⟨n, boot, e⟩, eventCount := y.eventCount + 1, bootSeq := boot }
  else
    let n := seqOf s.sys.faultCount
    (s.mSys fun y => { y with
      faults := flashPut y.faults y.faultCount 196608 ⟨n, y.bootSeq, e⟩, faultCount := y.faultCount + 1 }).wr SYS_LOG_SEQ_SEQ n

/-- Boot flash is released once the entries of a failed start are written (R552). -/
def State.releaseFlash (s : State) : State :=
  if s.sys.stage = 14 ∧ s.sys.logQ.isEmpty then s.wr SYS_BOOT_STATUS_XSPI_REL 1 else s

/-- The oldest entry of the AO buffer is written, or, at a worker without log flash, sent over the ring (R557). -/
def State.logOne (s : State) : State :=
  match s.sys.logQ with
  | [] => s
  | e :: rest =>
    if s.on PWR_SAG_HOLD then s
    else if s.flashUp then ((s.setLogQ rest).flashWrite e).releaseFlash
    else if s.on SYS_BOOT_STATUS_NOFLASH ∧ s.rd LNK_STATE_STATE = rsMember then ((s.setLogQ rest).emit (.logEntry e)).releaseFlash
    else s

/-- LOG_ENTRY_WRITE (R557): of the AO buffer, or an entry that a worker sent, which joins it at the manager. -/
def execLogEntryWrite (remote : Option LogEnt) (s : State) : Out :=
  match remote with
  | none => .next s.logOne
  | some e =>
    .next (if ¬ s.ringManager then s
      else if 32 ≤ s.sys.logQ.length then s.bump PWR_SAG_LOST
      else s.setLogQ (s.sys.logQ ++ [e]))

/-- The bytes of an entry (R556); how DATA holds a type's fields is free. -/
def flashBytes (e : FlashEnt) : List Nat :=
  let le (n v : Nat) : List Nat := (List.range n).map fun i => v / 2 ^ (8 * i) % 256
  let body := le 4 e.seq ++ le 2 e.ent.type ++ [e.ent.chip % 256, 0] ++ le 8 e.ent.time ++ le 4 e.boot ++
    le 40 (Config.logData e.ent.type e.ent.data).toNat
  body ++ le 4 (crc32c body)

/-- The read that a write of SYS_LOG_CTL with GO = 1 starts (R558). -/
def State.logRead (s : State) : State :=
  let l := if s.on SYS_LOG_CTL_LOG then s.sys.faults else s.sys.events
  let e := if s.flashUp then l[s.rd SYS_LOG_CTL_INDEX]? else none
  let bytes := (e.map flashBytes).getD []
  let s1 := (List.range 16).foldl (fun a i =>
    a.wr (SYS_LOG_DATA_DATA i) ((List.range 4).foldl (fun v j => v + bytes.getD (4 * i + j) 0 * 2 ^ (8 * j)) 0)) s
  ((s1.wr SYS_LOG_CTL_VALID (b2n e.isSome)).wr SYS_LOG_CTL_GO 0).wr SYS_LOG_CTL_DONE 1

/-- A write of SYS_LOG_CTL (R558, R561). -/
def State.writeLogCtl (s : State) (v : Nat) : State :=
  s.writeThen SYS_LOG_CTL_GO.off v fun t => if bit v 31 then t.logRead else t

/-- SYS_LOG_CTL_GO (R558). -/
def execSysLogCtlGo (req : Requester) (value : BitVec 32) (s : State) : Out :=
  if bit value.toNat 31 then .next (s.asWriter req SYS_LOG_CTL_GO.off 4 fun a => a.writeLogCtl value.toNat) else .next s

end Sys2Proof.Machine
end

