-- ==== Sys2Proof/Machine/Pwr.lean ====
section
/-! DEFINITION. The power block PWR: clocks, regions, domains, ramp slots, supply and clock monitors, sag, power-good, Cellar and its
wake (R503 to R528, R538, R570, R571). -/

namespace Sys2Proof.Machine

/-! ### Regions (R507, R508) -/

/-- A region's supply in mV at a frequency in MHz: linear between the rows of R507, rounded up to the next 5 mV. -/
def opVolt (f : Nat) : Nat :=
  let seg (f0 v0 f1 v1 : Nat) : Nat := v0 + ((v1 - v0) * (f - f0) + 5 * (f1 - f0) - 1) / (5 * (f1 - f0)) * 5
  if f ≤ 900 then seg 600 600 900 630 else if f ≤ 1200 then seg 900 630 1200 680 else seg 1200 680 1500 750

/-- A write of PWR_REGr_CFG (R505, R508): the voltage of a rise comes first. -/
def State.writeRegCfg (s : State) (r v : Nat) : State :=
  let off := (PWR_REG_CFG_TARGET r).off
  s.writeIf off v fun s0 put =>
    let t := bits v 10 0
    if t % 25 ≠ 0 ∨ t < 600 ∨ 1500 < t then s0.cfgRefuse off
    else ((((put s0).wr (PWR_REG_STAT_FALLBACK r) 0).wr (PWR_REG_STAT_BUSY r) 1).wr (PWR_REG_STAT_VOLT r)
      (max (s0.rd (PWR_REG_STAT_VOLT r)) (opVolt t))).showSteps

/-- REGION_TARGET_WRITE (R508). -/
def execRegionTargetWrite (req : Requester) (r : Fin 8) (value : BitVec 32) (s : State) : Out :=
  .next (s.asWriter req (PWR_REG_CFG_TARGET r).off 4 fun a => a.writeRegCfg r value.toNat)

/-- REGION_TARGET_REACHED (R508): the voltage of a fall comes last. -/
def execRegionTargetReached (r : Fin 8) (s : State) : Out :=
  let t := s.rd (PWR_REG_CFG_TARGET r)
  if s.on (PWR_REG_STAT_BUSY r) ∧ s.rd (PWR_REG_STAT_FREQ r) = t then
    .next (((s.wr (PWR_REG_STAT_VOLT r) (opVolt t)).wr (PWR_REG_STAT_BUSY r) 0).wr PWR_EVENT_REG_DONE 1)
  else .next s

/-! ### Domains (R509 to R514) -/

/-- First offset, count and stride of the words whose bit 31 (for TAS bit 30) enables a resource of a block. -/
def enableWords (block : Nat) : List (Nat × Nat × Nat × Nat) :=
  match block with
  | 5 => [(0x504100, 16, 8, 31), (0x50010C, 4, 0x20, 31)]
  | 7 => [(0x701000, 64, 0x40, 31), (0x700100, 48, 4, 31)]
  | 8 => [(0x800100, 16, 0x10, 31), (0x801000, 64, 0x40, 31), (0x802000, 16, 0x20, 31)]
  | 9 => [(0x900100, 16, 0x40, 31)]
  | 10 => [(0xA00100, 16, 0x40, 31), (0xA01000, 128, 0x10, 31)]
  | 11 => [(0xB00100, 16, 0x40, 31)]
  | 12 => [(0xC00100, 8, 0x20, 31), (0xC01000, 64, 0x200, 31), (0xC09000, 16, 0x40, 31), (0xC0A000, 32, 0x10, 31),
      (0xC0A400, 16, 0x10, 31), (0xC0A600, 8, 0x20, 31), (0xC0B000, 24, 0x20, 31), (0xC0C000, 4, 0x20, 31), (0xC0C100, 4, 0x20, 31)]
  | 13 => [(0xD00004, 1, 4, 31), (0xD01000, 16, 0x100, 31), (0xD01040, 16, 0x100, 31), (0xD01080, 16, 0x100, 31),
      (0xD010C0, 16, 0x100, 31), (0xD03008, 64, 0x20, 31), (0xD04010, 64, 0x20, 31)]
  | 14 => [(0xE80000, 2, 0x40, 31), (0xE82000, 256, 8, 31), (0xE90000, 512, 0x40, 31), (0xE01000, 10, 0x400, 31), (0xE0101C, 10, 0x400, 30)] ++
      ((List.range 8).flatMap fun q => [(0xE01100 + 0x40 * q, 10, 0x400, 31), (0xE01308 + 0x20 * q, 10, 0x400, 31)])
  | 15 => [(0xF00000, 1, 4, 31)]
  | 16 => [(0x1001000, 8, 0x100, 31), (0x1001040, 8, 0x100, 31), (0x1001088, 8, 0x100, 31)]
  | 17 => [(0x1100004, 1, 4, 31), (0x1101000, 4, 0x400, 31), (0x1102000, 4, 0x100, 31), (0x1102040, 4, 0x100, 31),
      (0x1102088, 4, 0x100, 31), (0x1103000, 48, 4, 31)]
  | _ => []

/-- Some resource of a block is enabled (R510). -/
def State.blockEnabled (s : State) (block : Nat) : Bool :=
  (enableWords block).any fun x => (List.range x.2.1).any fun i => bit (s.word (x.1 + i * x.2.2.1)) x.2.2.2

/-- The blocks of a block domain (chapter 1, Device blocks). -/
def domBlocks (d : Nat) : List Nat :=
  (List.range 18).filter fun b => (blockDoms b).contains d

/-- May domain d be forced to Off (R510). -/
def State.canOff (s : State) (d : Nat) : Bool :=
  if d = 0 ∨ d = 85 ∨ d = 93 then false
  else if d ≤ 68 then (s.coresIn d).all fun c => match s.coreOwner c with
    | some p => !decide (2 ≤ s.rd (PART_STATUS_STATE p))
    | none => true
  else if d ≤ 84 then (s.tunOwner (d - 69)).isNone
  else !(domBlocks d).any s.blockEnabled

/-- Domain d goes Off: a block whose domains are then all Off loses its registers (R509). -/
def State.offDom (s : State) (d : Nat) : State :=
  let s1 := s.setDom d 3
  let gone := (domBlocks d).filter s1.blockOff
  { s1 with regs := mdrop s1.regs fun k => gone.contains (k >>> 20) && decide (k < 0x2000000) }

/-- A mode takes effect: OFF through the staging for core groups, RUN and the end of OFF as a wake. -/
def State.applyMode (s : State) (d m : Nat) : State :=
  if m = 2 then
    if s.domState d = 3 then s
    else if d ≤ 68 then s.setSteps ((s.pwr.steps.filter fun x => x.spare || x.idx != d) ++ [⟨false, false, d, 3⟩])
    else s.offDom d
  else if m = 1 ∨ s.domState d = 3 then s.wakeDom d 0
  else s

/-- A write of PWR_DOM_MODEw (R510). -/
def State.writeDomMode (s : State) (w v : Nat) : State :=
  let off := 0x100020 + 4 * w
  s.writeIf off v fun s0 put =>
    let mode (k : Nat) : Nat := bits v (2 * k + 1) (2 * k)
    let bad (k : Nat) : Bool :=
      let d := 16 * w + k
      mode k == 3 || (decide (105 < d) && mode k != 0) ||
        (mode k == 2 && s0.domMode d != 2 && !s0.canOff d)
    if (List.range 16).any bad then s0.cfgRefuse off
    else (List.range 16).foldl (fun a k =>
      if 16 * w + k = 0 ∨ mode k = s0.domMode (16 * w + k) then a else a.applyMode (16 * w + k) (mode k)) (put s0)

/-- Domain d is under automatic choice and nothing moves it. -/
def State.autoDom (s : State) (d : Nat) : Bool :=
  s.on PWR_CFG_AUTO && s.domMode d == 0 && mget (fun _ => 0) s.pwr.waking d == 0 && !s.pwr.steps.any fun x => !x.spare && x.idx == d

/-- Domain d enters state aim: a core group through its ramp slot (R517), a slice group at once. -/
def State.sleepTo (s : State) (d aim : Nat) : State :=
  let enter : State := (s.setDom d aim).mPwr fun y => { y with restAt := if aim = 1 then mset (fun _ => 0) y.restAt d s.now else y.restAt }
  if d ≤ 68 then s.setSteps (s.pwr.steps ++ [⟨false, false, d, aim⟩]) else enter

/-- GROUP_REST_ENTRY (R512, R515): REST_HOLD cycles of idleness have passed. -/
def execGroupRestEntry (d : Fin 106) (s : State) : Out :=
  .next (if s.autoDom d && s.domState d == 0 && s.domIdle d && decide (1 ≤ s.choice d) then s.sleepTo d 1 else s)

/-- GROUP_STEEP_ENTRY (R512, R515): STEEP_HOLD µs in Rest have passed, or the group is stalled only at WAITTIME. -/
def execGroupSteepEntry (d : Fin 106) (s : State) : Out :=
  let held := decide (mget (fun _ => 0) s.pwr.restAt d + s.rd PWR_CFG_STEEP_HOLD * 1000 ≤ s.now)
  .next (if s.autoDom d && s.domState d == 1 && s.domIdle d && decide (2 ≤ s.choice d) && (held || s.onlyTime d) then s.sleepTo d 2 else s)

/-- GROUP_WAKE (R513, R514): a cause that the event stands for wakes a group that rests or is about to. -/
def execGroupWake (d : Fin 106) (s : State) : Out :=
  if s.domState d = 3 ∨ s.pwr.steps.any (fun x => !x.spare && x.idx == d && !x.rise && x.aim == 3) then .next s else .next (s.wakeDom d 0)

/-- A domain that leaves Off is filled before it accepts a request (R180, R509). -/
def State.fillDom (s : State) (d : Nat) : State :=
  if 1 ≤ d ∧ d ≤ 68 then (s.coresIn d).foldl (fun a c => (a.fillCore c).clearCore c) s
  else if 69 ≤ d ∧ d ≤ 84 then s.fillRange (0x100000000 + (d - 69) * 0x2000000) (0x100000000 + (d - 68) * 0x2000000)
  else s

/-- GROUP_WAKE_DONE (R509): the wake latency has passed. -/
def execGroupWakeDone (d : Fin 106) (s : State) : Out :=
  let w := mget (fun _ => 0) s.pwr.waking d
  if w = 0 then .next s
  else
    let s1 := (s.setDom d (w - 1)).mPwr fun y => { y with waking := mset (fun _ => 0) y.waking d 0 }
    .next (if s.domState d = 3 then s1.fillDom d else s1)

/-! ### Ramp slots (R517, R518) -/

/-- Place of a waiting step in the order of R518: class-S groups, other groups, spares. -/
def State.stepRank (s : State) (x : RampStep) : Nat :=
  if x.spare then 1000 + x.idx else if s.groupS x.idx then x.idx else 100 + x.idx

/-- The first of some steps. -/
def State.firstStep (s : State) (l : List RampStep) : Option RampStep :=
  l.foldl (fun b x => match b with
    | some y => if s.stepRank x < s.stepRank y then some x else b
    | none => some x) none

/-- A step gets the slot. -/
def State.grantStep (s : State) (x : RampStep) : State :=
  let s1 := s.setSteps (s.pwr.steps.erase x)
  match x.spare, x.rise with
  | true, true => s1.mPwr fun y => { y with spareOn := y.spareOn ++ [x.idx] }
  | true, false => s1
  | false, true => s1.mPwr fun y => { y with waking := mset (fun _ => 0) y.waking x.idx (x.aim + 1) }
  | false, false =>
    if x.aim = 3 then s1.offDom x.idx
    else if s1.autoDom x.idx && s1.domIdle x.idx then
      (s1.setDom x.idx x.aim).mPwr fun y => { y with restAt := if x.aim = 1 then mset (fun _ => 0) y.restAt x.idx s.now else y.restAt }
    else s1

/-- The first region with a glide step to take in a direction. -/
def State.glide (s : State) (up : Bool) : Option Nat :=
  (List.range 8).find? fun r =>
    s.on (PWR_REG_STAT_BUSY r) && (if up then decide (s.rd (PWR_REG_STAT_FREQ r) < s.rd (PWR_REG_CFG_TARGET r))
      else decide (s.rd (PWR_REG_CFG_TARGET r) < s.rd (PWR_REG_STAT_FREQ r)))

/-- A region's frequency moves by 25 MHz. -/
def State.glideStep (s : State) (r : Nat) (up : Bool) : State :=
  let f := s.rd (PWR_REG_STAT_FREQ r)
  (s.wr (PWR_REG_STAT_FREQ r) (if up then f + 25 else f - 25)).showSteps

/-- RAMP_SLOT (R517, R518): rising steps first. -/
def execRampSlot (s : State) : Out :=
  match s.firstStep (s.pwr.steps.filter (·.rise)), s.glide true, s.firstStep (s.pwr.steps.filter fun x => !x.rise), s.glide false with
  | some x, _, _, _ => .next (s.grantStep x)
  | none, some r, _, _ => .next (s.glideStep r true)
  | none, none, some x, _ => .next (s.grantStep x)
  | none, none, none, some r => .next (s.glideStep r false)
  | none, none, none, none => .next s

/-! ### Monitors (R505, R519, R520, R571) -/

/-- Monitor m runs: 3 and 4 always, the others while enabled and not in Cellar. -/
def State.monOn (s : State) (m : Nat) : Bool := m == 3 || m == 4 || (s.on (PWR_MON_CFG_EN m) && s.pwr.cellar != 2)

/-- SUPWARN (R519). -/
def execSupwarn (m : Fin 8) (s : State) : Out :=
  .next (if s.monOn m then (((s.wr (PWR_MON_STAT_UVW m) 1).wr PWR_EVENT_SUPWARN 1).raiseInt (8 + m) 0) else s)

/-- SUPFAULT (R407, R519): below the under-voltage threshold, or above the over-voltage one. -/
def execSupfault (m : Fin 8) (high : Bool) (s : State) : Out :=
  if s.monOn m then
    let s1 := (s.wr (if high then PWR_MON_STAT_OV m else PWR_MON_STAT_UVF m) 1).wr PWR_EVENT_SUPFAULT 1
    .next ((s1.log 0x86 [s1.word (PWR_MON_STAT_OV m).off]).cause 8 0 0 m)
  else .next s

/-- SAG (R520): of VDD_AO or of VDDIO_NVM. -/
def execSag (ao : Bool) (s : State) : Out :=
  if s.on (if ao then PWR_SAG_AO else PWR_SAG_NVM) then .next s
  else .next ((((s.wr (if ao then PWR_SAG_AO else PWR_SAG_NVM) 1).wr PWR_SAG_HOLD 1).wr PWR_EVENT_SAG 1).raiseInt (if ao then 11 else 13) 0)

/-- SAG_END (R520): 10 ms above the threshold have passed. -/
def execSagEnd (ao : Bool) (s : State) : Out :=
  if ¬ s.on (if ao then PWR_SAG_AO else PWR_SAG_NVM) then .next s
  else
    let s1 := s.wr (if ao then PWR_SAG_AO else PWR_SAG_NVM) 0
    .next ((s1.wr PWR_SAG_HOLD (b2n (s1.on PWR_SAG_AO || s1.on PWR_SAG_NVM))).wr PWR_EVENT_SAG_END 1)

/-- CLKFAULT (R407, R505): by its bit of PWR_CLKMON, 0 REF, 1 FAB, 2 CTL, 3 TIME, 4 + r region r, 12 AO. -/
def execClkfault (k : Fin 13) (s : State) : Out :=
  let s1 := (s.setWord PWR_CLKMON_AO.off (s.word PWR_CLKMON_AO.off ||| 2 ^ k.val)).wr PWR_EVENT_CLKFAULT 1
  let s2 := s1.log 0x87 [s1.word PWR_CLKMON_AO.off]
  let s3 := if k.val = 12 then s2 else s2.cause 9 0 0 k
  if 4 ≤ k.val ∧ k.val < 12 then
    let r := k.val - 4
    .next ((((s3.wr (PWR_REG_STAT_FALLBACK r) 1).wr (PWR_REG_STAT_FREQ r) 1000).wr (PWR_REG_STAT_VOLT r) (opVolt 1000)).wr
      (PWR_REG_STAT_BUSY r) 0).showSteps
  else if k.val = 3 then .next ((s3.mTim fun y => { y with ao := true }).mPwr fun y => { y with dead := y.dead ||| 8 })
  else if k.val < 3 then .next (s3.mPwr fun y => { y with dead := y.dead ||| 2 ^ k.val })
  else .next s3

/-- PMIC_PG_LOSS (R571). -/
def execPmicPgLoss (g : Fin 4) (s : State) : Out :=
  let s0 := s.mPwr fun y => { y with pg := setBits y.pg g g 0 }
  if bit s.pwr.en g ∧ 6 ≤ s.sys.stage then .next ((s0.wr PWR_EVENT_SUPFAULT 1).cause 8 0 0 0) else .next s0

/-! ### Start-up's power steps (R526, R537, R538) -/

/-- SYS_BOOT_STATUS.STAGE of a step of R537; 14 stands for the minimal state. -/
def stageCode (n : Nat) : Nat := [0, 0, 1, 2, 3, 4, 4, 5, 6, 7, 8, 9, 10, 11, 15].getD n 15
def State.setStage (s : State) (n : Nat) : State := (s.mSys fun y => { y with stage := n }).wr SYS_BOOT_STATUS_STAGE (stageCode n)
/-- A milestone of SYS_BOOT_TIMEm. -/
def State.milestone (s : State) (m : Nat) : State := s.wr (SYS_BOOT_TIME_COUNT m) s.now
/-- Drive enables high. -/
def State.enable (s : State) (mask : Nat) : State := s.mPwr fun y => { y with en := y.en ||| mask }

/-- Groups 2 and 3 in order, each after PMIC_PG of the group before; those that are up count at once (R537 step 5). -/
def State.supplies (s : State) : State :=
  let s1 := s.enable 4
  let s2 := if bit s1.pwr.pg 2 then s1.enable 8 else s1
  if bit s2.pwr.pg 2 ∧ bit s2.pwr.pg 3 then (s2.milestone 2).setStage 6 else s2

/-- Active again (R526 step 5): every domain in Run; start-up goes on from the reading of the image header. -/
def State.wakeEnd (s : State) : State :=
  let s1 := (List.range 7).foldl (fun a w => a.wr (PWR_DOM_STAT_STATE w) 0) s
  let s2 := (((s1.mPwr fun y => { y with cellar := 0, dead := 0 }).wr PWR_EVENT_WAKE 1).log 0x06
    [s.word PWR_WAKE_SRC_SRC.off, s.word PWR_WAKE_ID_ID.off]).wr SYS_LOCK_LOCK 0
  (s2.mSys fun y => { y with woke := true, copy := 0, header := none, comp := 0, tested := false, minimal := false, hold := [] }).setStage
    (if s.on LNK_CFG_ROLE then 4 else 6)

/-- PMIC_PG_ASSERT (R526, R537). -/
def execPmicPgAssert (g : Fin 4) (s : State) : Out :=
  let s1 := s.mPwr fun y => { y with pg := y.pg ||| 2 ^ g.val }
  if ¬ bit s.pwr.en g then .next s1
  else if s.pwr.cellar = 3 then
    match g.val with
    | 1 => .next (s1.enable 4)
    | 2 => .next (s1.enable 8)
    | 3 => .next s1.wakeEnd
    | _ => .next s1
  else if s.sys.stage = 2 ∧ g.val = 1 then .next ((s1.milestone 0).setStage 3)
  else if s.sys.stage = 5 ∧ 2 ≤ g.val then .next s1.supplies
  else .next s1

/-- PMIC_PG_TIMEOUT (R526, R538, R570): 20 ms passed since the enable. -/
def execPmicPgTimeout (g : Fin 4) (s : State) : Out :=
  if bit s.pwr.en g ∧ ¬ bit s.pwr.pg g ∧ 1 ≤ g.val ∧ (s.pwr.cellar = 3 ∨ s.sys.stage = 2 ∨ s.sys.stage = 5) then
    let s1 := (s.mPwr fun y => { y with en := 1, pg := y.pg % 2 }).wr PWR_EVENT_PMIC_FAIL 1
    if s.pwr.cellar = 3 then .next (s1.mPwr fun y => { y with cellar := 2 })
    else .next (((s1.wr SYS_BOOT_STATUS_REASON 9).pinsSafe.mPwr fun y => { y with tries := y.tries + 1, failAt := some s.now }).setStage 1)
  else .next s

/-- PMIC_RETRY (R538): a second after a failure, at most 3 times. -/
def execPmicRetry (s : State) : Out :=
  match s.pwr.failAt with
  | some t =>
    if t + 10 ^ 9 ≤ s.now ∧ s.pwr.tries ≤ 3 then
      .next (((s.mPwr fun y => { y with failAt := none }).wr SAF_STATE_MINIMAL 0).mSys fun y =>
        { y with header := none, comp := 0, tested := false, minimal := false, copy := 0 })
    else .next s
  | none => .next s

/-! ### Cellar (R521 to R527) -/

/-- A write of PWR_CELLAR_CTL (R521). -/
def State.writeCellar (s : State) (v : Nat) : State := if bits v 31 16 = 0xCE11 ∧ bit v 0 then s.cellarRequest else s

/-- CELLAR_REQUEST (R521): by the register; a REPORT's request is judged within REPORT. -/
def execCellarRequest (req : Requester) (value : BitVec 32) (s : State) : Out :=
  .next (s.asWriter req PWR_CELLAR_CTL_KEY.off 4 fun a => a.writeCellar value.toNat)

/-- Every enabled partition stops (R522 step 1, R359 steps 1 to 4). -/
def State.stopAll (s : State) : State :=
  ((List.range 16).filter fun p => s.on (PART_CFG_EN p)).foldl (fun a p =>
    ((a.coresOf p).foldl (fun b c => (b.stopCore c).retireTags c) a).blocksReset p) s

/-- Domains 1 to 105 lose what they hold (R522 step 5); straps, retired positions and failed links stay until PORST_n. -/
def State.powerDown (s : State) : State :=
  let z := State.reset
  let s1 : State := { s with
    regs := mdrop s.regs fun k => decide (0x400000 ≤ k), hold := [], mem := [], msgs := [], core := z.core,
    memory := { z.memory with failed := s.memory.failed }, part := z.part, saf := { z.saf with retired := s.saf.retired },
    queues := [], vis := z.vis, sol := z.sol, ctl := z.ctl, vms := z.vms, lnk := z.lnk, qp := [], rings := [], can := z.can,
    net := z.net, ser := z.ser, ckp := z.ckp }
  let s2 := (s1.wr LNK_CFG_CHIP s.ownChip).wr LNK_CFG_ROLE (s.rd LNK_CFG_ROLE)
  (List.range 105).foldl (fun a i => a.setDom (i + 1) 3) s2

/-- A wake is accepted (R523, R526 steps 1 to 3): recorded, and the rails come up in order. -/
def State.wakeStart (s : State) (mask : Nat) : State :=
  ((s.wr PWR_WAKE_SRC_SRC mask).wr PWR_WAKE_REC_STAMP s.now).mPwr fun y => { y with cellar := 3, en := y.en ||| 2 }

/-- Sources fire (R523, R527): in Cellar the wake begins, in the same CLK_AO period they join it, during an entry they wait. -/
def State.wakeBy (s : State) (mask : Nat) : State :=
  if mask = 0 then s
  else if s.pwr.cellar = 2 then s.wakeStart mask
  else if s.pwr.cellar = 3 ∧ s.now = s.rd PWR_WAKE_REC_STAMP then s.wr PWR_WAKE_SRC_SRC (s.rd PWR_WAKE_SRC_SRC ||| mask)
  else if s.pwr.cellar = 1 then s.mPwr fun y => { y with early := y.early ||| mask }
  else s

/-- CELLAR_ENTRY (R522). -/
def execCellarEntry (s : State) : Out :=
  if s.pwr.cellar ≠ 1 then .next s
  else
    let macs := [s.rd (NET_P_MAC_MAC 8), s.rd (NET_P_MAC_MAC 9)]
    let s1 := (s.stopAll).log 0x05 [s.word PWR_WAKE_SRC_SRC.off, s.word PWR_WAKE_ID_ID.off]
    let s2 := (s1.sys.logQ.foldl (fun a _ => a.logOne) s1).bypass.powerDown
    let s3 := (s2.wr PWR_WAKE_SRC_SRC 0).mTim fun y => { y with ao := true }
    let s4 := (s3.mPwr fun y => { y with
      steps := [], waking := [], restAt := [], spareOn := [], cellar := 2, early := 0, en := 1, pg := y.pg % 2, macs := macs }).showSteps
    .next ((s4.mSys fun y => { y with launched := false, early := false, header := none, comp := 0, tested := false, hold := [] }).wakeBy s.pwr.early)

/-- WAKE_SOURCE (R523): at a CLK_AO edge, WAKE_n accepted or not, and the alarm. -/
def execWakeSource (wakeN : Bool) (s : State) : Out :=
  let alarm := s.on TIM_EVENT_ALARM_EN && decide (s.rd TIM_ALARM_VALUE ≤ s.now) && s.tim.alarmAhead
  if s.pwr.cellar = 0 then .next s
  else
    let s1 := if alarm then (s.mTim fun y => { y with alarmAhead := false }).wr TIM_EVENT_ALARM 1 else s
    .next (s1.wakeBy (b2n wakeN + 2 * b2n alarm))

/-- CAN_WAKE_DECODE (R523, R524): decoder k recognises a wake-up pattern or a frame. -/
def execCanWakeDecode (k : Fin 4) (what : CanWake) (s : State) : Out :=
  if s.pwr.cellar = 0 ∨ ¬ s.on (PWR_CANWAKE_CFG_EN k) then .next s
  else match what with
  | .wup d g d' whole =>
    let f := s.rd (PWR_CANWAKE_CFG_WFILT k)
    .next (if ¬ s.on (PWR_CANWAKE_CFG_MODE k) ∧ f ≤ d ∧ f ≤ g ∧ f ≤ d' ∧ whole ≤ 16000 then s.wakeBy (2 ^ (2 + k.val)) else s)
  | .frame f crcOk =>
    let mask := s.rd (PWR_CANWAKE_MASK_ID k)
    let hit := crcOk && !f.fdf && s.on (PWR_CANWAKE_CFG_MODE k) &&
      (f.id.toNat &&& mask) == (s.rd (PWR_CANWAKE_ID_ID k) &&& mask) &&
      (!s.on (PWR_CANWAKE_MASK_IDE k) || f.ide == s.on (PWR_CANWAKE_ID_IDE k))
    if ¬ hit then .next s
    else
      let s1 := s.wakeBy (2 ^ (2 + k.val))
      let seen := if s.pwr.cellar = 1 then s.pwr.early else if s.pwr.cellar = 3 then s.rd PWR_WAKE_SRC_SRC else 0
      let mine := decide (seen / 4 % 2 ^ k.val = 0) && decide (s.pwr.cellar ≠ 3 ∨ s.now = s.rd PWR_WAKE_REC_STAMP)
      .next (if mine then (s1.wr PWR_WAKE_ID_IDE (b2n f.ide)).wr PWR_WAKE_ID_ID f.id.toNat else s1)

/-- Six bytes of 0xFF and sixteen copies of an address lie in the bytes (R525). -/
def magicIn (mac : List (BitVec 8)) : List (BitVec 8) → Bool
  | [] => false
  | b :: t =>
    (List.replicate 6 (0xFF : BitVec 8) ++ (List.replicate 16 mac).flatten).isPrefixOf (b :: t) || magicIn mac t

/-- MAGIC_PACKET (R525): a frame arrives at MGE0 or MGE1. -/
def execMagicPacket (port : Fin 2) (frame : List (BitVec 8)) (fcsOk : Bool) (s : State) : Out :=
  let en := s.on (if port.val = 0 then PWR_ETHWAKE_CFG_EN0 else PWR_ETHWAKE_CFG_EN1)
  let m := if s.pwr.cellar = 1 then s.rd (NET_P_MAC_MAC (8 + port.val)) else s.pwr.macs.getD port 0
  let mac := (List.range 6).map fun i => BitVec.ofNat 8 (m / 2 ^ (8 * (5 - i)))
  .next (if s.pwr.cellar ≠ 0 ∧ en ∧ fcsOk ∧ magicIn mac frame then s.wakeBy (2 ^ (6 + port.val)) else s)

/-! ### Registers of PWR (R528) -/

/-- A write of any register of PWR. -/
def State.writePwr (s : State) (off v : Nat) : State :=
  if 0x100020 ≤ off ∧ off < 0x10003C then s.writeDomMode ((off - 0x100020) / 4) v
  else if 0x100100 ≤ off ∧ off < 0x100140 ∧ off % 8 = 0 then s.writeRegCfg ((off - 0x100100) / 8) v
  else if off = PWR_CELLAR_CTL_KEY.off then s.writeCellar v
  else if 0x100200 ≤ off ∧ off < 0x100240 ∧ off % 8 = 0 ∧ bits v 15 8 ≤ bits v 23 16 then s.cfgRefuse off
  else if off = PWR_CFG_AUTO.off then
    s.writeThen off v fun t =>
      if bit v 31 then t
      else (List.range 84).foldl (fun a i => if a.domState (i + 1) = 1 ∨ a.domState (i + 1) = 2 then a.wakeDom (i + 1) 0 else a) t
  else s.writeThen off v id

end Sys2Proof.Machine
end

