-- ==== Sys2Proof/Machine/Bus.lean ====
section
/-! DEFINITION. A write of any register by its offset, whatever block it lies in (R17 to R20), and the rows that write queues:
QUEUE_DISABLE, PIDX_WRITE, PWORD_POLL (R237, R252, R278), and input edges (R334). -/

namespace Sys2Proof.Machine

/-! ### Queues (R237, R252, R266, R278) -/

/-- After an index moves, illegal descriptors at the head of a DEC or PRE queue end. -/
def State.qSkip (s : State) (b : Nat) : State :=
  match b >>> 20 with
  | 9 => s.decSkip ((b - 0x900100) / 0x40)
  | 10 => s.preSkip ((b - 0xA00100) / 0x40)
  | _ => s

/-- A write of a register of a DEC, PRE or SOL queue. -/
def State.writeJobQ (s : State) (off b v : Nat) : State :=
  let enable (t : State) : State := if b >>> 20 = 10 then t.preqEnable ((b - 0xA00100) / 0x40) (s.word b) else t.qEnabled b
  if b >>> 20 = 11 ∧ off = b then
    if bits v 25 24 = 3 ∧ s.classOf (bits v 23 20) ≠ 0 then s.cfgRefuse off
    else if s.on (qEn b) ∧ bit v 31 then
      s.writeIf off v fun s0 put => if (put s0).word off = s0.word off then s0 else s0.cfgRefuse off
    else s.writeQueue off b v enable id
  else
    let t := s.writeQueue off b v enable id
    if off = b + 4 then t.qSkip b else t

/-! ### Other registers with behaviour of their own -/

/-- A write of a register of SYS, but SYS_RST_CTL, whose effect is a compute reset (R547, R558, R561). -/
def State.writeSys (s : State) (off v : Nat) : State :=
  if off = SYS_LOG_CTL_GO.off then s.writeLogCtl v
  else if off = SYS_RST_CTL_KEY.off then s
  else if off = SYS_LOCK_LOCK.off then
    s.writeThen off v fun t => if t.on SYS_LOCK_LOCK then t.mSys fun y => { y with lockEver := true } else t
  else s.writeThen off v id

/-- A write of a register of MEM (R159, R177, R179, R184). -/
def State.writeMem (s : State) (req : Requester) (off v : Nat) : State :=
  if 0x500100 ≤ off ∧ off < 0x500180 then
    let t := (off - 0x500100) / 0x20
    if off % 0x20 = 0xC then s.writeTsCtl req t v
    else if s.on (MEM_TS_CTL_GO t) then s.wr MEM_EVENT_CFG_ERR 1
    else s.writeThen off v id
  else if off = MEM_INJ_CTL_ARM.off then s.writeInjCtl v
  else if off = MEM_EVENT_UE.off then s.writeThen off v fun t => if bit v 1 then t.wr MEM_UE_FIRST_VALID 0 else t
  else if 0x504100 ≤ off ∧ off < 0x504180 then
    let w := (off - 0x504100) / 8
    if off % 8 = 0 then s.writeLpwCfg w v else s.writeLpwMap w v
  else s.writeThen off v id

/-- A write of a register of PART (R112, R348 to R360, R381, R516). -/
def State.writePart (s : State) (req : Requester) (off v : Nat) : State :=
  if ownTable off then s.writeOwn off v
  else if off < 0x601000 then s.writeThen off v id
  else
    let p := (off - 0x601000) / 0x100
    let o := off % 0x100
    if o = 0 then s.writePartCfg p v
    else if o = 4 then s.writePartCtl req p v
    else if o = 0x1C then
      s.writeIf off v fun s0 put => if s0.on (PART_CFG_EN p) ∧ ¬ (put s0).grantsOk p (s0.classOf p) then s0.cfgRefuse off else put s0
    else if o = 0x28 ∨ o = 0x2C then s.writeSlotMask p off v
    else if o = 0x30 then s.writeThen off v State.repower
    else if o = 0x38 then s.writeDetCfg p v
    else if 0x48 ≤ o ∧ o < 0x68 then s.writeRpt p off v
    else s.writeThen off v id

/-- A write of a register of VMS (R421, R426, R434). -/
def State.writeVmsReg (s : State) (off v : Nat) : State :=
  if 0x740000 ≤ off ∧ off < 0x780000 ∧ off % 0x1000 = 0 then s.doorbell ((off - 0x740000) / 0x1000) v
  else if 0x700100 ≤ off ∧ off < 0x7001C0 then s.writeQvec ((off - 0x700100) / 4) v
  else s.writeVms off v

/-- A write of a register of ING. -/
def State.writeIng (s : State) (off v : Nat) : State :=
  if 0x801000 ≤ off ∧ off < 0x802000 then s.writeStr ((off - 0x801000) / 0x40) off v
  else if 0x802000 ≤ off ∧ off < 0x802200 ∧ off % 0x20 < 8 then s.writeSync ((off - 0x802000) / 0x20) off v
  else s.writeThen off v id

/-- A write of a register of a core's window (R84, R161, R179); CORE_PAR_FIRST.VALID clears once PAR_FEED, PAR_ACC and PAR_VREG
are all clear (chapter 2, CORE_PAR_FIRST). -/
def State.writeCore (s : State) (off v : Nat) : State :=
  let c := (off - 0x2000000) / 0x20000
  let o := off % 0x20000
  if o = 8 then s.writeArithCfg c v
  else if o = 0xC then
    s.writeThen off v fun t =>
      if ¬ t.on (CORE_ARITH_STATUS_PAR_FEED c) ∧ ¬ t.on (CORE_ARITH_STATUS_PAR_ACC c) ∧ ¬ t.on (CORE_ARITH_STATUS_PAR_VREG c) then
        t.wr (CORE_PAR_FIRST_VALID c) 0 else t
  else if o = 0x3000 then
    s.writeThen off v fun t =>
      if ¬ t.on (CORE_ECC_STATUS_UE c) ∧ ¬ t.on (CORE_ECC_STATUS_POISON_SEEN c) then t.wr (CORE_ECC_FIRST_VALID c) 0 else t
  else s.writeThen off v id

/-- A write of a register that the requester reaches, by its block; a block whose domains are Off takes none (R510). -/
def State.writeReg (s : State) (req : Requester) (off v : Nat) : State :=
  if 0x2000000 ≤ off then s.writeCore off v
  else if s.blockOff (off >>> 20) then s.cfgRefuse off
  else match off >>> 20 with
  | 0 => s.writeSys off v
  | 1 => s.writePwr off v
  | 2 => s.writeTim req off v
  | 3 => s.writeEvt off v
  | 4 => s.writeSaf off v
  | 5 => s.writeMem req off v
  | 6 => s.writePart req off v
  | 7 => s.writeVmsReg off v
  | 8 => s.writeIng off v
  | 10 =>
    if 0xA01000 ≤ off ∧ off < 0xA01800 then s.writeCtx ((off - 0xA01000) / 0x10) off v
    else match queueAt off with
      | some b => s.writeJobQ off b v
      | none => s.writeThen off v id
  | 12 => s.writeCtl off v
  | 13 => s.writeCan off v
  | 14 => s.writeNet off v
  | 15 => s.writeLnk off v
  | 16 => s.writeSer req off v
  | 17 => s.writeCkp off v
  | _ => match queueAt off with
      | some b => s.writeJobQ off b v
      | none => s.writeThen off v id

/-- QUEUE_DISABLE (R252, R278): a write of the CFG register of a DEC, PRE or SOL queue that clears EN. -/
def execQueueDisable (req : Requester) (i : Fin 48) (value : BitVec 32) (s : State) : Out :=
  if bit value.toNat 31 then .next s
  else .next (s.asWriter req (vecQueue i) 4 fun a => a.writeReg req (vecQueue i) value.toNat)

/-- The first offset of every queue of the device that has a PIDX. -/
def queueBases : List Nat :=
  (List.range 16).flatMap (fun q => [decQ q, preQ q, solQ q]) ++
  (List.range 16).flatMap (fun n => (List.range 3).map (canQ n)) ++
  (List.range 10).flatMap (fun n => (List.range 8).map (netQ n)) ++
  (List.range 8).map serQ ++ (List.range 4).map ckpQ

/-- PIDX_WRITE (R237, R266, R463, R471): a write of the PIDX of a queue or QP. -/
def execPidxWrite (req : Requester) (off : Nat) (value : BitVec 32) (s : State) : Out :=
  if (queueBases.any fun b => off == b + 4) ∨ (0xE90000 ≤ off ∧ off < 0xE98000 ∧ off % 0x40 = 4) then
    .next (s.asWriter req off 4 fun a => a.writeReg req off value.toNat)
  else .next s

/-- PWORD_POLL (R237, R463): the poll interval of a queue with PSRC = 1, or of a QP, ends. -/
def execPwordPoll (base : Nat) (s : State) : Out :=
  if 0xE90000 ≤ base ∧ base < 0xE98000 ∧ base % 0x40 = 0 then .next (s.qpPoll ((base - 0xE90000) / 0x40))
  else if queueBases.contains base ∧ s.on (qEn base) ∧ s.on (qPsrc base) ∧ s.fetchOk (s.qPart base) then
    .next ((s.readPword base).qSkip base)
  else .next s

/-! ### Input edges (R333, R334, R489) -/

/-- INPUT_EDGE (R333 to R339, R489): an accepted edge of TRIP_IN_n[0], TRIP_IN_n[1] or, from 2 on, a GPIO pin. -/
def execInputEdge (pin : Fin 34) (rising : Bool) (s : State) : Out :=
  let flags := if rising then 1 else 4
  let at' (src : Nat) (t : State) : State :=
    (t.mEvt fun y => { y with level := mset (fun _ => false) y.level src rising }).raise src flags 0 t.stamp
  if pin.val < 2 then .next (at' pin (s.mSaf fun y => { y with tripLow := mset (fun _ => false) y.tripLow pin (!rising) }))
  else
    let p := pin.val - 2
    let s1 := s.wr SER_GPIO_IN_IN (setBits (s.rd SER_GPIO_IN_IN) p p (b2n rising))
    match s.rd (SER_GPIO_CFG_MODE p) with
    | 1 => .next (at' (32 + p) s1)
    | 2 => .next (at' (176 + p) s1)
    | _ => .next s1

end Sys2Proof.Machine
end

