-- ==== Sys2Proof/Machine/Sys.lean ====
section
/-! DEFINITION. Start-up: PORST_n, the steps of R537, the image, its components, fallback, the minimal state, compute reset and
fuses (R529 to R561). -/

namespace Sys2Proof.Machine

/-! ### PORST_n (R444, R519, R536, R555) -/

/-- Everything as at the release of PORST_n with these straps: fuses and log flash keep what they hold. -/
def State.porst (s : State) (chip : Nat) (manager : Bool) : State :=
  let z := State.reset
  let fuses : SMap Word := (mdrop s.regs fun k => !(k == 0 || k == 0x1C || decide (0x2C ≤ k ∧ k < 0x3C)))
  let s1 : State := { z with
    pending := s.pending, out := s.out, free := s.free, regs := fuses,
    sys := { z.sys with key := s.sys.key, events := s.sys.events, faults := s.sys.faults, eventCount := s.sys.eventCount,
                        faultCount := s.sys.faultCount, bootSeq := s.sys.bootSeq } }
  ((s1.wr SYS_SVN_IMG 0).wr LNK_CFG_CHIP chip).wr LNK_CFG_ROLE (b2n manager)

/-- PORST_N (R536, R444, R555): PORST_n low and its release, with the straps sampled. -/
def execPorstN (chip : Fin 8) (manager : Bool) (s : State) : Out := .next (s.porst chip manager)

/-- VDD_AO_SELF_RESET (R519). -/
def execVddAoSelfReset (s : State) : Out := .next (s.porst s.ownChip (s.on LNK_CFG_ROLE))

/-! ### Yield remap and retirement (R541 to R543) -/

/-- SKIP of a physical column. -/
def State.skipOf (s : State) (x : Nat) : Nat := bits (s.word (0x30 + 4 * (x / 6))) (5 * (x % 6) + 4) (5 * (x % 6))

/-- Show the spares of each quad and the retired positions. -/
def State.showSpares (s : State) : State :=
  ((List.range 4).foldl (fun a q => a.setSpares q (a.sparesOf q)) s).wr SAF_FT_STAT_RETIRED (min s.saf.retired.length 255)

/-- The map of the fuses (R541). -/
def State.remap (s : State) : State :=
  let phys (c : Nat) : Nat := 16 * (if c / 16 < s.skipOf (c % 16) then c / 16 else c / 16 + 1) + c % 16
  (s.mSaf fun x => { x with
    place := (List.range s.nCores).foldl (fun m c => mset (fun k => k) m c (phys c)) [],
    spares := (List.range 4).foldl (fun m q =>
      mset (fun _ => []) m q (((List.range 4).map (4 * q + ·)).filterMap fun k => if s.skipOf k = 31 then some (256 + k) else none)) [] })

/-- A position is retired (R542): a spare leaves its quad, a position in service is replaced by one, if there is one. -/
def State.retirePos (s : State) (pos : Nat) : State :=
  let q := quadOf pos
  let out (a : State) (l : List Nat) : State := ((a.setSpares q l).mSaf fun x =>
    { x with retired := if x.retired.contains pos then x.retired else x.retired ++ [pos] }).showSpares
  if (s.sparesOf q).contains pos then out s ((s.sparesOf q).filter (· != pos))
  else match s.coreAt pos, s.sparesOf q with
  | some c, spare :: rest => out (s.mSaf fun x => { x with place := mset (fun k => k) x.place c spare }) rest
  | some _, [] => (s.wr SYS_BOOT_STATUS_RETIRE_SHORT 1).wr SAF_WARN_FT_NOSPARE 1
  | none, _ => s

/-- Positions that the fault log names since its newest CLEAR entry (R542). -/
def State.loggedBad (s : State) : List Nat :=
  (s.sys.faults.takeWhile fun e => e.ent.type != 0x8F).filterMap fun e => if e.ent.type = 0x82 then e.ent.data.head? else none

/-- What the checkers' self-test found is recorded, positions are retired, slices and channels excluded (R183, R541 to R543). -/
def State.selfTested (s : State) (r : SelfTest) : State :=
  let found : List (Nat × Nat) := r.positions.map (fun x => (0, x.val)) ++ r.slices.map (fun x => (1, x.val)) ++
    r.channels.map (fun x => (2, x.val)) ++ r.other.map fun x => (3, x.val)
  let s1 := (s.setWord MEM_BIST_STATUS_DONE.off 0).wr MEM_BIST_STATUS_DONE 1
  let s2 := match found with
    | [] => s1
    | (cls, i) :: _ =>
      let t := (((s1.wr MEM_BIST_STATUS_FAIL 1).wr MEM_BIST_STATUS_CLASS cls).wr MEM_BIST_STATUS_FAILS (min found.length 1023)).wr
        MEM_BIST_STATUS_INSTANCE i
      t.log 0x84 [t.word MEM_BIST_STATUS_DONE.off]
  let logged := match s.sys.header with
    | some h => if bit h.flags.toNat 2 then s.loggedBad else []
    | none => []
  let bad := r.positions.map (·.val) ++ s.saf.retired ++ logged
  let s3 := ((List.range 272).filter fun p => bad.contains p).foldl (fun a p => a.retirePos p) s2.remap.showSpares
  let gone := r.slices.map (fun x => 256 + x.val) ++ r.channels.map fun x => 512 + x.val
  let s4 := (s3.mMem fun x => { x with excluded := dedup (x.excluded ++ gone ++ r.other.map fun x => 1024 + x.val) })
  let s5 := if gone.isEmpty then s4 else s4.wr SYS_BOOT_STATUS_EXCL 1
  s5.mSys fun y => { y with tested := true }

/-- A parity checker outside cores, slices and channels has failed (R543); what it found holds until PORST_n (R183, R554). -/
def State.parityFailed (s : State) : Bool := s.memory.excluded.any fun i => decide (1024 ≤ i)

/-! ### What compute reset clears (R550, R554) -/

/-- A word whose register R554 keeps; of SYS also those that say how the device started. -/
def keptWord (off : Nat) : Bool :=
  [0x4, 0x8, 0x1C, 0x20, 0x24, 0x84].contains off || decide (0x40 ≤ off ∧ off < 0x80) ||
    [0x400000, 0x400008, 0x400010, 0x400018, 0x40001C, 0x400020, 0x400024].contains off ||
    match regAt off with
    | some (r, _, _) => r.keep
    | none => false

/-- A quad's step is broken off: the victim under test is a spare again. -/
def State.breakTurn (s : State) (q : Nat) : State :=
  let x := s.quad q
  let l := if x.step = 2 then (s.sparesOf q).filter (· != x.spare) ++ [x.victim] else s.sparesOf q
  s.mSaf fun y => { y with spares := mset (fun _ => []) y.spares q l, quads := mset quadIdle y.quads q (quadIdle 0) }

/-- Everything that a compute reset clears is cleared, and a fill is due. -/
def State.clearAll (s0 : State) : State :=
  let s := (List.range 4).foldl State.breakTurn s0
  let z := State.reset
  let f := s.saf
  let s1 : State := { s with
    regs := mdrop s.regs fun k => !keptWord k, hold := [], msgs := [], core := z.core,
    memory := { s.memory with scrub := [], sweep := [], fixedIn := [], ts := [], filling := true },
    part := z.part, evt := { z.evt with level := s.evt.level },
    saf := { z.saf with outA := f.outA, outB := f.outB, outF := f.outF, tripLow := f.tripLow, gateClosed := f.gateClosed,
                        place := f.place, spares := f.spares, retired := f.retired, lastBist := f.lastBist, devsafe := f.devsafe },
    queues := [], vis := z.vis, sol := z.sol, ctl := z.ctl, vms := { s.vms with busy := none, ring := [] }, qp := [], rings := [],
    can := z.can, net := z.net, ser := z.ser, ckp := z.ckp }
  let s2 := (List.range 16).foldl (fun a p =>
    let t := a.setWord (PART_CFG_EN p).off (a.word (PART_CFG_EN p).off / 2 ^ 29 * 2 ^ 29)
    if t.on (PART_CFG_EN p) then t.wr (PART_STATUS_STATE p) stEmpty else t) s1
  (((s2.wr SYS_BOOT_STATUS_OPT_FALLBACK 0).wr SYS_BOOT_STATUS_OPT_FAIL 0).showSpares).mSys fun y =>
    { y with comp := 0, hold := [], mcif := 0, mcodeBad := [], naks := [], optBad := [], hwBist := false }

/-! ### The steps that follow one another (R537) -/

/-- The minimal state is complete: its start-up steps are done (R552). -/
def State.minimalDone (s : State) : State := ((s.mSys fun y => { y with minimal := false }).setStage 14).releaseFlash

/-- The minimal state (R552). -/
def State.enterMinimal (s : State) (reason : Nat) : State :=
  let s1 := (List.range 16).foldl (fun a p => (a.wr (PART_CFG_EN p) 0).wr (PART_STATUS_STATE p) stUnused) s.clearAll
  let s2 := (((s1.pinsSafe.wr SAF_STATE_MINIMAL 1).wr SAF_STATE_PIN_F 0).mSaf fun x => { x with outF := false }).wr
    SYS_BOOT_STATUS_REASON reason
  let s3 := if s.sys.early then s2 else
    (((s2.wr VMS_PORT_CFG_EN0 1).wr VMS_PORT_CFG_EN1 0).wr VMS_PORT_CFG_BIFUR 0).wr VMS_PORT_CFG_MAXSPD 5
  let s4 := (((s3.wr (VMS_SL_CFG_EN 0) 1).wr (VMS_SL_CFG_ADMIN 0) 1).wr (VMS_SL_CFG_PEN 0) 0).wr (VMS_SL_CFG_PORT 0) 0
  let s5 := ((s4.milestone 7).mSys fun y => { y with minimal := true, header := none }).log 0x03
    [s4.word SYS_BOOT_STATUS_STAGE.off, s4.word SYS_BOOT_FAIL_ID.off]
  if bit s.pwr.pg 2 && bit s.pwr.pg 3 then s5.setStage (if s.sys.launched then 7 else 6) else (s5.setStage 5).supplies

/-- Step 7 is due: at once past where self-test and fill are done (R537, R550, R554). -/
def State.toTest (s : State) : State := s.setStage (if s.sys.tested && !s.memory.filling then 8 else 7)

/-- FILL_COMPLETE (R180, R537): after the self-test of step 7; that step then ends. -/
def execFillComplete (s : State) : Out :=
  if ¬ s.memory.filling ∨ ¬ s.sys.tested then .next s
  else
    let s1 := (s.fillAll).mMem fun x => { x with filling := false }
    if s.sys.stage ≠ 7 then .next s1
    else
      let s2 := s1.milestone 3
      .next (if s.sys.minimal then s2.minimalDone else if s.parityFailed then s2.enterMinimal 8 else s2.setStage 8)

/-! ### The image header (R531 to R535) -/

/-- Kinds of component. -/
def ckMcode : Nat := 0
def ckDevcfg : Nat := 1
def ckPlan : Nat := 2
def ckData : Nat := 3

/-- Essential by its entry alone (R534). -/
def ImgComp.marked (c : ImgComp) : Bool := bit c.cflags.toNat 0 || decide (c.kind.toNat ≤ ckDevcfg)

/-- Sent to a chip. -/
def ImgComp.forChip (c : ImgComp) (k : Nat) : Bool := bit c.chips.toNat k

/-- Every marked entry comes before every other. -/
def markedFirst : List ImgComp → Bool
  | [] => true
  | c :: t => (c.marked || t.all fun d => !d.marked) && markedFirst t

/-- Order of the component table (R534). -/
def ImgHeader.ordered (h : ImgHeader) : Bool :=
  (h.comps.head?.map fun c => c.kind.toNat) == some ckMcode && (h.comps[1]?.map fun c => c.kind.toNat) == some ckDevcfg &&
    (h.comps.drop 2).all (fun c => decide (ckDevcfg < c.kind.toNat)) && markedFirst h.comps

/-- An entry of the component table refuses its component (R533, R535): the reason. -/
def State.compBad (s : State) (h : ImgHeader) (i : Nat) (c : ImgComp) : Option Nat :=
  let k := c.kind.toNat
  let last := c.offset.toNat + c.length.toNat
  if ¬ bit c.steps.toNat 3 then some 4
  else if 3 < k ∨ (k ≠ ckPlan ∧ c.cfmt ≠ 1) ∨ c.cflags.toNat / 2 ≠ 0 ∨ ¬ c.zero ∨ (if 2 ≤ k then 16 ≤ c.part.toNat else c.part ≠ 0) ∨
      c.offset.toNat % 4096 ≠ 0 ∨ c.offset.toNat < h.hdrLen.toNat ∨ (s.on LNK_CFG_ROLE ∧ s.sys.copyLen < last) ∨
      (k = ckMcode ∧ 512 * 1024 < c.length.toNat) ∨ (k = ckDevcfg ∧ 1024 * 1024 < c.length.toNat) ∨
      (k = ckData ∧ c.dest.toNat % 64 ≠ 0) ∨ (h.comps.take i).any (fun d => d.id == c.id) then some 3
  else if k = ckMcode ∧ c.mcifMaj ≠ 3 then some 5
  else if k = ckPlan ∧ ¬ (h.comps.head?.any fun m => m.mcifMaj == c.mcifMaj && decide (c.mcifMin.toNat ≤ m.mcifMin.toNat)) then some 5
  else none

/-- The first check of R535 that makes a copy unusable by its header: component (0xFFFF the header itself) and reason. -/
def State.headerBad (s : State) (h : ImgHeader) : Option (Nat × Nat) :=
  let len := h.hdrLen.toNat
  let n := h.ncomp.toNat
  if h.magic ≠ 0x4947434F ∨ len % 4096 ≠ 0 ∨ len < 4096 ∨ 65536 < len ∨ n < 1 ∨ 254 < n ∨ len < 0x400 + 128 * n ∨
      64 < h.nearly.toNat ∨ h.flags.toNat / 16 ≠ 0 ∨ 63 < h.svn.toNat ∨ ¬ h.zero ∨ h.comps.length ≠ n ∨ h.early.length ≠ h.nearly.toNat then
    some (0xFFFF, 3)
  else if ¬ h.sigOk ∨ s.sys.key.any (fun k => k != h.keyDigest) then some (0xFFFF, 2)
  else if h.svn.toNat < s.rd SYS_SVN_FUSE then some (0xFFFF, 7)
  else if h.fmt.toNat < 0x0300 ∨ 0x0302 < h.fmt.toNat ∨ ¬ h.ordered then some (0xFFFF, 3)
  else h.comps.zipIdx.findSome? fun p => if p.1.marked then (s.compBad h p.2 p.1).map fun r => (p.1.id.toNat, r) else none

/-! ### Fallback (R550) -/

/-- A failure goes into SYS_BOOT_FAIL. -/
def State.bootFail (s : State) (id reason : Nat) : State :=
  let first := s.rd SYS_BOOT_FAIL_REASON0 = 0 ∧ s.rd SYS_BOOT_FAIL_REASON1 = 0
  let s1 := if first then s.wr SYS_BOOT_FAIL_ID id else s
  s1.wr (if s.sys.copy = 0 then SYS_BOOT_FAIL_REASON0 else SYS_BOOT_FAIL_REASON1) reason

/-- The copy in use is abandoned: copy 1 follows copy 0, the minimal state copy 1. -/
def State.copyFail (s : State) (id reason : Nat) : State :=
  let s1 := s.bootFail id reason
  if s.sys.copy = 0 then
    let s2 := (((s1.clearAll).mSys fun y => { y with copy := 1, header := none }).wr SYS_BOOT_STATUS_COPY 1).setStage 4
    s2.log 0x02 [s2.word SYS_BOOT_FAIL_ID.off]
  else s1.enterMinimal reason

/-- A header is taken: identity, version, and its way to the workers (R532, R537, R458). -/
def State.takeHeader (s : State) (h : ImgHeader) : State :=
  let s1 := (((s.milestone 1).wr SYS_SVN_IMG h.svn.toNat).wr SYS_IMAGE_ID_ID h.imageId.toNat).mSys fun y =>
    { y with header := some h, comp := 0 }
  let s2 := if s.sys.key.isNone then s1.wr SYS_BOOT_STATUS_UNKEYED 1 else s1
  if s.on LNK_CFG_ROLE then s2.emit (.image none none s.sys.copy) else s2

/-- HEADER_CHECK (R535, R537 step 4): a manager reads the header of the copy in use. -/
def execHeaderCheck (h : ImgHeader) (s : State) : Out :=
  if s.sys.stage ≠ 4 ∨ ¬ s.on LNK_CFG_ROLE then .next s
  else if ¬ s.sys.flash then .next (s.copyFail 0xFFFF 1)
  else match s.headerBad h with
  | some (id, r) => .next (s.copyFail id r)
  | none =>
    let s1 := s.takeHeader h
    .next (if bit s.pwr.en 2 && bit s.pwr.en 3 && bit s.pwr.pg 2 && bit s.pwr.pg 3 then s1.setStage 6 else (s1.setStage 5).supplies)

/-! ### Writes of the image (R537 step 6, R546) -/

/-- Registers that keep their values, so that entries which address them are skipped (R554). -/
def State.skipped (s : State) (off : Nat) : Bool :=
  s.sys.lockEver && (!s.sys.woke || off >>> 20 == 1 || off >>> 20 == 2) &&
    !(decide (0x601000 ≤ off ∧ off < 0x602000) && off % 0x100 == 0) &&
    match regAt off with
    | some (r, _, _) => r.keep
    | none => false

/-- Apply one entry: did it take effect. -/
def State.applyEntry (s : State) (off v : Nat) : Bool × State :=
  if s.skipped off then (true, s)
  else match regAt off with
  | none => (false, s)
  | some (r, _, k) =>
    let here := r.fields.filter fun f => (f.part k).isSome
    if s.reach .image off 4 true ≠ .ok ∨ here.all (fun f => f.acc == .ro) then (false, s)
    else
      let t := s.writeReg .image off v
      let back := t.liveWord .image off
      let same := here.all fun f => !f.acc.writable || match f.part k with
        | some (hi, lo, _) => bits back hi lo == bits v hi lo
        | none => true
      let p := (off - 0x601000) / 0x100
      let excl := decide (0x601000 ≤ off ∧ off < 0x602000) && off % 0x100 == 0 && s.ownsExcluded p
      (same || excl, t)

/-- Apply entries in order, up to the first that fails. -/
def State.applyAll (s : State) : List (Nat × Word) → Bool × State
  | [] => (true, s)
  | (off, v) :: t =>
    match s.applyEntry off v.toNat with
    | (true, a) => a.applyAll t
    | (false, a) => (false, a)

/-! ### Components (R535, R545 to R551) -/

/-- Essential under the DEVCFG in use (R534). -/
def State.essential (s : State) (c : ImgComp) : Bool :=
  c.marked || (s.on (PART_CFG_EN c.part.toNat) && s.classOf c.part.toNat == 0)

/-- Components of this chip still to come. -/
def State.toCome (s : State) : List ImgComp :=
  match s.sys.header with
  | some h => (h.comps.drop s.sys.comp).filter fun c => c.forChip s.ownChip
  | none => []

/-- Step 11 follows once no essential component is to come. -/
def State.toRelease (s : State) : State := if s.sys.stage = 10 ∧ ¬ s.toCome.any s.essential then s.setStage 11 else s

/-- The boot lock is set (R547). -/
def State.setLock (s : State) : State :=
  ((s.wr SYS_LOCK_LOCK 1).mSys fun y => { y with lockEver := true, woke := false }).milestone 4

/-- An essential component after an optional one, under the DEVCFG just applied (R534). -/
def State.misplaced (s : State) : List ImgComp → Option ImgComp
  | [] => none
  | c :: t => if s.essential c then s.misplaced t else t.find? s.essential

/-- What a component does: the reason it fails for, if it does. -/
def State.applyComp (s : State) (h : ImgHeader) (i : Nat) (c : ImgComp) (digest : BitVec 384) (body : CompBody) : Option Nat × State :=
  match s.compBad h i c with
  | some r => (some r, s)
  | none =>
    if digest ≠ c.digest then (some 6, s)
    else match body with
    | .mcode =>
      let m := c.mcifMaj.toNat * 256 + c.mcifMin.toNat
      (none, (s.mSys fun y => { y with mcif := m }).wr SYS_BOOT_STATUS_MCIF (c.mcifMaj.toNat % 256 * 16 + c.mcifMin.toNat % 16))
    | .devcfg es =>
      match s.applyAll es with
      | (false, a) => (some 10, a)
      | (true, a) => match a.misplaced (h.comps.drop 2) with
        | some _ => (some 3, a)
        | none => (none, a.setLock)
    | .plan b =>
      let p := c.part.toNat
      if s.rd (PART_STATUS_STATE p) ≠ stEmpty then (some 11, s)
      else match s.loadCheck p b with
      | some e => (some 11, (s.wr (PART_STATUS_LOADREF p) e).wr PART_EVENT_LOADREF 1)
      | none =>
        let t := s.mPart fun y => { y with imagePlan := mset (fun _ => none) y.imagePlan p (some b) }
        if s.sys.stage = 12 then (none, t.loadPlan p b)
        else (none, (t.wr (PART_STATUS_STATE p) stLoading).mSys fun y => { y with hold := y.hold ++ [(p, b)] })
    | .data bytes =>
      let a := c.dest.toNat
      let placed : Bool := match s.decode a with
        | .tun _ => true
        | .lpddr .. => true
        | _ => false
      if bytes.isEmpty then (none, s)
      else if placed ∧ s.checkRun c.part.toNat true a bytes.length = .ok then
        (none, s.blkWrite a (bytes.map fun b => (b, false)))
      else (some 10, s)

/-- The component can be taken now: its body is of its kind and DATA's LPDDR region is filled (R548). -/
def State.compReady (s : State) (c : ImgComp) (body : CompBody) : Bool :=
  match body with
  | .mcode => c.kind.toNat == ckMcode
  | .devcfg _ => c.kind.toNat == ckDevcfg
  | .plan _ => c.kind.toNat == ckPlan || decide (3 < c.kind.toNat)
  | .data bytes => c.kind.toNat == ckData && s.lpReady c.dest.toNat && s.lpReady (c.dest.toNat + (bytes.length - 1))

/-- The stage that a component of the table belongs to, at the stage under way. -/
def State.takesComp (s : State) (i : Nat) : Bool :=
  match s.sys.stage with
  | 8 => i == 0 && !s.memory.filling
  | 9 => i == 1
  | 10 => decide (2 ≤ i)
  | 12 => decide (2 ≤ i)
  | _ => false

/-- Component i is done with. -/
def State.compDone (s : State) (i : Nat) : State :=
  let s1 := s.mSys fun y => { y with comp := i + 1 }
  match s.sys.stage with
  | 8 => s1.setStage 9
  | 9 => (s1.setStage 10).toRelease
  | _ => s1.toRelease

/-- An optional component fails for good (R551). -/
def State.optFail (s : State) (i : Nat) (c : ImgComp) (reason : Nat) : State :=
  let p := c.part.toNat
  let code := match reason with
    | 5 => refVersion
    | 6 => refDigest
    | r => (Config.optRefusal r).toNat
  let s1 := if c.kind.toNat = ckPlan ∧ reason = 11 then s else (s.wr (PART_STATUS_LOADREF p) code).wr PART_EVENT_LOADREF 1
  ((s1.wr SYS_BOOT_STATUS_OPT_FAIL 1).mSys fun y => { y with optBad := y.optBad ++ [p] }).compDone i

/-- The component with the same ID in copy 1 (R551). -/
def State.otherCopy (s : State) (h : ImgHeader) (c : ImgComp) (alt : Option (ImgHeader × BitVec 384 × CompBody)) : Option State :=
  match alt with
  | none => none
  | some (h1, digest, body) =>
    if s.sys.copy ≠ 0 ∨ (s.headerBad h1).isSome ∨ (h1.comps[1]?.map (·.digest)) ≠ (h.comps[1]?.map (·.digest)) then none
    else match h1.comps.zipIdx.find? fun x => x.1.id == c.id with
    | none => none
    | some (d, j) =>
      if ¬ s.compReady d body ∨ d.part ≠ c.part then none
      else match s.applyComp h1 j d digest body with
      | (none, t) => some t
      | (some _, _) => none

/-- COMPONENT_READ (R535, R537 steps 8 to 12, R545 to R551): a manager reads the next component of the copy in use; `alt` is what copy
1 holds under the same ID, with its header, where the device can read one. -/
def execComponentRead (digest : BitVec 384) (body : CompBody) (alt : Option (ImgHeader × BitVec 384 × CompBody)) (s : State) : Out :=
  let i := s.sys.comp
  match s.sys.header with
  | none => .next s
  | some h => match h.comps[i]? with
    | none => .next s
    | some c =>
      if ¬ s.on LNK_CFG_ROLE ∨ ¬ s.takesComp i ∨ ¬ s.compReady c body then .next s
      else
        let s1 := s.emit (.image none (some i) s.sys.copy)
        if ¬ c.forChip s.ownChip ∨ (2 ≤ c.kind.toNat ∧ s.sys.optBad.contains c.part.toNat ∧ ¬ s.essential c) then .next (s1.compDone i)
        else match s1.applyComp h i c digest body with
        | (none, t) => .next (if t.sys.hwBist then t.enterMinimal 8 else t.compDone i)
        | (some r, t) =>
          if t.sys.hwBist then .next (t.enterMinimal 8)
          else if s.essential c ∨ i < 2 then .next (t.copyFail c.id.toNat r)
          else match s1.otherCopy h c alt with
          | some u => .next ((u.wr SYS_BOOT_STATUS_OPT_FALLBACK 1).compDone i)
          | none => .next (t.optFail i c r)

/-- MCODE_CRC_REPORT (R545): a core reports its CRC; a second failure retires its position. -/
def execMcodeCrcReport (c : Fin 256) (ok : Bool) (s : State) : Out :=
  if s.sys.mcif = 0 ∨ 11 < s.sys.stage ∨ s.nCores ≤ c.val then .next s
  else
    let once := mget (fun _ => false) s.sys.mcodeBad c
    let s1 := s.mSys fun y => { y with mcodeBad := mset (fun _ => false) y.mcodeBad c (!ok && !once) }
    .next (if ok ∨ ¬ once then s1 else s1.retirePos (s.placeOf c))

/-- CLASS_S_RELEASE (R549): the class-S partitions together, then what else waits in component-table order. -/
def execClassSRelease (s : State) : Out :=
  if s.sys.stage ≠ 11 then .next s
  else
    let first := s.sys.hold.filter fun x => s.classOf x.1 == 0
    let rest := s.sys.hold.filter fun x => s.classOf x.1 != 0
    let s1 := (first ++ rest).foldl (fun a x => a.loadPlan x.1 x.2) s
    .next (((s1.mSys fun y => { y with hold := [] }).milestone 5).setStage 12)

/-! ### The steps that wait for no other event (R537) -/

/-- Step 6 ends: training is launched, the EARLY writes of a header are applied. -/
def State.plls (s : State) : State :=
  let s1 := s.mSys fun y => { y with launched := true }
  match s.sys.header with
  | none => if s.sys.minimal then (if s.sys.tested && !s.memory.filling then s1.minimalDone else s1.setStage 7) else s1.setStage 4
  | some h =>
    match s1.applyAll h.early with
    | (true, a) => (a.mSys fun y => { y with early := y.early || !h.early.isEmpty }).toTest
    | (false, a) => (a.mSys fun y => { y with early := true }).copyFail 0xFFFF 10

/-- STARTUP (R529, R530, R537, R540 to R544, R556, R557). -/
def execStartup (step : StartStep) (s : State) : Out :=
  match step with
  | .ao => .next (if s.sys.stage = 1 ∧ s.pwr.failAt.isNone ∧ s.pwr.tries ≤ 3 then (s.enable 2).setStage 2 else s)
  | .flash d =>
    if s.sys.stage ≠ 3 then .next s
    else
      let s1 := s.mSys fun y => { y with flash := d.isSome, copyLen := match d with
        | some k => (128 * 2 ^ k.val - 16) * 2 ^ 20
        | none => 0 }
      let s2 := if d.isSome ∧ s.sys.faultCount ≠ 0 then s1.wr SYS_LOG_SEQ_SEQ (seqOf (s.sys.faultCount - 1)) else s1
      if s.on LNK_CFG_ROLE then
        .next (if d.isSome then s2.setStage 4 else s2.enterMinimal 1)
      else .next (((s2.wr SYS_BOOT_STATUS_NOFLASH (b2n d.isNone)).setStage 5).supplies)
  | .plls => .next (if s.sys.stage = 6 then s.plls else s)
  | .selfTest r => .next (if s.sys.stage = 7 ∧ ¬ s.sys.tested then s.selfTested r else s)
  | .done =>
    if s.sys.stage ≠ 12 ∨ ¬ s.toCome.isEmpty then .next s
    else
      let s1 := (s.setStage 13).milestone 6
      let us := (List.range 7).map fun m => s1.rd (SYS_BOOT_TIME_COUNT m) / 1000
      let s2 := s1.log 0x01 ([s1.rd SYS_IMAGE_ID_ID, s.sys.copy, s1.rd SYS_BOOT_STATUS_REASON] ++ us)
      .next (if s.sys.header.any fun h => bit h.flags.toNat 3 then s2.log 0x8F [] else s2)

/-! ### Training (R544) -/

/-- LPDDR_TRAINING_DONE (R182, R543, R544). -/
def execLpddrTrainingDone (ch : Fin 16) (ok : Bool) (s : State) : Out :=
  if ¬ s.sys.launched ∨ bit s.memory.lpTrained ch ∨ s.memory.excluded.contains (512 + ch) then .next s
  else if ok then
    .next ((s.wr SYS_TRAIN_STAT_LP_OK (s.rd SYS_TRAIN_STAT_LP_OK ||| 2 ^ ch.val)).mMem fun x => { x with lpTrained := x.lpTrained ||| 2 ^ ch.val })
  else
    .next ((((s.wr SYS_TRAIN_STAT_LP_FAIL (s.rd SYS_TRAIN_STAT_LP_FAIL ||| 2 ^ ch.val)).mMem fun x =>
      { x with excluded := x.excluded ++ [512 + ch.val] }).wr SYS_BOOT_STATUS_EXCL 1).log 0x85 [0, ch])

/-- CSI_PORT_LOCK (R544): an enabled CSI-2 port's PHY trains, or loses lock. -/
def execCsiPortLock (p : Fin 16) (lock : Bool) (s : State) : Out :=
  .next (if lock ∧ ¬ (s.sys.launched ∧ s.on (ING_PORT_CFG_EN p)) then s else s.wr (ING_PORT_STAT_LOCK p) (b2n lock))

/-! ### The image over the ring (R458, R540) -/

/-- A worker refuses a header or component: it answers with a NAK (R458). -/
def State.imageRefuse (s : State) (comp : Option Nat) (id reason : Nat) : State :=
  let first := s.rd SYS_BOOT_FAIL_REASON0 = 0
  let s1 := if first then (s.wr SYS_BOOT_FAIL_ID id).wr SYS_BOOT_FAIL_REASON0 reason else s.wr SYS_BOOT_FAIL_REASON1 reason
  s1.emit (.imageNak comp)

/-- The reason of the last refusal. -/
def State.lastFail (s : State) : Nat :=
  if s.rd SYS_BOOT_FAIL_REASON1 ≠ 0 then s.rd SYS_BOOT_FAIL_REASON1 else s.rd SYS_BOOT_FAIL_REASON0

/-- A header reaches a worker that waits for one. -/
def State.workerHeader (s : State) (h : ImgHeader) : State :=
  match s.headerBad h with
  | some (id, r) => s.imageRefuse none id r
  | none =>
    let s1 := (((s.takeHeader h).wr SAF_STATE_MINIMAL 0).wr SYS_BOOT_STATUS_REASON 0).wr SYS_BOOT_STATUS_XSPI_REL 0
    match s1.applyAll h.early with
    | (true, a) => (a.mSys fun y => { y with early := y.early || !h.early.isEmpty, minimal := false }).toTest
    | (false, a) => (a.imageRefuse none 0xFFFF 10).mSys fun y => { y with header := none }

/-- A component reaches a worker. -/
def State.workerComp (s : State) (h : ImgHeader) (i : Nat) (c : ImgComp) (digest : BitVec 384) (body : CompBody) : State :=
  match s.applyComp h i c digest body with
  | (none, t) => if t.sys.hwBist then t.enterMinimal 8 else t.compDone i
  | (some r, t) => if t.sys.hwBist then t.enterMinimal 8 else t.imageRefuse (some i) c.id.toNat r

/-- IMAGE_FRAME (R458, R540, R553): an image frame reaches a member worker, which copies, checks and forwards it. -/
def execImageFrame (f : ImageFrame) (s : State) : Out :=
  if s.on LNK_CFG_ROLE ∨ s.rd LNK_STATE_STATE ≠ rsMember then .next s
  else match f with
  | .header h =>
    let s1 := s.emit (.imageFrame f)
    .next (if s.sys.stage = 4 ∨ s.sys.stage = 14 then s1.workerHeader h else s1)
  | .comp i digest body =>
    match s.sys.header with
    | none => .next (s.emit (.imageFrame f))
    | some h => match h.comps[i]? with
      | none => .next s
      | some c =>
        let s1 := s.emit (.imageFrame f)
        if ¬ c.forChip s.ownChip ∨ i < s.sys.comp ∨ s.sys.stage < 7 ∨ 12 < s.sys.stage then .next s1
        else if ¬ s.takesComp i ∨ ¬ s.compReady c body then .next s
        else .next (s1.workerComp h i c digest body)
  | .none =>
    if s.sys.stage = 4 then .next (s.enterMinimal s.lastFail)
    else match s.sys.header with
    | none => .next s
    | some h => match (h.comps.zipIdx.drop s.sys.comp).find? fun x => x.1.forChip s.ownChip with
      | none => .next s
      | some (c, i) =>
        if ¬ s.takesComp i then .next s
        else .next (if s.essential c ∨ i < 2 then s.enterMinimal s.lastFail else s.optFail i c s.lastFail)

/-- IMAGE_NAK (R458): a worker's NAK reaches the manager: at most three resends, then the second copy, then none is left. -/
def execImageNak (chip : Fin 8) (comp : Option (Fin 254)) (s : State) : Out :=
  if ¬ s.on LNK_CFG_ROLE then .next s
  else
    let k : Option Nat := comp.map (·.val)
    let key := chip.val * 2 ^ 16 + (match k with
      | some i => i + 1
      | none => 0)
    let n := mget (fun _ => 0) s.sys.naks key
    let s1 := s.mSys fun y => { y with naks := mset (fun _ => 0) y.naks key (n + 1) }
    .next (s1.emit (if n < 3 then .image (some chip) k s.sys.copy
      else if n = 3 ∧ s.sys.copy = 0 then .image (some chip) k 1 else .imageEnd chip))

/-- WORKER_RING_TIMEOUT (R540): 10 s in the ring without a valid header. -/
def execWorkerRingTimeout (s : State) : Out :=
  .next (if ¬ s.on LNK_CFG_ROLE ∧ s.sys.stage = 4 ∧ rsForward ≤ s.rd LNK_STATE_STATE ∧ s.sys.header.isNone then s.enterMinimal 12 else s)

/-! ### Compute reset (R553 to R555) -/

/-- A compute reset: `last` 1 by SYSRST_n, 2 by the register. -/
def State.computeReset (s : State) (last : Nat) : State :=
  let lock := s.on SYS_LOCK_LOCK
  let minimal := s.sys.minimal || s.sys.stage == 14
  let s1 := ((s.cause 13 0 0 0).stopAll).clearAll
  let s2 := (List.range 8).foldl (fun a m => a.wr (SYS_BOOT_TIME_COUNT m) 0) (s1.setWord SYS_BOOT_FAIL_ID.off 0)
  let s3 := (((s2.wr SYS_BOOT_STATUS_REASON 0).wr SYS_BOOT_STATUS_MCIF 0).wr SYS_BOOT_STATUS_XSPI_REL 0).wr SAF_STATE_MINIMAL 0
  let s4 := (s3.bump SYS_RST_STAT_COUNT).wr SYS_RST_STAT_LAST last
  let s5 := s4.log 0x04 [s4.word SYS_RST_STAT_COUNT.off]
  if minimal then ((s5.mSys fun y => { y with copy := 0, header := none, minimal := false }).wr SYS_BOOT_STATUS_COPY 0).setStage
    (if s.sys.launched then 4 else 3)
  else if lock ∧ s.sys.header.isSome then s5.setStage 8
  else if s.sys.stage < 4 ∨ (¬ s.sys.launched ∧ ¬ s.on LNK_CFG_ROLE) then s5.setStage s.sys.stage
  else (s5.mSys fun y => { y with header := none }).setStage 4

/-- COMPUTE_RESET (R554, R555): SYSRST_n accepted low, or a keyed write of SYS_RST_CTL. -/
def execComputeReset (how : Option (Requester × BitVec 32)) (s : State) : Out :=
  if 2 ≤ s.pwr.cellar then .next s
  else match how with
  | none => .next (s.computeReset 1)
  | some (req, value) =>
    let v := value.toNat
    .next (s.asWriter req SYS_RST_CTL_KEY.off 4 fun a => if bits v 31 16 = 0x5E5E ∧ bit v 0 then a.computeReset 2 else a)

/-! ### The boot lock and the fuses (R547, R559, R560) -/

/-- SYS_LOCK_WRITE (R547). -/
def execSysLockWrite (req : Requester) (value : BitVec 32) (s : State) : Out :=
  .next (s.asWriter req SYS_LOCK_LOCK.off 4 fun a => a.writeReg req SYS_LOCK_LOCK.off value.toNat)

/-- FUSE_PROGRAMMING (R532, R559, R560): after DONE, and not during a sag. -/
def execFuseProgramming (s : State) : Out :=
  match s.sys.header with
  | none => .next s
  | some h =>
    if s.sys.stage ≠ 13 ∨ s.on PWR_SAG_HOLD then .next s
    else
      let s1 := if bit h.flags.toNat 1 ∧ s.rd SYS_SVN_FUSE < h.svn.toNat then
          (s.wr SYS_SVN_FUSE h.svn.toNat).log 0x07 [h.svn.toNat] else s
      .next (if bit h.flags.toNat 0 ∧ s.sys.key.isNone then
          (s1.mSys fun y => { y with key := some h.keyDigest }).log 0x07 [h.keyDigest.toNat] else s1)

end Sys2Proof.Machine
end

