-- ==== Sys2Proof/Machine/Inbound.lean ====
section
/-! DEFINITION. Register writes of every requester (R15 to R20, R47, R423) and the memory requests of a host (R48, R49, R422 to
R427, R441). -/

namespace Sys2Proof.Machine

/-! ### Register writes (R15, R20) -/

/-- A write of a register by a requester: compute reset and the self-test request have effects beyond their blocks. -/
def State.regWrite (s : State) (req : Requester) (off bytes v : Nat) : State :=
  let mine := match req with
    | .host sl => off == SAF_FT_REQ_GO.off && bytes == 4 && (s.slicePart sl).isSome &&
        s.testOwner (bits v 29 28) (bits v 8 0) == s.slicePart sl
    | _ => false
  if mine then s.writeReg req off v
  else s.asWriter req off bytes fun a =>
    if off = SYS_RST_CTL_KEY.off then (if bits v 31 16 = 0x5E5E ∧ bit v 0 ∧ a.pwr.cellar < 2 then a.computeReset 2 else a)
    else a.writeReg req off v

/-- REGISTER_WRITE (R20). -/
def execRegisterWrite (req : Requester) (off bytes : Nat) (value : BitVec 32) (s : State) : Out :=
  .next (s.regWrite req off bytes value.toNat)

/-! ### Inbound memory requests (R422 to R427) -/

/-- Where an inbound request goes (R422). -/
inductive SliceTo where
  | slice (c : Fin 64)
  | globalOnly
  | unmatched
  deriving DecidableEq, Repr

/-- The slice of an inbound request: by its PASID, or the port's ADMIN slice (R422). -/
def State.sliceFor (s : State) (r : Inbound) : SliceTo :=
  let here : List (Fin 64) := (List.finRange 64).filter fun c => s.on (VMS_SL_CFG_EN c.val) && s.rd (VMS_SL_CFG_PORT c.val) == b2n r.port
  match r.pasid with
  | some p => match here.find? fun c => !s.on (VMS_SL_CFG_ADMIN c.val) && s.rd (VMS_SL_CFG_PASID c.val) == p.toNat with
    | some c => .slice c
    | none => .unmatched
  | none => match here.find? fun c => s.on (VMS_SL_CFG_ADMIN c.val) with
    | some c => .slice c
    | none => .globalOnly

/-- Completion codes: 0 successful, 1 Unsupported Request, 2 Completer Abort. -/
def State.answer (s : State) (r : Inbound) (status : Nat) (data : List MByte) : State :=
  if r.read.isSome then s.emit (.completion r.port status data) else s

/-- An Unsupported Request (R47, R422). -/
def State.unsupported (s : State) (r : Inbound) : State := (s.wr VMS_EVENT_UR 1).answer r 1 []

/-- The bytes asked for or written. -/
def Inbound.len (r : Inbound) : Nat := r.read.getD r.data.length

/-- A BAR0 request of a slice (R15, R85, R423, R427). -/
def State.bar0 (s : State) (r : Inbound) (c : Fin 64) : State :=
  if r.read.isSome then
    match s.reach (.host c) r.off r.len false with
    | .ok =>
      let x := s.readWord (.host c) r.off
      (s.readBy (.host c) r.off).answer r 0 (leBytes 4 x.1)
    | .isolation => (s.hostIso c).answer r 2 []
    | .decode => s.unsupported r
    | .ignored _ => s.answer r 2 []
  else if r.ep then (s.wr VMS_EVENT_EP_RX 1).wr VMS_EVENT_UR 1
  else s.regWrite (.host c) r.off r.len (leNum (r.data.map fun b => (b, false)))

/-- A BAR0 request without a slice: global reads only (R422). -/
def State.bar0Global (s : State) (r : Inbound) : State :=
  if r.len ≠ 4 ∨ r.off % 4 ≠ 0 ∨ s.unpopulated r.off then s.unsupported r
  else if r.read.isSome ∧ (globalReads r.off ∨ (regAt r.off).isNone) then s.answer r 0 (leBytes 4 (s.liveWord .image r.off))
  else (s.wr VMS_EVENT_ISO 1).answer r 2 []

/-- The partition that owns a device address (R427). -/
def State.addrOwner (s : State) (a : Nat) : Option Nat :=
  match s.decode a with
  | .tun sl => s.tunOwner (sl >>> 4)
  | .lpddr w _ _ => some (s.rd (MEM_LPW_CFG_OWNER w))
  | _ => none

/-- A BAR2 or BAR4 request of a slice to a device address (R48, R424, R425, R427). -/
def State.barMem (s : State) (r : Inbound) (c : Fin 64) (a : Nat) : State :=
  let p := (s.slicePart c).getD 16
  let n := max r.len 1
  match s.checkRun p r.read.isNone a n with
  | .decode => s.unsupported r
  | .isolation => (s.hostIso c).answer r 2 []
  | .ok =>
    match r.read with
    | some len =>
      let x := s.readKeys 128 (s.runKeys a len)
      let t := x.2.answer r 0 x.1
      if anyPois x.1 then
        match s.addrOwner a with
        | some o => t.partFault o kPoison 264 s.ownChip a
        | none => t
      else t
    | none =>
      let t := s.blkWrite a (r.data.map fun b => (b, r.ep))
      if r.ep then t.wr VMS_EVENT_EP_RX 1 else t

/-- The device address of a BAR2 or BAR4 request (R49). -/
def Inbound.addr (r : Inbound) : Nat :=
  if r.bar.val = 1 then (if r.off < 0x20000000 then 0x100000000 + r.off else 0x40000000)
  else if r.off < 2 ^ 36 then 0x1000000000 + r.off else 0x40000000

/-- INBOUND_REQUEST (R422 to R427, R441): a memory request reaches a port that is up; one to LPDDR or Tun still being filled waits. -/
def execInboundRequest (r : Inbound) (s : State) : Out :=
  let port := b2n r.port
  let a := r.addr
  if ¬ s.on (VMS_PORT_STAT_UP port) then .next s
  else if mget (fun _ => false) s.vms.d3 port then .next (s.answer r 1 [])
  else match s.sliceFor r with
  | .unmatched => .next (s.unsupported r)
  | .globalOnly =>
    if r.bar.val = 0 then .next (s.bar0Global r)
    else if s.decode a = .none then .next (s.unsupported r)
    else .next ((s.wr VMS_EVENT_ISO 1).answer r 2 [])
  | .slice c =>
    if r.bar.val = 0 then .next (s.bar0 r c)
    else if s.memory.filling ∨ ¬ s.lpReady a ∨ ¬ s.lpReady (a + (r.len - 1)) then .next s
    else .next (s.barMem r c a)

end Sys2Proof.Machine
end

