-- ==== Sys2Proof/Machine/Dispatch.lean ====
section
/-! DEFINITION. What each command does: one arm per constructor, each a direct call of its meaning. -/

namespace Sys2Proof.Machine

def exec (i : Instr) (s : State) : Host.Outcome State Fault Refusal :=
  match i with
  | .nop c => Sys2Proof.Machine.execNop c s
  | .endPlan c => Sys2Proof.Machine.execEndPlan c s
  | .phase c => Sys2Proof.Machine.execPhase c s
  | .agload c => Sys2Proof.Machine.execAgload c s
  | .loopOpen c => Sys2Proof.Machine.execLoopOpen c s
  | .loopNext c => Sys2Proof.Machine.execLoopNext c s
  | .agadv c => Sys2Proof.Machine.execAgadv c s
  | .barrier c => Sys2Proof.Machine.execBarrier c s
  | .barrierArrival part bid src => Sys2Proof.Machine.execBarrierArrival part bid src s
  | .barrierRelease c bid => Sys2Proof.Machine.execBarrierRelease c bid s
  | .report c => Sys2Proof.Machine.execReport c s
  | .waitcnt c => Sys2Proof.Machine.execWaitcnt c s
  | .waittime c => Sys2Proof.Machine.execWaittime c s
  | .waittag c => Sys2Proof.Machine.execWaittag c s
  | .waitSatisfied c => Sys2Proof.Machine.execWaitSatisfied c s
  | .issueStallClear c => Sys2Proof.Machine.execIssueStallClear c s
  | .credit c => Sys2Proof.Machine.execCredit c s
  | .creditGrantArrival dst src => Sys2Proof.Machine.execCreditGrantArrival dst src s
  | .mmul c => Sys2Proof.Machine.execMmul c s
  | .mdrain c => Sys2Proof.Machine.execMdrain c s
  | .attend c => Sys2Proof.Machine.execAttend c s
  | .append c => Sys2Proof.Machine.execAppend c s
  | .appendAttend c => Sys2Proof.Machine.execAppendAttend c s
  | .fork c => Sys2Proof.Machine.execFork c s
  | .releasePages c => Sys2Proof.Machine.execReleasePages c s
  | .movePages c => Sys2Proof.Machine.execMovePages c s
  | .pageClaim slice group => Sys2Proof.Machine.execPageClaim slice group s
  | .pageCopyDone slice => Sys2Proof.Machine.execPageCopyDone slice s
  | .vload c => Sys2Proof.Machine.execVload c s
  | .vstore c => Sys2Proof.Machine.execVstore c s
  | .vbin c => Sys2Proof.Machine.execVbin c s
  | .vfma c => Sys2Proof.Machine.execVfma c s
  | .vcmp c => Sys2Proof.Machine.execVcmp c s
  | .vsel c => Sys2Proof.Machine.execVsel c s
  | .vsfu c => Sys2Proof.Machine.execVsfu c s
  | .vcvt c => Sys2Proof.Machine.execVcvt c s
  | .vred c => Sys2Proof.Machine.execVred c s
  | .vacc c => Sys2Proof.Machine.execVacc c s
  | .vimm c => Sys2Proof.Machine.execVimm c s
  | .vperm c => Sys2Proof.Machine.execVperm c s
  | .lcopy c => Sys2Proof.Machine.execLcopy c s
  | .rwrite c => Sys2Proof.Machine.execRwrite c s
  | .tunrd c => Sys2Proof.Machine.execTunrd c s
  | .tunwr c => Sys2Proof.Machine.execTunwr c s
  | .tatom c => Sys2Proof.Machine.execTatom c s
  | .dramrd c => Sys2Proof.Machine.execDramrd c s
  | .dramwr c => Sys2Proof.Machine.execDramwr c s
  | .rsignal c => Sys2Proof.Machine.execRsignal c s
  | .croprs c => Sys2Proof.Machine.execCroprs c s
  | .boxdec c => Sys2Proof.Machine.execBoxdec c s
  | .nms c => Sys2Proof.Machine.execNms c s
  | .remoteWriteArrival dst src crcOk => Sys2Proof.Machine.execRemoteWriteArrival dst src crcOk s
  | .signalArrival dst src => Sys2Proof.Machine.execSignalArrival dst src s
  | .notificationArrival dst src => Sys2Proof.Machine.execNotificationArrival dst src s
  | .tunRequest slice src crcOk => Sys2Proof.Machine.execTunRequest slice src crcOk s
  | .lpddrRequest ctl n crcOk => Sys2Proof.Machine.execLpddrRequest ctl n crcOk s
  | .readDataArrival c src crcOk => Sys2Proof.Machine.execReadDataArrival c src crcOk s
  | .writeAckArrival c src => Sys2Proof.Machine.execWriteAckArrival c src s
  | .tagComplete c tag => Sys2Proof.Machine.execTagComplete c tag s
  | .errorResponse c src => Sys2Proof.Machine.execErrorResponse c src s
  | .guardWatchdog c => Sys2Proof.Machine.execGuardWatchdog c s
  | .flitParityFail x y dir sends => Sys2Proof.Machine.execFlitParityFail x y dir sends s
  | .failedLinkDiscard n => Sys2Proof.Machine.execFailedLinkDiscard n s
  | .scrubVisit inst => Sys2Proof.Machine.execScrubVisit inst s
  | .memTsGo req t value => Sys2Proof.Machine.execMemTsGo req t value s
  | .tsGranule t => Sys2Proof.Machine.execTsGranule t s
  | .tsDone t => Sys2Proof.Machine.execTsDone t s
  | .memInjArm req value => Sys2Proof.Machine.execMemInjArm req value s
  | .fillComplete => Sys2Proof.Machine.execFillComplete s
  | .lpddrRegionFilled => Sys2Proof.Machine.execLpddrRegionFilled s
  | .memLpwCfgWrite req w value => Sys2Proof.Machine.execMemLpwCfgWrite req w value s
  | .reg64LowerRead req off => Sys2Proof.Machine.execReg64LowerRead req off s
  | .reg64UpperRead req off => Sys2Proof.Machine.execReg64UpperRead req off s
  | .coreArithCfgWrite req c value => Sys2Proof.Machine.execCoreArithCfgWrite req c value s
  | .registerWrite req off bytes value => Sys2Proof.Machine.execRegisterWrite req off bytes value s
  | .partRptEnable req p value => Sys2Proof.Machine.execPartRptEnable req p value s
  | .load req p plan => Sys2Proof.Machine.execLoad req p plan s
  | .partitionStop p target => Sys2Proof.Machine.execPartitionStop p target s
  | .partCfgEnWrite req p value => Sys2Proof.Machine.execPartCfgEnWrite req p value s
  | .partResetRequest req p value => Sys2Proof.Machine.execPartResetRequest req p value s
  | .partitionReset p => Sys2Proof.Machine.execPartitionReset p s
  | .partResetDrainEnd p => Sys2Proof.Machine.execPartResetDrainEnd p s
  | .lateResponse c src => Sys2Proof.Machine.execLateResponse c src s
  | .partResetDone p => Sys2Proof.Machine.execPartResetDone p s
  | .partDetCfgWrite req p value => Sys2Proof.Machine.execPartDetCfgWrite req p value s
  | .slotBoundary => Sys2Proof.Machine.execSlotBoundary s
  | .csiPacket port k => Sys2Proof.Machine.execCsiPacket port k s
  | .frameStart stream => Sys2Proof.Machine.execFrameStart stream s
  | .frameEnd stream => Sys2Proof.Machine.execFrameEnd stream s
  | .stripeNotify x => Sys2Proof.Machine.execStripeNotify x s
  | .missing stream => Sys2Proof.Machine.execMissing stream s
  | .ingStrCfgWrite req stream value => Sys2Proof.Machine.execIngStrCfgWrite req stream value s
  | .camsyncPulse n => Sys2Proof.Machine.execCamsyncPulse n s
  | .camsyncPulseEnd n => Sys2Proof.Machine.execCamsyncPulseEnd n s
  | .camsyncEnable req n value => Sys2Proof.Machine.execCamsyncEnable req n value s
  | .preCtxEnable req x value => Sys2Proof.Machine.execPreCtxEnable req x value s
  | .preCtxDisable req x value => Sys2Proof.Machine.execPreCtxDisable req x value s
  | .queueDisable req k value => Sys2Proof.Machine.execQueueDisable req k value s
  | .pidxWrite req off value => Sys2Proof.Machine.execPidxWrite req off value s
  | .pwordPoll base => Sys2Proof.Machine.execPwordPoll base s
  | .openStream q => Sys2Proof.Machine.execOpenStream q s
  | .decode q => Sys2Proof.Machine.execDecode q s
  | .fetchFrame q => Sys2Proof.Machine.execFetchFrame q s
  | .closeStream q => Sys2Proof.Machine.execCloseStream q s
  | .decOutputResume stream => Sys2Proof.Machine.execDecOutputResume stream s
  | .sampleJob q => Sys2Proof.Machine.execSampleJob q s
  | .flushJob q => Sys2Proof.Machine.execFlushJob q s
  | .frameJob q => Sys2Proof.Machine.execFrameJob q s
  | .bucketTimeout q bucket => Sys2Proof.Machine.execBucketTimeout q bucket s
  | .batchRecordEmit q => Sys2Proof.Machine.execBatchRecordEmit q s
  | .preBufferResume q => Sys2Proof.Machine.execPreBufferResume q s
  | .chol => Sys2Proof.Machine.execChol s
  | .ldlt => Sys2Proof.Machine.execLdlt s
  | .lu => Sys2Proof.Machine.execLu s
  | .trsv => Sys2Proof.Machine.execTrsv s
  | .pcg => Sys2Proof.Machine.execPcg s
  | .minres => Sys2Proof.Machine.execMinres s
  | .solSchedule => Sys2Proof.Machine.execSolSchedule s
  | .solSuspend => Sys2Proof.Machine.execSolSuspend s
  | .solCheckPoint => Sys2Proof.Machine.execSolCheckPoint s
  | .solCommit => Sys2Proof.Machine.execSolCommit s
  | .cycleTimerTrigger k => Sys2Proof.Machine.execCycleTimerTrigger k s
  | .channelTrigger h => Sys2Proof.Machine.execChannelTrigger h s
  | .lawUpdateStart u => Sys2Proof.Machine.execLawUpdateStart u s
  | .lawUpdateDone h differ => Sys2Proof.Machine.execLawUpdateDone h differ s
  | .trajRefresh h => Sys2Proof.Machine.execTrajRefresh h s
  | .commit req h value => Sys2Proof.Machine.execCommit req h value s
  | .start req h value => Sys2Proof.Machine.execStart req h value s
  | .stop req h value => Sys2Proof.Machine.execStop req h value s
  | .clear req h value => Sys2Proof.Machine.execClear req h value s
  | .ctlCfgWrite req off value => Sys2Proof.Machine.execCtlCfgWrite req off value s
  | .qeiCount n a b => Sys2Proof.Machine.execQeiCount n a b s
  | .qeiIndex n rising => Sys2Proof.Machine.execQeiIndex n rising s
  | .qeiVelocityWindow n => Sys2Proof.Machine.execQeiVelocityWindow n s
  | .qeiStall n => Sys2Proof.Machine.execQeiStall n s
  | .sdmFrame n samples => Sys2Proof.Machine.execSdmFrame n samples s
  | .sdmClkLost n => Sys2Proof.Machine.execSdmClkLost n s
  | .sdmComparatorTrip n ones => Sys2Proof.Machine.execSdmComparatorTrip n ones s
  | .pcapEdge n rising => Sys2Proof.Machine.execPcapEdge n rising s
  | .noedge n => Sys2Proof.Machine.execNoedge n s
  | .encRead n dat => Sys2Proof.Machine.execEncRead n dat s
  | .encReadDone n pos status par back => Sys2Proof.Machine.execEncReadDone n pos status par back s
  | .pwmCompareLoad p top => Sys2Proof.Machine.execPwmCompareLoad p top s
  | .injEnable req g value => Sys2Proof.Machine.execInjEnable req g value s
  | .captureGo req c value => Sys2Proof.Machine.execCaptureGo req c value s
  | .captureDone c => Sys2Proof.Machine.execCaptureDone c s
  | .timTsCommitWrite req n value => Sys2Proof.Machine.execTimTsCommitWrite req n value s
  | .timescaleCommit n => Sys2Proof.Machine.execTimescaleCommit n s
  | .servoPair => Sys2Proof.Machine.execServoPair s
  | .ppsInEdge rising => Sys2Proof.Machine.execPpsInEdge rising s
  | .ppsOutPulse => Sys2Proof.Machine.execPpsOutPulse s
  | .ppsOutPulseEnd => Sys2Proof.Machine.execPpsOutPulseEnd s
  | .timSnap req value => Sys2Proof.Machine.execTimSnap req value s
  | .alarm => Sys2Proof.Machine.execAlarm s
  | .clkTimeStart => Sys2Proof.Machine.execClkTimeStart s
  | .evtRingEnable req off value => Sys2Proof.Machine.execEvtRingEnable req off value s
  | .tripInAssert k => Sys2Proof.Machine.execTripInAssert k s
  | .safReport src => Sys2Proof.Machine.execSafReport src s
  | .safVerdict k => Sys2Proof.Machine.execSafVerdict k s
  | .comparatorTimeout k => Sys2Proof.Machine.execComparatorTimeout k s
  | .builtinPairCheck k right => Sys2Proof.Machine.execBuiltinPairCheck k right s
  | .epochStart => Sys2Proof.Machine.execEpochStart s
  | .gravityRun c => Sys2Proof.Machine.execGravityRun c s
  | .gravityResult c => Sys2Proof.Machine.execGravityResult c s
  | .ftStep q => Sys2Proof.Machine.execFtStep q s
  | .ftHandover q => Sys2Proof.Machine.execFtHandover q s
  | .ftHandoverAbandon q => Sys2Proof.Machine.execFtHandoverAbandon q s
  | .ftBistDone q pass => Sys2Proof.Machine.execFtBistDone q pass s
  | .safFtReq req value pass => Sys2Proof.Machine.execSafFtReq req value pass s
  | .selftestDeferredRun pass => Sys2Proof.Machine.execSelftestDeferredRun pass s
  | .frameFlag => Sys2Proof.Machine.execFrameFlag s
  | .sweepDone => Sys2Proof.Machine.execSweepDone s
  | .pinmon b => Sys2Proof.Machine.execPinmon b s
  | .arm req value => Sys2Proof.Machine.execArm req value s
  | .enter req value => Sys2Proof.Machine.execEnter req value s
  | .heartbeatSend => Sys2Proof.Machine.execHeartbeatSend s
  | .heartbeatReceive chip beat bypassed => Sys2Proof.Machine.execHeartbeatReceive chip beat bypassed s
  | .demote chip => Sys2Proof.Machine.execDemote chip s
  | .promote chip => Sys2Proof.Machine.execPromote chip s
  | .selfDemotion => Sys2Proof.Machine.execSelfDemotion s
  | .ftLate c => Sys2Proof.Machine.execFtLate c s
  | .inboundRequest r => Sys2Proof.Machine.execInboundRequest r s
  | .doorbell req c value => Sys2Proof.Machine.execDoorbell req c value s
  | .apidxWrite req c value => Sys2Proof.Machine.execApidxWrite req c value s
  | .adminLoad sl tag plan => Sys2Proof.Machine.execAdminLoad sl tag plan s
  | .adminReset sl tag => Sys2Proof.Machine.execAdminReset sl tag s
  | .freeze sl tag => Sys2Proof.Machine.execFreeze sl tag s
  | .freezeDrained => Sys2Proof.Machine.execFreezeDrained s
  | .save sl tag addr len access => Sys2Proof.Machine.execSave sl tag addr len access s
  | .restore sl tag rec => Sys2Proof.Machine.execRestore sl tag rec s
  | .thaw sl tag => Sys2Proof.Machine.execThaw sl tag s
  | .status sl tag => Sys2Proof.Machine.execStatus sl tag s
  | .adminUnknown sl tag => Sys2Proof.Machine.execAdminUnknown sl tag s
  | .outboundTimeout c => Sys2Proof.Machine.execOutboundTimeout c s
  | .outboundCompletion c cpl => Sys2Proof.Machine.execOutboundCompletion c cpl s
  | .hotReset port => Sys2Proof.Machine.execHotReset port s
  | .flr port => Sys2Proof.Machine.execFlr port s
  | .d3hot port => Sys2Proof.Machine.execD3hot port s
  | .d0Entry port => Sys2Proof.Machine.execD0Entry port s
  | .vmsSlCfgWrite req c value => Sys2Proof.Machine.execVmsSlCfgWrite req c value s
  | .vmsQvecEnable req k value => Sys2Proof.Machine.execVmsQvecEnable req k value s
  | .pcieLinkUp port speed width => Sys2Proof.Machine.execPcieLinkUp port speed width s
  | .inputEdge pin rising => Sys2Proof.Machine.execInputEdge pin rising s
  | .bypassEntry => Sys2Proof.Machine.execBypassEntry s
  | .training => Sys2Proof.Machine.execTraining s
  | .trainingComplete delayA delayB => Sys2Proof.Machine.execTrainingComplete delayA delayB s
  | .trainFail => Sys2Proof.Machine.execTrainFail s
  | .trainRetry => Sys2Proof.Machine.execTrainRetry s
  | .hello pos chip manager => Sys2Proof.Machine.execHello pos chip manager s
  | .admission chip => Sys2Proof.Machine.execAdmission chip s
  | .mapFrame manager members fwd => Sys2Proof.Machine.execMapFrame manager members fwd s
  | .memberLeave chip => Sys2Proof.Machine.execMemberLeave chip s
  | .rateRetrain pam => Sys2Proof.Machine.execRateRetrain pam s
  | .retrainComplete ok delayA delayB => Sys2Proof.Machine.execRetrainComplete ok delayA delayB s
  | .ringFrame port f crcOk => Sys2Proof.Machine.execRingFrame port f crcOk s
  | .nak port seq => Sys2Proof.Machine.execNak port seq s
  | .ringTimeout c tag => Sys2Proof.Machine.execRingTimeout c tag s
  | .timeFrameSend => Sys2Proof.Machine.execTimeFrameSend s
  | .timeFrame port t corr residence => Sys2Proof.Machine.execTimeFrame port t corr residence s
  | .roceWorkRequest q r => Sys2Proof.Machine.execRoceWorkRequest q r s
  | .roceInbound q r => Sys2Proof.Machine.execRoceInbound q r s
  | .roceImmediateDone q => Sys2Proof.Machine.execRoceImmediateDone q s
  | .roceRetransmit q replies => Sys2Proof.Machine.execRoceRetransmit q replies s
  | .roceCnp q => Sys2Proof.Machine.execRoceCnp q s
  | .canArbitration n => Sys2Proof.Machine.execCanArbitration n s
  | .canTxAttemptEnd n how stamp tdcv => Sys2Proof.Machine.execCanTxAttemptEnd n how stamp tdcv s
  | .canFrameReceived n f stamp => Sys2Proof.Machine.execCanFrameReceived n f stamp s
  | .canBusError n code one eights => Sys2Proof.Machine.execCanBusError n code one eights s
  | .recover req n => Sys2Proof.Machine.execRecover req n s
  | .recoveryComplete n => Sys2Proof.Machine.execRecoveryComplete n s
  | .flush req n mask => Sys2Proof.Machine.execFlush req n mask s
  | .flushGatewayEgress req n => Sys2Proof.Machine.execFlushGatewayEgress req n s
  | .avtpduSend e => Sys2Proof.Machine.execAvtpduSend e s
  | .avtpduReceive e seq msgs => Sys2Proof.Machine.execAvtpduReceive e seq msgs s
  | .ethFrameReceived n f fcsOk stamp => Sys2Proof.Machine.execEthFrameReceived n f fcsOk stamp s
  | .ethTxFrame n stamp => Sys2Proof.Machine.execEthTxFrame n stamp s
  | .tasCycleStart n => Sys2Proof.Machine.execTasCycleStart n s
  | .tasCommit req n value => Sys2Proof.Machine.execTasCommit req n value s
  | .psfpCommit req value => Sys2Proof.Machine.execPsfpCommit req value s
  | .syncSend n stamp => Sys2Proof.Machine.execSyncSend n stamp s
  | .followUp n stamp origin corr offset => Sys2Proof.Machine.execFollowUp n stamp origin corr offset s
  | .pdelay n x => Sys2Proof.Machine.execPdelay n x s
  | .syncTmo n => Sys2Proof.Machine.execSyncTmo n s
  | .mdioGo req value => Sys2Proof.Machine.execMdioGo req value s
  | .mdioComplete data => Sys2Proof.Machine.execMdioComplete data s
  | .uartCharacter u samples early => Sys2Proof.Machine.execUartCharacter u samples early s
  | .uartIdleNotify u => Sys2Proof.Machine.execUartIdleNotify u s
  | .uartTxCharacter u ctsHigh => Sys2Proof.Machine.execUartTxCharacter u ctsHigh s
  | .gpioSet req value => Sys2Proof.Machine.execGpioSet req value s
  | .gpioClr req value => Sys2Proof.Machine.execGpioClr req value s
  | .ethLinkDown n => Sys2Proof.Machine.execEthLinkDown n s
  | .ethLinkUp n speed => Sys2Proof.Machine.execEthLinkUp n speed s
  | .vblankCommit o same => Sys2Proof.Machine.execVblankCommit o same s
  | .telltaleVerdict o under => Sys2Proof.Machine.execTelltaleVerdict o under s
  | .dpHpdLoss o => Sys2Proof.Machine.execDpHpdLoss o s
  | .dpHpdReturn o ok => Sys2Proof.Machine.execDpHpdReturn o ok s
  | .ampFault k low stamp => Sys2Proof.Machine.execAmpFault k low stamp s
  | .ckpCmdPoll => Sys2Proof.Machine.execCkpCmdPoll s
  | .tdmFrame n fs ins => Sys2Proof.Machine.execTdmFrame n fs ins s
  | .regionTargetWrite req r value => Sys2Proof.Machine.execRegionTargetWrite req r value s
  | .regionTargetReached r => Sys2Proof.Machine.execRegionTargetReached r s
  | .rampSlot => Sys2Proof.Machine.execRampSlot s
  | .groupRestEntry d => Sys2Proof.Machine.execGroupRestEntry d s
  | .groupSteepEntry d => Sys2Proof.Machine.execGroupSteepEntry d s
  | .groupWake d => Sys2Proof.Machine.execGroupWake d s
  | .groupWakeDone d => Sys2Proof.Machine.execGroupWakeDone d s
  | .supwarn m => Sys2Proof.Machine.execSupwarn m s
  | .supfault m high => Sys2Proof.Machine.execSupfault m high s
  | .sag ao => Sys2Proof.Machine.execSag ao s
  | .sagEnd ao => Sys2Proof.Machine.execSagEnd ao s
  | .clkfault k => Sys2Proof.Machine.execClkfault k s
  | .cellarRequest req value => Sys2Proof.Machine.execCellarRequest req value s
  | .cellarEntry => Sys2Proof.Machine.execCellarEntry s
  | .wakeSource wakeN => Sys2Proof.Machine.execWakeSource wakeN s
  | .canWakeDecode k what => Sys2Proof.Machine.execCanWakeDecode k what s
  | .magicPacket port frame fcsOk => Sys2Proof.Machine.execMagicPacket port frame fcsOk s
  | .pmicPgAssert g => Sys2Proof.Machine.execPmicPgAssert g s
  | .pmicPgTimeout g => Sys2Proof.Machine.execPmicPgTimeout g s
  | .pmicRetry => Sys2Proof.Machine.execPmicRetry s
  | .pmicPgLoss g => Sys2Proof.Machine.execPmicPgLoss g s
  | .porstN chip manager => Sys2Proof.Machine.execPorstN chip manager s
  | .startup step => Sys2Proof.Machine.execStartup step s
  | .headerCheck h => Sys2Proof.Machine.execHeaderCheck h s
  | .componentRead digest body alt => Sys2Proof.Machine.execComponentRead digest body alt s
  | .mcodeCrcReport c ok => Sys2Proof.Machine.execMcodeCrcReport c ok s
  | .classSRelease => Sys2Proof.Machine.execClassSRelease s
  | .workerRingTimeout => Sys2Proof.Machine.execWorkerRingTimeout s
  | .computeReset how => Sys2Proof.Machine.execComputeReset how s
  | .logEntryWrite remote => Sys2Proof.Machine.execLogEntryWrite remote s
  | .sysLogCtlGo req value => Sys2Proof.Machine.execSysLogCtlGo req value s
  | .sysLockWrite req value => Sys2Proof.Machine.execSysLockWrite req value s
  | .fuseProgramming => Sys2Proof.Machine.execFuseProgramming s
  | .imageFrame f => Sys2Proof.Machine.execImageFrame f s
  | .imageNak chip comp => Sys2Proof.Machine.execImageNak chip comp s
  | .lpddrTrainingDone ch ok => Sys2Proof.Machine.execLpddrTrainingDone ch ok s
  | .csiPortLock p lock => Sys2Proof.Machine.execCsiPortLock p lock s
  | .vddAoSelfReset => Sys2Proof.Machine.execVddAoSelfReset s

end Sys2Proof.Machine
end

