-- ==== Sys2Proof/Safety.lean ====
section
/-! DEFINITION. What claims call a safe or a sound state: the canonical form, the pins' levels (R411), the AO buffer's bound (R520),
and what it is for a command to complete. -/

namespace Sys2Proof.Machine

/-- The register file, device memory and its check-bit syndromes are in canonical form. -/
def State.canonical (s : State) : Bool :=
  mwf regReset s.regs && Memory.wf s.mem && mwf (fun _ => (0 : Byte)) s.memory.ecc

/-- SAFE_A_n high with SAFE_B low are the operating levels; every other combination is safe (R411). -/
def State.pinsOperate (s : State) : Bool := s.saf.outA && !s.saf.outB

/-- The pins show operating levels only while the device is armed, active and not in the safe state (R411). -/
def State.pinsSound (s : State) : Bool :=
  !s.pinsOperate || (s.on SAF_STATE_ARMED && s.on SAF_STATE_ACTIVE && !s.on SAF_STATE_SAFE)

/-- At most 32 entries wait in the AO buffer (R520). -/
def State.bufferSound (s : State) : Bool := decide (s.sys.logQ.length ≤ 32)

/-! ### Frames -/

/-- Every byte of memory reads as before, with its granule's mark. -/
def SameBytes (s t : State) : Prop := ∀ k, t.byteAt k = s.byteAt k

/-- Every half-byte of memory but those listed reads as before. -/
def SameNibsBut (l : List Nat) (s t : State) : Prop := ∀ n, n ∉ l → (t.nibAt n).1 = (s.nibAt n).1

/-- Every byte of memory but those listed reads as before. -/
def SameBytesBut (l : List Nat) (s t : State) : Prop := ∀ k, k ∉ l → (t.byteAt k).1 = (s.byteAt k).1

/-- Every register word but those listed holds what it held. -/
def SameRegsBut (l : List Nat) (s t : State) : Prop := ∀ off, off ∉ l → t.word off = s.word off

/-- Nothing but registers changed, and of those only the words listed. -/
def OnlyRegs (l : List Nat) (s t : State) : Prop := t = { s with regs := t.regs } ∧ SameRegsBut l s t

/-! ### Plan words -/

/-- The register words that issuing a plan word moves: CORE_PC, CORE_SEQ_STATUS, CORE_WORDS_ISSUED and, where a stall ends,
CORE_STALL_CYCLES (R92, R124). -/
def seqWords (c : Nat) : List Nat :=
  [(CORE_PC_WORD c).off, (CORE_SEQ_STATUS_STALL c).off, (CORE_WORDS_ISSUED_COUNT c).off, (CORE_WORDS_ISSUED_COUNT c).off + 4,
   (CORE_STALL_CYCLES_COUNT c).off, (CORE_STALL_CYCLES_COUNT c).off + 4]

/-- The word at CORE_PC of core c is w, a clean one, and the core is to issue it now (R92, R93). -/
def State.issuing (s : State) (c w : Nat) : Prop :=
  s.mayIssue c = true ∧ s.rd (CORE_SEQ_STATUS_STALL c) = 0 ∧ s.planWord c = w ∧ s.fetch c = (.ok w, s)

/-- The word has issued: core c goes on at word pc, shows no stall and counted the word (R92, R124). -/
def GoesOn (s t : State) (c pc : Nat) : Prop :=
  t.pc c = pc % 2 ^ 24 ∧ t.rd (CORE_SEQ_STATUS_STALL c) = 0 ∧
    t.rd (CORE_WORDS_ISSUED_COUNT c) = (s.rd (CORE_WORDS_ISSUED_COUNT c) + 1) % 2 ^ 64

/-- The word stalls at issue: its code and index are shown, nothing else changes (R92). -/
def Stalls (s t : State) (c code idx : Nat) : Prop :=
  t.rd (CORE_SEQ_STATUS_STALL c) = code ∧ t.rd (CORE_SEQ_STATUS_STALL_IDX c) = idx ∧ OnlyRegs [(CORE_SEQ_STATUS_STALL c).off] s t

/-! ### Rings -/

/-- A record of n bytes was completed on the queue whose registers start at b: CIDX advanced, and the bytes stand in its next slot
(R237). -/
def Completed (s t : State) (b n : Nat) (rec : List MByte) : Prop :=
  let a := s.rd (qCq b) + s.rd (qCidx b) % s.qSize b * n
  s.checkRun (s.qPart b) true a n (qHost b) = .ok → t.rd (qCidx b) = (s.rd (qCidx b) + 1) % 2 ^ 32 ∧
    (a < 0x8000000000 → s.on MEM_INJ_CTL_ARM = false → (s.runKeys a n).Nodup → ∀ (i k : Nat) (x : MByte),
      (s.runKeys a n)[i]? = some k → rec[i]? = some x → (t.byteAt k).1 = x.1)

/-- The head descriptor of the queue at b can be fetched from device memory, clean: its bits are d (R237, R346). -/
def Fetches (s : State) (b d : Nat) : Prop :=
  s.qReady b = true ∧ s.checkRun (s.qPart b) false (s.qHeadAddr b) 64 (qHost b) = .ok ∧ s.qHeadAddr b < 0x8000000000 ∧
    anyPois ((s.runKeys (s.qHeadAddr b) 64).map s.byteAt) = false ∧ s.qPeek b = d

/-! ### Causes (R407, R410, R411) -/

/-- Cause b was detected: enabled, it is latched, the safe state holds, and, entered now, the pins are at safe levels, arming is gone and the
gate closed; masked, it only warns. -/
def CauseTaken (s t : State) (b : Nat) : Prop :=
  let enabled := alwaysCause b = true ∨ bit (s.rd SAF_CAUSE_EN_EN) b = true
  (enabled → bit (t.rd SAF_CAUSE_CAUSE) b = true ∧ t.on SAF_STATE_SAFE = true ∧
    (s.on SAF_STATE_SAFE = false → t.pinsOperate = false ∧ t.on SAF_STATE_ARMED = false ∧ t.saf.gateClosed = true)) ∧
  (¬ enabled → t.on SAF_WARN_MASKED = true)

/-! ### Admin rings (R431) -/

/-- The admin command at the head of slice sl's ring was answered: its completion entry left, the index moved, the ring is free. -/
def Answered (s t : State) (sl tag status data : Nat) : Prop :=
  let n := s.rd (VMS_SL_ACIDX_INDEX sl)
  t.rd (VMS_SL_ACIDX_INDEX sl) = (n + 1) % 2 ^ 32 ∧ t.rd (VMS_ACIDX_MIRROR_INDEX sl) = (n + 1) % 2 ^ 32 ∧ t.vms.busy = none ∧ t.vms.last = sl ∧
    Ext.hostWrite (s.rd (VMS_SL_ACQ_ADDR sl) + n % 2 ^ s.rd (VMS_SL_ACFG_LOG2SIZE sl) * 16)
      (leBytes 2 tag ++ leBytes 2 status ++ leBytes 4 data ++ leBytes 8 s.now) ∈ t.out

end Sys2Proof.Machine
end

