-- ==== Sys2Proof/Certificates/Slice0/Obligations.lean ====
section
/-! DEFINITION. What the provers are asked to prove. -/

open Sys2Proof Sys2Proof.Machine

/-! ### The queue and the canonical form -/

/-- A step with a command waiting is that command on the state with the rest of the queue; with none waiting it is one edge of the counter's
clock (the model's choice, log 2), which changes only TIM_COUNT and its fraction (R319, R320). -/
def Obligations.StepRunsFront : Prop :=
  (∀ (s : State) (c : Instr), step { s with pending := c :: s.pending } = exec c s) ∧
  (∀ s : State, s.pending = [] → ∃ t : State, step s = .next t ∧ t = { s with regs := t.regs, tim := { s.tim with frac := t.tim.frac } } ∧
    SameRegsBut [TIM_COUNT_VALUE.off, TIM_COUNT_VALUE.off + 4] s t ∧
    (s.tim.ao = false → t.now = (s.now + 1) % 2 ^ 64 ∧ t.tim = s.tim) ∧
    (s.tim.ao = true → 64 * t.now + t.tim.frac = (64 * (s.now + 30517) + s.tim.frac + 37) % 2 ^ 70))

/-! ### Plan words (R86 to R112) -/

/-- R87, R94, R107, R108: the sequencer's own words NOP, PHASE, LOOP, NEXT, WAITCNT, WAITTIME and WAITTAG, completing; a wait
whose condition fails shows its stall. -/
def Obligations.SequencerWords : Prop :=
  ∀ (c : Fin 256) (s : State) (w : Nat), s.issuing c w →
    (wOp w = 0x00 → ∃ t : State, exec (.nop c) s = .next t ∧ GoesOn s t c (s.pc c + 1) ∧ OnlyRegs (seqWords c) s t) ∧
    (wOp w = 0x02 → s.attnBusy c = false →
      (∀ g, g < 32 → s.tagBusy c g = true → ∀ b ∈ s.rebound c (bits w 31 8), bit (s.tag c g).banks b = false) →
      ∃ t : State, exec (.phase c) s = .next t ∧ GoesOn s t c (s.pc c + 1) ∧ t.rd (CORE_BIND_BIND c) = bits w 31 8 ∧
        OnlyRegs ((CORE_BIND_BIND c).off :: seqWords c) s t) ∧
    (wOp w = 0x04 → (loopsOf s c).length < 4 →
      ∃ t : State, exec (.loopOpen c) s = .next t ∧ GoesOn s t c (s.pc c + 1) ∧ SameRegsBut (seqWords c) s t ∧
        loopsOf t c = ⟨s.pc c + 1, bits w 23 8⟩ :: loopsOf s c ∧ t.rd (CORE_SEQ_STATUS_LOOP_DEPTH c) = (loopsOf s c).length + 1 ∧
        t = { s with regs := t.regs, core := { s.core with loops := t.core.loops } } ∧ ∀ d, d ≠ c.val → loopsOf t d = loopsOf s d) ∧
    (wOp w = 0x05 → ∀ f rest, loopsOf s c = f :: rest → rest.length < 4 →
      ∃ t : State, exec (.loopNext c) s = .next t ∧ SameRegsBut (seqWords c) s t ∧
        GoesOn s t c (if 0 < f.left then f.start else s.pc c + 1) ∧
        loopsOf t c = (if 0 < f.left then ⟨f.start, f.left - 1⟩ :: rest else rest) ∧
        t.rd (CORE_SEQ_STATUS_LOOP_DEPTH c) = (loopsOf t c).length ∧
        t = { s with regs := t.regs, core := { s.core with loops := t.core.loops } } ∧ ∀ d, d ≠ c.val → loopsOf t d = loopsOf s d) ∧
    (wOp w = 0x0A → ∃ t : State, exec (.waitcnt c) s = .next t ∧
      if (s.rd (CORE_CNT_VALUE c (bits w 12 8)) + 2 ^ 32 - bits w 63 32) % 2 ^ 32 < 2 ^ 31
      then GoesOn s t c (s.pc c + 1) ∧ OnlyRegs (seqWords c) s t else Stalls s t c stCounter (bits w 12 8)) ∧
    (wOp w = 0x0B → ∃ t : State, exec (.waittime c) s = .next t ∧
      if bits w 127 64 ≤ s.time (bits w 10 8)
      then GoesOn s t c (s.pc c + 1) ∧ OnlyRegs (seqWords c) s t else Stalls s t c stTime 0) ∧
    (wOp w = 0x0E → ∃ t : State, exec (.waittag c) s = .next t ∧
      if s.rd (CORE_TAG_BUSY_BUSY c) &&& bits w 63 32 = 0
      then GoesOn s t c (s.pc c + 1) ∧ OnlyRegs (seqWords c) s t else Stalls s t c stTags 0)

/-- R92, R99, R100, R356: END of a core with idle engines and free tags, AGLOAD of a slot from a clean granule that awaits no
fill, AGADV of an address descriptor. -/
def Obligations.SlotWordsAndEnd : Prop :=
  ∀ (c : Fin 256) (s : State) (w : Nat), s.issuing c w →
    (wOp w = 0x01 → s.rd (CORE_TAG_BUSY_BUSY c) = 0 → s.attnBusy c = false →
      ∃ t : State, exec (.endPlan c) s = .next t ∧ GoesOn s t c (s.pc c + 1) ∧ t.rd (CORE_STATE_STATE c) = 0 ∧ t = { s with regs := t.regs } ∧
        SameRegsBut ((CORE_STATE_STATE c).off :: (seqWords c ++ (List.range 16).map fun p => (PART_STATUS_STATE p).off)) s t ∧
        ∀ p, p < 16 → t.rd (PART_STATUS_STATE p) =
          if s.coreOwner c = some p ∧ s.rd (PART_STATUS_STATE p) = stRunning ∧
            (∀ d ∈ s.coresOf p, d ≠ c.val → s.rd (CORE_STATE_STATE d) = 0) then stComplete else s.rd (PART_STATUS_STATE p)) ∧
    (wOp w = 0x03 → ∀ ks, s.runLocal c pTransfer (bits w 32 12) 64 = .ok ks → s.awaitAt c (bits w 32 12) = none →
      ∃ t : State, exec (.agload c) s = .next t ∧ t.pc c = (s.pc c + 1) % 2 ^ 24 ∧ SameBytes s t ∧
        t.slot c (bits w 11 8) = ⟨BitVec.ofNat 512 (leNum (ks.map s.byteAt)), false, anyPois (ks.map s.byteAt), bits w 32 12⟩ ∧
        ∀ d i, i < 16 → (d ≠ c.val ∨ i ≠ bits w 11 8) → t.slot d i = s.slot d i) ∧
    (wOp w = 0x06 →
      let sl := s.slot c (bits w 11 8)
      dKind sl.desc.toNat = 0 → dFmt sl.desc.toNat ≤ 9 →
      ∃ t : State, exec (.agadv c) s = .next t ∧ GoesOn s t c (s.pc c + 1) ∧ SameRegsBut (seqWords c) s t ∧
        t = { s with regs := t.regs, core := { s.core with ag := t.core.ag } } ∧
        (let d := (t.slot c (bits w 11 8)).desc.toNat
         (dBase d : Int) = ((if dFmt sl.desc.toNat = 1 then (2 * dBase sl.desc.toNat + b2n sl.half + toSigned 32 (bits w 63 32)) % 2 ^ 49 / 2
            else (dBase sl.desc.toNat + toSigned 32 (bits w 63 32) * (fmtNibs (dFmt sl.desc.toNat) / 2 : Nat)) % 2 ^ 48)) ∧
         bits d 463 448 = (bits sl.desc.toNat 463 448 + bits w 79 64) % 2 ^ 16 ∧
         bits d 479 464 = (bits sl.desc.toNat 479 464 + bits w 95 80) % 2 ^ 16) ∧
        ∀ d i, i < 16 → (d ≠ c.val ∨ i ≠ bits w 11 8) → t.slot d i = s.slot d i)

/-- R109, R140, R146: BARRIER sends its arrival and waits; the last arrival releases every participant; a release ends the wait; a
CREDIT for a window without guard sends its grant, and a grant adds to the balance of the entry. -/
def Obligations.BarrierAndCredit : Prop :=
  (∀ (c : Fin 256) (s : State) (w : Nat), s.issuing c w →
    (wOp w = 0x07 → ∃ t : State, exec (.barrier c) s = .next t ∧ t.rd (CORE_SEQ_STATUS_STALL c) = stBarrier ∧
      t.rd (CORE_SEQ_STATUS_STALL_IDX c) = bits w 11 8 ∧ SameRegsBut [(CORE_SEQ_STATUS_STALL c).off] s t ∧
      t = { s with regs := t.regs, msgs := s.msgs ++
        [⟨.req, c, lowest (s.barMask (s.partOf c) (bits w 11 8)), s.partOf c, 0, false, s.ownChip, .barArr (bits w 11 8)⟩] }) ∧
    (wOp w = 0x0C → s.coreOwner (bits w 19 12) = some (s.partOf c) → s.on (CORE_WIN_BASE_GUARD c (bits w 11 8)) = false →
      ∃ t : State, exec (.credit c) s = .next t ∧ GoesOn s t c (s.pc c + 1) ∧ SameRegsBut (seqWords c) s t ∧
        t = { s with regs := t.regs, msgs := s.msgs ++
          [⟨.crd, c, bits w 19 12, s.partOf c, 0, false, s.ownChip, .credit (bits w 11 8) (bits w 39 20)⟩] })) ∧
  (∀ (part bid : Fin 16) (src : Fin 256) (s : State) (m : Msg) (s1 : State),
    s.take (fun m => m.part == part.val && m.src == src.val && m.body == .barArr bid) = some (m, s1) →
    ∃ t : State, exec (.barrierArrival part bid src) s = .next t ∧ t.regs = s.regs ∧ SameBytes s t ∧
      let here := mget (fun _ => 0) s.core.barHere (16 * part + bid) ||| 2 ^ src.val
      if here &&& s.barMask part bid = s.barMask part bid then
        mget (fun _ => 0) t.core.barHere (16 * part + bid) = 0 ∧
        t.msgs = s1.msgs ++ (setBitsOf 256 (s.barMask part bid)).map fun c => ⟨.rsp, m.dst, c, part, 0, false, s.ownChip, .barRel bid⟩
      else mget (fun _ => 0) t.core.barHere (16 * part + bid) = here ∧ t.msgs = s1.msgs) ∧
  (∀ (c : Fin 256) (bid : Fin 16) (s : State) (m : Msg) (s1 : State),
    s.take (fun m => m.dst == c.val && m.body == .barRel bid) = some (m, s1) →
    s.rd (CORE_STATE_STATE c) = 1 → s.rd (CORE_SEQ_STATUS_STALL c) = stBarrier → s.rd (CORE_SEQ_STATUS_STALL_IDX c) = bid.val →
    ∃ t : State, exec (.barrierRelease c bid) s = .next t ∧ GoesOn s t c (s.pc c + 1) ∧ SameRegsBut (seqWords c) s t ∧ t.msgs = s1.msgs) ∧
  (∀ (dst src : Fin 256) (s : State) (m : Msg) (s1 : State) (win units e : Nat),
    s.take (fun m => m.dst == dst.val && m.src == src.val && m.cls == .crd) = some (m, s1) → m.body = .credit win units →
    s.entryFor dst src win = some e → s.rd (CORE_CRD_BAL_CREDIT dst e) + units ≤ 2 ^ 20 →
    ∃ t : State, exec (.creditGrantArrival dst src) s = .next t ∧ t.rd (CORE_CRD_BAL_CREDIT dst e) = s.rd (CORE_CRD_BAL_CREDIT dst e) + units ∧
      SameRegsBut [(CORE_CRD_BAL_CREDIT dst e).off] s t ∧ t.msgs = s1.msgs ∧ SameBytes s t)

/-- R107, R110 to R112: a REPORT whose queue has room by PART's cached read index writes its record and moves WIDX; with the queue
disabled it is only counted. -/
def Obligations.ReportWord : Prop :=
  ∀ (c : Fin 256) (s : State) (w : Nat), s.issuing c w → wOp w = 0x08 → bit w 16 = false → bits w 15 8 < 0xC0 →
    let p := s.partOf c
    (s.on (PART_RPT_CFG_EN p) = false → ∃ t : State, exec (.report c) s = .next t ∧ GoesOn s t c (s.pc c + 1) ∧
      t.rd (PART_RPT_STAT_DISCARD p) = min (s.rd (PART_RPT_STAT_DISCARD p) + 1) 0xFFFF ∧
      OnlyRegs ((PART_RPT_STAT_DISCARD p).off :: seqWords c) s t) ∧
    (s.on (PART_RPT_CFG_EN p) = true → s.rptFull p (mget (fun _ => 0) s.part.rptRead p) = false →
      let a := s.rd (PART_RPT_BASE_ADDR p) + s.rd (PART_RPT_WIDX_COUNT p) % 2 ^ s.rd (PART_RPT_CFG_LOG2SIZE p) * 32
      ∃ t : State, exec (.report c) s = .next t ∧ t.pc c = (s.pc c + 1) % 2 ^ 24 ∧
        t.rd (PART_RPT_WIDX_COUNT p) = (s.rd (PART_RPT_WIDX_COUNT p) + 1) % 2 ^ 32 ∧
        t.mem = (s.writeRun a (reportRecord s.now c (bits w 15 8) (s.pc c) (bits w 127 64))).mem ∧
        (s.on MEM_INJ_CTL_ARM = false → SameBytesBut ((List.range 32).map (a + ·)) s t) ∧
        t.msgs = s.msgs ++ (if s.on (PART_RPT_CFG_NEN p) then
          [⟨.rsp, 265, s.rd (PART_RPT_CFG_CORE p), p, 0, false, s.ownChip, .notif (s.rd (PART_RPT_CFG_CNT p)) 1⟩] else []))

/-- R92, R107: a word that stalled goes on when its condition holds: a WAITCNT whose counter has come, a PHASE or END whose tags are
free. -/
def Obligations.StalledWords : Prop :=
  ∀ (c : Fin 256) (s : State), s.mayIssue c = true →
    let w := s.planWord c
    (wOp w = 0x0A → s.rd (CORE_SEQ_STATUS_STALL c) = stCounter →
      ∃ t : State, exec (.waitSatisfied c) s = .next t ∧
        if (s.rd (CORE_CNT_VALUE c (bits w 12 8)) + 2 ^ 32 - bits w 63 32) % 2 ^ 32 < 2 ^ 31
        then GoesOn s t c (s.pc c + 1) ∧ OnlyRegs (seqWords c) s t else t = s) ∧
    (wOp w = 0x02 → s.rd (CORE_SEQ_STATUS_STALL c) = stPhase → s.attnBusy c = false →
      ∃ t : State, exec (.issueStallClear c) s = .next t ∧
        if ∀ g, g < 32 → s.tagBusy c g = true → ∀ b ∈ s.rebound c (bits w 31 8), bit (s.tag c g).banks b = false
        then GoesOn s t c (s.pc c + 1) ∧ t.rd (CORE_BIND_BIND c) = bits w 31 8 ∧
          OnlyRegs ((CORE_BIND_BIND c).off :: seqWords c) s t else t = s)

/-! ### The engines (R62 to R82, R101 to R104, R114 to R119) -/

/-- R77, R78, R104, R585: each repetition of a register command writes its destination from its sources, which no earlier
repetition wrote; other vector registers, memory and the accumulator stay. -/
def Obligations.VectorElementWords : Prop :=
  ∀ (c : Fin 256) (s : State) (w : Nat), s.issuing c w → s.attnBusy c = false →
    let f := wFMT w
    let el (r : Nat) := vEls f (vGet s c r)
    let opB (i : Nat) := vOpB c w i s
    let good (t : State) (srcs : Nat → List Nat) (v : Nat → List Nat) : Prop :=
      GoesOn s t c (s.pc c + 1) ∧ SameBytes s t ∧ t.core.acc = s.core.acc ∧ t.msgs = s.msgs ∧
      (∀ i, i ≤ wREP w → (∀ j, j < i → wVD w + j ∉ srcs i) → vGet t c (wVD w + i) = (v i).map (· % 2 ^ 32)) ∧
      (∀ d r, d ≠ c.val → r < 128 → vGet t d r = vGet s d r) ∧
      (∀ r, r < 128 → ¬ (wVD w ≤ r ∧ r ≤ wVD w + wREP w) → vGet t c r = vGet s c r ∧ vPois t c r = vPois s c r) ∧
      (s.core.upsets = [] → (∀ i r, i ≤ wREP w → r ∈ srcs i → vPois s c r = false) →
        SameRegsBut (seqWords c) s t ∧ ∀ i, i ≤ wREP w → vPois t c (wVD w + i) = false)
    wVD w + wREP w ≤ 127 →
    (wOp w = 0x22 → ∃ t : State, exec (.vbin c) s = .next t ∧
      good t (fun i => vRegs w i []) fun i => vUnEls f (map2 (binOp f (wSUB w)) (el (wVA w + i)) (opB i))) ∧
    (wOp w = 0x23 → ∃ t : State, exec (.vfma c) s = .next t ∧
      good t (fun i => vRegs w i [wVC w + i]) fun i => vUnEls f (map3 (fmaOp f) (el (wVA w + i)) (opB i) (el (wVC w + i)))) ∧
    (wOp w = 0x24 → ∃ t : State, exec (.vcmp c) s = .next t ∧
      good t (fun i => vRegs w i []) fun i => vUnEls f (map2
        (fun x y => if cmpOp f (wSUB w) x y then (if f = 4 then 0xFFFF else 0xFFFFFFFF) else 0) (el (wVA w + i)) (opB i))) ∧
    (wOp w = 0x25 → ∃ t : State, exec (.vsel c) s = .next t ∧
      good t (fun i => vRegs w i [wVC w + i]) fun i => vUnEls f (map3 (fun x y m => if m ≠ 0 then x else y)
        (el (wVA w + i)) (opB i) (el (wVC w + i)))) ∧
    (wOp w = 0x26 → ∃ t : State, exec (.vsfu c) s = .next t ∧
      good t (fun i => [wVA w + i]) fun i => (vGet s c (wVA w + i)).map (sfuOp (wSUB w))) ∧
    (wOp w = 0x28 → ∃ t : State, exec (.vred c) s = .next t ∧
      good t (fun i => [wVA w + i]) fun i => redOp f (wSUB w) (vGet s c (wVA w + i))) ∧
    (wOp w = 0x2A → ∃ t : State, exec (.vimm c) s = .next t ∧ good t (fun _ => []) fun _ => List.replicate 64 (wIMM w)) ∧
    (wOp w = 0x2B → wSUB w ≠ 2 → ∃ t : State, exec (.vperm c) s = .next t ∧
      good t (fun i => [wVA w + i]) fun i => (List.range 64).map fun j =>
        if wSUB w = 0 then vLane s c (wVA w + i) (63 - j) else vLane s c (wVA w + i) ((j + 64 - wIMM w % 64) % 64))

/-- R104: a VPERM with SUB = 2 transposes the 8 × 8 blocks of eight registers; a VACC moves accumulator words and lanes; VLOAD fills its
registers from what its descriptor enumerates; a VCVT whose elements raise no fault writes the output stage's results from byte 0 and
zeroes the rest. -/
def Obligations.VectorMoveWords : Prop :=
  ∀ (c : Fin 256) (s : State) (w : Nat), s.issuing c w → s.attnBusy c = false →
    (wOp w = 0x2B → wSUB w = 2 → wVD w ≤ 120 → ∃ t : State, exec (.vperm c) s = .next t ∧ GoesOn s t c (s.pc c + 1) ∧ SameBytes s t ∧
      ∀ b k r, b < 8 → k < 8 → r < 8 → vLane t c (wVD w + k) (8 * b + r) = vLane s c (wVA w + r) (8 * b + k)) ∧
    (wOp w = 0x29 → bit w 24 = true → bits w 23 15 * 64 + 64 * (bits w 31 25 + 1) ≤ 32768 →
      ∃ t : State, exec (.vacc c) s = .next t ∧ GoesOn s t c (s.pc c + 1) ∧ SameBytes s t ∧ t.core.vreg = s.core.vreg ∧
        (∀ j k, j ≤ bits w 31 25 → k < 64 → accGet t c (bits w 23 15 * 64 + 64 * j + k) = vLane s c (wVD w + j) k) ∧
        ∀ i, i < 32768 → ¬ (bits w 23 15 * 64 ≤ i ∧ i < bits w 23 15 * 64 + 64 * (bits w 31 25 + 1)) → accGet t c i = accGet s c i) ∧
    (wOp w = 0x29 → bit w 24 = false → wVD w + bits w 31 25 ≤ 127 →
      ∃ t : State, exec (.vacc c) s = .next t ∧ GoesOn s t c (s.pc c + 1) ∧ SameBytes s t ∧ t.core.acc = s.core.acc ∧
        (∀ j k, j ≤ bits w 31 25 → k < 64 → vLane t c (wVD w + j) k = accGet s c (bits w 23 15 * 64 + 64 * j + k)) ∧
        ∀ r, r < 128 → ¬ (wVD w ≤ r ∧ r ≤ wVD w + bits w 31 25) → vGet t c r = vGet s c r) ∧
    (wOp w = 0x20 → wVD w + wREP w ≤ 127 → ∀ d half ks, s.useSlot c (wAGV w) false = .ok (d, half) →
      agCount d * fmtNibs (dFmt d) ≤ (wREP w + 1) * 512 →
      s.elsKeys c pVector (fmtNibs (dFmt d)) (agElems d half (fmtNibs (dFmt d))) = .ok ks →
      ∃ t : State, exec (.vload c) s = .next t ∧ t.pc c = (s.pc c + 1) % 2 ^ 24 ∧ SameBytes s t ∧ t.core.acc = s.core.acc ∧
        (∀ i, i ≤ wREP w → vGet t c (wVD w + i) = (nibLanes (((groupsOfN 512 (wREP w + 1) (ks.flatMap fun k =>
          splitNibs 1 (fmtNibs (dFmt d)) (s.elVal (padCode (dFmt d) (dPadSel d)) k).1)).getD i []))).map (· % 2 ^ 32)) ∧
        ∀ r, r < 128 → ¬ (wVD w ≤ r ∧ r ≤ wVD w + wREP w) → vGet t c r = vGet s c r) ∧
    (wOp w = 0x27 → wVD w + wREP w ≤ 127 → (∀ i j, j < i → i ≤ wREP w → wVD w + j ≠ wVA w + i) →
      let f := wFMT w
      let g := wAGV w
      let e := if f = 9 ∨ g = 9 then toSigned 8 (bits w 29 22) else 0
      let o : OutCfg := ⟨g, toSigned 6 (bits w 61 56), bit w 62, bits w 95 64, bits w 127 96, -(cvtScale g e)⟩
      let res (i : Nat) := ((groupsOfN (fmtNibs f) (512 / max (fmtNibs f) (fmtNibs g)) (laneNibs (vGet s c (wVA w + i)))).map nibNum).map
        fun x => outStage o ((fmtVal f x).scale (cvtScale f e))
      (∀ i, i ≤ wREP w → (res i).all (fun r => !s.outFaults c r) = true) →
      ∃ t : State, exec (.vcvt c) s = .next t ∧ GoesOn s t c (s.pc c + 1) ∧ SameBytes s t ∧ t.core.acc = s.core.acc ∧
        (∀ i, i ≤ wREP w → vGet t c (wVD w + i) =
          (nibLanes ((res i).flatMap fun r => splitNibs 1 (fmtNibs g) r.code)).map (· % 2 ^ 32)) ∧
        t.rd (CORE_SAT_COUNT_COUNT c) = min (s.rd (CORE_SAT_COUNT_COUNT c) +
          (((List.range (wREP w + 1)).flatMap res).filter fun r => r.sat || r.ovf).length) 0xFFFFFFFF ∧
        ∀ r, r < 128 → ¬ (wVD w ≤ r ∧ r ≤ wVD w + wREP w) → vGet t c r = vGet s c r)

/-- R104, R167: VSTORE stores its registers' half-bytes into the places its descriptor enumerates, from distinct ones, and no other
half-byte of memory changes. -/
def Obligations.VectorStore : Prop :=
  ∀ (c : Fin 256) (s : State) (w : Nat), s.issuing c w → wOp w = 0x21 → s.attnBusy c = false → s.on MEM_INJ_CTL_ARM = false →
    ∀ d half ks, s.useSlot c (wAGV w) false = .ok (d, half) → agCount d * fmtNibs (dFmt d) ≤ (wREP w + 1) * 512 →
      s.elsKeys c pVector (fmtNibs (dFmt d)) (agElems d half (fmtNibs (dFmt d))) = .ok ks →
      let stored := ks.flatMap fun k => k.getD []
      let src := (List.range (wREP w + 1)).flatMap fun i => laneNibs (vGet s c (wVA w + i))
      ∃ t : State, exec (.vstore c) s = .next t ∧ t.pc c = (s.pc c + 1) % 2 ^ 24 ∧ SameNibsBut stored s t ∧
        t.core.vreg = s.core.vreg ∧ t.core.acc = s.core.acc ∧ t.msgs = s.msgs ∧
        (stored.Nodup → ∀ i l, ks[i]? = some (some l) → ∀ j n, l[j]? = some n → (t.nibAt n).1 = src.getD (i * fmtNibs (dFmt d) + j) 0)

/-- R62 to R65, R76, R102: an MMUL whose run-time checks pass writes each word of columns 0 to N_USE of its tile with what the pairing's
rule gives, and no other accumulator word; no memory and no vector register changes. -/
def Obligations.MatrixMultiply : Prop :=
  ∀ (c : Fin 256) (s : State) (w : Nat), s.issuing c w → wOp w = 0x10 → s.attnBusy c = false → s.core.upsets = [] →
    ∀ z ks pa pb pi, s.mmPlan c w = .ok (z, ks, pa, pb, pi) →
      let p := bits w 30 28
      let val (pad : Nat) (l : List (Option (List Nat))) : Vals := (l.map (s.elVal pad)).toArray
      ∀ b, (if bit w 31 then densify z.k z.n (2 * z.kstep) (val pb ks.b) (val 0 ks.mt) else some (val pb ks.b)) = some b →
      let o : MmOps := ⟨val pa ks.a, b, val 0 ks.sa, val 0 ks.ra, val 0 ks.sb, val 0 ks.rb⟩
      let init (m n : Nat) : Nat := match bits w 37 36 with
        | 1 => accGet s c (z.at m n)
        | 2 => Vals.code (val pi ks.ini) (m * z.cols + n)
        | _ => 0
      (pairInt p = false ∨ s.on (CORE_ARITH_CFG_ACCSAT_FAULT c) = false) →
      ∃ t : State, exec (.mmul c) s = .next t ∧ t.pc c = (s.pc c + 1) % 2 ^ 24 ∧ SameBytes s t ∧ t.core.vreg = s.core.vreg ∧ t.msgs = s.msgs ∧
        (∀ m n, m < z.m → n < z.cols → accGet t c (z.at m n) =
          (if pairInt p then (intWord z o (pairFmtA w) (pairFmtB w) (init m n) m n (z.k / z.kstep)).1
           else if pairGQ p then gqWord z o (pairFmtA w) (pairFmtB w) (init m n) m n
           else fpWord z o (pairFmtA w) (pairFmtB w) (init m n) m n) % 2 ^ 32) ∧
        (∀ i, i < 32768 → (∀ m n, m < z.m → n < z.cols → i ≠ z.at m n) → accGet t c i = accGet s c i) ∧
        ∀ d i, d ≠ c.val → i < 32768 → accGet t d i = accGet s d i

/-- R66 to R70, R103: an MDRAIN whose elements raise no fault stores the output stage's results into the places its descriptor
enumerates, and changes no other half-byte of memory; the accumulator stays. -/
def Obligations.MatrixDrain : Prop :=
  ∀ (c : Fin 256) (s : State) (w : Nat), s.issuing c w → wOp w = 0x11 → s.attnBusy c = false → s.on MEM_INJ_CTL_ARM = false →
    let f := bits w 40 37
    let rows := bits w 30 21 + 1
    let cols := bits w 36 31 + 1
    let base := bits w 20 12
    let pitch := mget (fun _ => 64) s.core.pitch (512 * c + base)
    let o : OutCfg := ⟨f, toSigned 6 (bits w 46 41), bit w 47, bits w 95 64, bits w 127 96, 0⟩
    let res (i j : Nat) : OutRes := outStage o (if bit w 48 then f32 (accGet s c (base * 64 + i * pitch + j))
      else FVal.ofInt (toSigned 32 (accGet s c (base * 64 + i * pitch + j))))
    ∀ d half ks, s.useSlot c (bits w 11 8) false = .ok (d, half) → fmtNibs (dFmt d) = fmtNibs f → cols ≤ pitch →
      base * 64 + (rows - 1) * pitch + cols ≤ 32768 → agCount d = rows * cols →
      s.elsKeys c pVector (fmtNibs f) (agElems d half (fmtNibs f)) = .ok ks →
      (∀ i j, i < rows → j < cols → s.outFaults c (res i j) = false) →
      let stored := ks.flatMap fun k => k.getD []
      ∃ t : State, exec (.mdrain c) s = .next t ∧ t.pc c = (s.pc c + 1) % 2 ^ 24 ∧ SameNibsBut stored s t ∧ t.core.acc = s.core.acc ∧
        t.core.vreg = s.core.vreg ∧ t.msgs = s.msgs ∧
        (stored.Nodup → ∀ i j l, i < rows → j < cols → ks[i * cols + j]? = some (some l) → ∀ k n, l[k]? = some n →
          (t.nibAt n).1 = (res i j).code / 16 ^ k % 16)

/-- R67, R69: the output stage to an integer format, with the bounds of R66 in order: from an INT32 value, the arithmetic of R67; from an
FP32 value, a × 2^−OSHIFT rounded to the nearest integer, ties to even, then the same clamp and saturation; an infinity saturates with
FP_OVF and a NaN is 0 with FP_NAN; each result sets its flags in its core. -/
def Obligations.OutputStageInteger : Prop :=
  (∀ (o : OutCfg), fmtFp o.ofmt = none → o.scale = 0 → (o.clamp = true → toSigned (intBits o.ofmt) o.lo ≤ toSigned (intBits o.ofmt) o.hi) →
    let n := intBits o.ofmt
    let clamped (q : Int) : Int := if o.clamp then min (max q (toSigned n o.lo)) (toSigned n o.hi) else q
    let saturated (q : Int) : Int := max (min q (2 ^ (n - 1) - 1)) (-(2 ^ (n - 1)))
    (∀ a : Int,
      let k := o.oshift.toNat
      let floor : Int := a / 2 ^ k
      let rest : Int := a - floor * 2 ^ k
      let half : Int := 2 ^ (k - 1)
      let q : Int := if 1 ≤ o.oshift then (if half < rest ∨ rest = half ∧ floor % 2 = 1 then floor + 1 else floor)
        else if o.oshift = 0 then a else a * 2 ^ (-o.oshift).toNat
      outStage o (FVal.ofInt a) = ⟨ofSigned n (saturated (clamped q)), decide (saturated (clamped q) ≠ clamped q), false, false⟩) ∧
    (∀ w : Nat, match f32 w with
      | .nan => outStage o (f32 w) = ⟨0, false, true, false⟩
      | .inf neg => ∃ r, outStage o (f32 w) = ⟨ofSigned n r, false, false, true⟩ ∧
          r = saturated (if o.clamp then (if neg then toSigned n o.lo else toSigned n o.hi) else if neg then -(2 ^ n) else 2 ^ n)
      | .fin neg m e => ∃ q : Int,
          (let v : Int := if neg then -(m : Int) else m
           let up := (e - o.oshift).toNat
           let dn := (o.oshift - e).toNat
           2 * (v * 2 ^ up - q * 2 ^ dn) ≤ 2 ^ dn ∧ -(2 ^ dn) ≤ 2 * (v * 2 ^ up - q * 2 ^ dn) ∧
           (2 * (v * 2 ^ up - q * 2 ^ dn) = 2 ^ dn ∨ -(2 ^ dn) = 2 * (v * 2 ^ up - q * 2 ^ dn) → q % 2 = 0)) ∧
          outStage o (f32 w) = ⟨ofSigned n (saturated (clamped q)), decide (saturated (clamped q) ≠ clamped q), false, false⟩)) ∧
  (∀ (s : State) (c : Fin 256) (r : OutRes),
    let t := s.outFlags c r
    t.on (CORE_ARITH_STATUS_OUT_SAT c) = (s.on (CORE_ARITH_STATUS_OUT_SAT c) || r.sat) ∧
    t.on (CORE_ARITH_STATUS_FP_NAN c) = (s.on (CORE_ARITH_STATUS_FP_NAN c) || r.nan) ∧
    t.on (CORE_ARITH_STATUS_FP_OVF c) = (s.on (CORE_ARITH_STATUS_FP_OVF c) || r.ovf))

/-- R116 to R119: BOXDEC and NMS with legal descriptors that lie in vector-bound banks store only their outputs and scratch: the boxes
of R116, and the count of each class of R118. -/
def Obligations.BoxesAndSuppression : Prop :=
  ∀ (c : Fin 256) (s : State) (w : Nat) (d : Nat) (s1 : State), s.issuing c w → s.attnBusy c = false →
    s.on MEM_INJ_CTL_ARM = false → s.regionDesc c w = .ok (d, s1) →
    (wOp w = 0x41 → boxOk d = true → ∀ ik ak ok, s.runHalves c (2 * rdWord d 0) (32 * rdHalf d 0xC) = .ok ik →
      (if bit d (8 * 0xC + 16) then .ok [] else s.runHalves c (2 * rdWord d 4) (32 * rdHalf d 0xC)) = .ok ak →
      s.runHalves c (2 * rdWord d 8) (32 * rdHalf d 0xC) = .ok ok →
      let iv := s.words32 ik (4 * rdHalf d 0xC)
      let av := s.words32 ak (if ak.isEmpty then 0 else 4 * rdHalf d 0xC)
      ∃ t : State, exec (.boxdec c) s = .next t ∧ t.pc c = (s.pc c + 1) % 2 ^ 24 ∧ SameNibsBut ok s t ∧ t.core = s.core ∧ t.msgs = s.msgs ∧
        (ok.Nodup → ∀ k, k < rdHalf d 0xC →
          let b := boxOf d (boxAt iv k) (boxAt av k) k
          let got := t.words32 ok (4 * rdHalf d 0xC)
          boxAt got k = (b.1 % 2 ^ 32, b.2.1 % 2 ^ 32, b.2.2.1 % 2 ^ 32, b.2.2.2 % 2 ^ 32))) ∧
    (wOp w = 0x42 → nmsOk d = true →
      let n := rdHalf d 0xC
      let cls := rdHalf d 0xE
      let nbx := if bit d (8 * 0x10 + 16) then cls * n else n
      ∀ bk sk ok tk, s.runHalves c (2 * rdWord d 0) (32 * nbx) = .ok bk → s.runHalves c (2 * rdWord d 4) (8 * cls * n) = .ok sk →
        s.runHalves c (2 * rdWord d 8) (2 * cls * nmsRec d) = .ok ok → s.runHalves c (2 * rdWord d 0x1C) (16 * n) = .ok tk →
        ∃ t : State, exec (.nms c) s = .next t ∧ t.pc c = (s.pc c + 1) % 2 ^ 24 ∧ SameNibsBut (ok ++ tk) s t ∧ t.core = s.core ∧
          t.msgs = s.msgs ∧
          ((ok ++ tk).Nodup → ∀ q, q < cls → t.numAt (((groupsOfN (2 * nmsRec d) cls ok).getD q []).take 8) =
            (nmsClass d n (s.words32 bk (4 * nbx)).toArray (s.words32 sk (cls * n)).toArray q).length))

/-- R114, R115, R119: a CROPRS with a legal descriptor, its faults not enabled, stores only its outputs and its status record, whose
count is that of the boxes with a NaN coordinate; an illegal descriptor is a plan fault of kind DESC and nothing is written. -/
def Obligations.CropAndResize : Prop :=
  ∀ (c : Fin 256) (s : State) (w : Nat) (d : Nat) (s1 : State), s.issuing c w → wOp w = 0x40 → s.attnBusy c = false →
    s.on MEM_INJ_CTL_ARM = false → s.regionDesc c w = .ok (d, s1) →
    (cropOk d = true → s.on (CORE_ARITH_CFG_OUTSAT_FAULT c) = false → s.on (CORE_ARITH_CFG_NAN_FAULT c) = false →
      ∀ k, s.cropPlan c d = .ok k →
      ∃ t : State, exec (.croprs c) s = .next t ∧ t.pc c = (s.pc c + 1) % 2 ^ 24 ∧ SameNibsBut (k.out ++ k.stat) s t ∧ t.core = s.core ∧
        t.msgs = s.msgs ∧ t.free = s.free + (cropOuts d).length ∧
        ((k.out ++ k.stat).Nodup →
          t.numAt k.stat = ((List.range (rdHalf d 0x10)).filter fun i => boxNan (boxAt (s.words32 k.box (4 * rdHalf d 0x10)) i)).length ∧
          ∀ i r, (s.cropRes c d k)[i]? = some r → t.numAt ((groupsOfN (fmtNibs (rdByte d 0x18)) (cropOuts d).length k.out).getD i []) =
            r.code % 16 ^ fmtNibs (rdByte d 0x18))) ∧
    (cropOk d = false → ∃ t : State, exec (.croprs c) s = .next t ∧ t.rd (CORE_STATE_STATE c) = 2 ∧
      ((∀ p, s.coreOwner c = some p → s.classOf p ≠ 0) → SameBytes s t) ∧
      (s.on (CORE_FAULT_VALID c) = false → t.rd (CORE_FAULT_KIND c) = kDesc ∧ t.rd (CORE_FAULT_WORD c) = s.pc c))

/-! ### Transfers and the mesh (R105, R106, R125 to R161, R170, R584) -/

/-- R98, R105, R106, R135, R136, R140, R144: a transfer word with a free tag, its sides matched and in transfer-bound banks and its
local side awaiting no fill, takes its tag and sends its messages in the order its local side enumerates (an LCOPY copies at once); RWRITE
pays its credit. -/
def Obligations.TransferWords : Prop :=
  ∀ (c : Fin 256) (s : State) (w : Nat), s.issuing c w → s.tagBusy c (wTAG w) = false → s.on MEM_INJ_CTL_ARM = false →
    ∀ l r kl, s.sides c w = .ok (l, r) → s.halfKeysOf c l = .ok kl →
    (∀ k ∈ kl.filterMap (·.1), s.awaitAt c (k / 2 - coreKey c 0) = none) →
    let g := wTAG w
    let p := s.partOf c
    let e := (s.tag c g).epoch
    let own := s.ownChip
    let ps := cut (r.zip kl)
    let held (t : State) : Prop := GoesOn s t c (s.pc c + 1) ∧ t.tagBusy c g = true
    let sent (f : Piece → Nat → Msg) : List Msg := ps.filterMap fun q => q.start.map (f q)
    let clean : Prop := ∀ q ∈ ps, anyPois (s.pieceData q.loc).1 = false
    (wOp w = 0x30 → ∀ kr, s.halfKeysOf c r = .ok kr →
      let dst := kr.filterMap (·.1)
      ∃ t : State, exec (.lcopy c) s = .next t ∧ held t ∧ SameNibsBut dst s t ∧ t.msgs = s.msgs ∧
        (dst.Nodup → (∀ k ∈ kl.filterMap (·.1), k ∉ dst) → ∀ (i k x : Nat), kr[i]? = some (some k, x) → ∀ v, kl[i]? = some v →
          (t.nibAt k).1 = (match v.1 with
            | some j => (s.nibAt j).1
            | none => v.2 % 16))) ∧
    (wOp w = 0x31 → ∀ en, s.sameP c (bits w 39 32) = true → s.entryFor c (bits w 39 32) (bits w 44 40) = some en →
      let dst := bits w 39 32
      let win := bits w 44 40
      let total := s.rd (CORE_WIN_GEOM_UNITS dst win)
      let cur := s.rd (CORE_CRD_TGT_WCUR c en)
      let runs := (cut (r.zip l)).filterMap fun q => q.start.map fun h => (h, q.len)
      let units := (runs.map (·.2)).sum / 128
      s.on (CORE_WIN_BASE_VALID dst win) = true → aligned 64 (cut (r.zip l)) = true → (∀ q ∈ runs, (q.1 + q.2) / 2 ≤ 64 * total) →
      (s.on (CORE_CRD_TGT_GUARDED c en) = true → cur + units ≤ total ∧
        ∀ i q, runs[i]? = some q → q.1 = 128 * cur + ((runs.take i).map (·.2)).sum) →
      units ≤ s.rd (CORE_CRD_BAL_CREDIT c en) →
      ∃ t : State, exec (.rwrite c) s = .next t ∧ held t ∧ SameBytes s t ∧
        t.rd (CORE_CRD_BAL_CREDIT c en) = s.rd (CORE_CRD_BAL_CREDIT c en) - units ∧
        t.rd (CORE_CRD_TGT_WCUR c en) = (if s.on (CORE_CRD_TGT_GUARDED c en) then (cur + units) % max total 1 else cur) ∧
        t.msgs = s.msgs ++ sent fun q h => ⟨.req, c, dst, p, g, e, own, .remoteWrite win (h / 2) (s.pieceData q.loc).1⟩) ∧
    (wOp w = 0x32 → aligned 8 (cut (r.zip l)) = true → s.farCheck c (bits w 23 21) false false (cut (r.zip l)) = .ok () →
      ∃ t : State, exec (.tunrd c) s = .next t ∧ held t ∧ SameNibsBut (kl.filterMap (·.1)) s t ∧
        (bits w 23 21 = own → t.msgs = s.msgs ++ sent fun q h =>
          ⟨.req, c, s.epOf (h / 2), p, g, e, own, .memRead (h / 2) (q.len / 2) (q.loc.map (·.1))⟩)) ∧
    (wOp w = 0x33 → aligned 8 (cut (r.zip l)) = true → s.farCheck c (bits w 23 21) false true (cut (r.zip l)) = .ok () →
      (bit w 45 = true → bits w 23 21 = own → s.sameP c (bits w 39 32) = true) →
      let nt := if bit w 45 then some (bits w 39 32, bits w 44 40) else none
      ∃ t : State, exec (.tunwr c) s = .next t ∧ held t ∧ (clean → bits w 23 21 = own → SameBytes s t ∧ t.msgs = s.msgs ++
        sent fun q h => ⟨.req, c, s.epOf (h / 2), p, g, e, own, .memWrite (h / 2) (s.pieceData q.loc).1 nt⟩)) ∧
    (wOp w = 0x35 → aligned 64 (cut (r.zip l)) = true → s.farCheck c own true false (cut (r.zip l)) = .ok () →
      ∃ t : State, exec (.dramrd c) s = .next t ∧ held t ∧ SameNibsBut (kl.filterMap (·.1)) s t ∧
        t.msgs = s.msgs ++ sent fun q h =>
          ⟨.req, c, s.epOf (h / 2), p, g, e, own, .memRead (h / 2) (q.len / 2) (q.loc.map (·.1))⟩) ∧
    (wOp w = 0x36 → aligned 64 (cut (r.zip l)) = true → s.farCheck c own true true (cut (r.zip l)) = .ok () →
      ∃ t : State, exec (.dramwr c) s = .next t ∧ held t ∧ (clean → SameBytes s t ∧ t.msgs = s.msgs ++ sent fun q h =>
        if s.epOf (h / 2) = epHost then ⟨.rsp, epHost, c, p, g, e, own, .ack⟩
        else ⟨.req, c, s.epOf (h / 2), p, g, e, own, .memWrite (h / 2) (s.pieceData q.loc).1 none⟩))

/-- R105, R136, R139, R154: TATOM with an aligned address of the own Tun sends its request with the operands at LOCAL; RSIGNAL sends
its signal; each takes its tag. -/
def Obligations.AtomicAndSignalWords : Prop :=
  ∀ (c : Fin 256) (s : State) (w : Nat), s.issuing c w → s.tagBusy c (wTAG w) = false →
    let g := wTAG w
    let p := s.partOf c
    let e := (s.tag c g).epoch
    let own := s.ownChip
    (wOp w = 0x34 → ∀ kl, s.halfKeysOf c ((List.range 32).map fun i => (some (2 * bits w 40 20 + i), 0)) = .ok kl →
      (∀ k ∈ kl.filterMap (·.1), s.awaitAt c (k / 2 - coreKey c 0) = none) →
      let n := if bit w 18 then 8 else 4
      let a := bits w 111 64
      let d := (s.pieceData kl).1
      a % n = 0 → s.farCheck c (bits w 15 13) false true [⟨[(some (2 * a), 0)], []⟩] = .ok () →
      ∃ t : State, exec (.tatom c) s = .next t ∧ GoesOn s t c (s.pc c + 1) ∧ t.tagBusy c g = true ∧ SameBytes s t ∧
        (bits w 15 13 = own → t.msgs = s.msgs ++ [⟨.req, c, s.epOf a, p, g, e, own,
          .atomic a (bits w 17 16 == 1) (bit w 18) (leNum (d.take n)) (leNum ((d.drop 8).take n))
            (anyPois (d.take n) || (bits w 17 16 == 1 && anyPois ((d.drop 8).take n))) ((kl.headD (none, 0)).1.getD 0 / 2)⟩])) ∧
    (wOp w = 0x38 → s.sameP c (bits w 39 32) = true →
      ∃ t : State, exec (.rsignal c) s = .next t ∧ GoesOn s t c (s.pc c + 1) ∧ t.tagBusy c g = true ∧
        t = { s with regs := t.regs, core := { s.core with tags := t.core.tags }, msgs := t.msgs } ∧
        SameRegsBut ((CORE_TAG_BUSY_BUSY c).off :: seqWords c) s t ∧
        t.msgs = s.msgs ++ [⟨.req, c, bits w 39 32, p, g, e, own, .signal (bits w 44 40) (bits w 79 64)⟩])

/-- R136, R139, R359: what arrives without data: signals and notifications add to their counter, an acknowledgement pays one response, a
tag with nothing owed is freed, a response of a retired tag is only counted. -/
def Obligations.DatalessArrivals : Prop :=
  (∀ (dst src : Fin 256) (s s1 : State) (m : Msg) (cnt inc : Nat), s.awake dst = true →
    s.take (fun m => m.src == src.val && m.dst == dst.val && (match m.body with
      | .signal .. => true
      | _ => false)) = some (m, s1) → m.body = .signal cnt inc → s.coreOwner dst = some m.part →
    ∃ t : State, exec (.signalArrival dst src) s = .next t ∧ t.rd (CORE_CNT_VALUE dst cnt) = (s.rd (CORE_CNT_VALUE dst cnt) + inc) % 2 ^ 32 ∧
      SameRegsBut [(CORE_CNT_VALUE dst cnt).off] s t ∧ t = { s with regs := t.regs, msgs := t.msgs } ∧
      t.msgs = s1.msgs ++ [m.reply .ack]) ∧
  (∀ (dst : Fin 256) (src : Nat) (s s1 : State) (m : Msg) (cnt units : Nat), s.awake dst = true →
    s.take (fun m => m.src == src && m.dst == dst.val && (match m.body with
      | .notif .. => true
      | _ => false)) = some (m, s1) → m.body = .notif cnt units →
    ∃ t : State, exec (.notificationArrival dst src) s = .next t ∧
      t.rd (CORE_CNT_VALUE dst cnt) = (s.rd (CORE_CNT_VALUE dst cnt) + units) % 2 ^ 32 ∧
      SameRegsBut [(CORE_CNT_VALUE dst cnt).off] s t ∧ t = { s with regs := t.regs, msgs := t.msgs } ∧ t.msgs = s1.msgs) ∧
  (∀ (c : Fin 256) (src : Nat) (s s1 : State) (m : Msg),
    s.take (fun m => m.src == src && m.dst == c.val && s.current c m && m.body == .ack) = some (m, s1) →
    ∃ t : State, exec (.writeAckArrival c src) s = .next t ∧ (t.tag c m.tag).out = (s.tag c m.tag).out - 1 ∧ t.msgs = s1.msgs ∧
      t = { s with core := { s.core with tags := t.core.tags }, msgs := t.msgs }) ∧
  (∀ (c : Fin 256) (tag : Fin 32) (s : State), s.tagBusy c tag = true → (s.tag c tag).out = 0 → s.xferLeft c tag = false →
    s.attnTag c tag = false →
    ∃ t : State, exec (.tagComplete c tag) s = .next t ∧ (∀ g, g < 32 → t.tagBusy c g = (s.tagBusy c g && g != tag.val)) ∧
      OnlyRegs [(CORE_TAG_BUSY_BUSY c).off] s t) ∧
  (∀ (c : Fin 256) (src : Nat) (s s1 : State) (m : Msg),
    s.take (fun m => m.src == src && m.dst == c.val && !s.current c m && m.cls == .rsp && (match m.body with
      | .readData .. => true
      | .atomRes .. => true
      | .ack => true
      | .error .. => true
      | _ => false)) = some (m, s1) →
    ∃ t : State, exec (.lateResponse c src) s = .next t ∧
      t.rd (PART_FAULT_COUNT_LATE_RSP m.part) = min (s.rd (PART_FAULT_COUNT_LATE_RSP m.part) + 1) 0xFFFF ∧
      SameRegsBut [(PART_FAULT_COUNT_LATE_RSP m.part).off] s t ∧ t = { s with regs := t.regs, msgs := t.msgs } ∧ t.msgs = s1.msgs)

/-- R40, R93, R145: an error response and the guard watchdog are plan faults of the core: it stops and its first fault is recorded. -/
def Obligations.FaultArrivals : Prop :=
  (∀ (c : Fin 256) (src : Nat) (s s1 : State) (m : Msg) (kind addr : Nat),
    s.take (fun m => m.src == src && m.dst == c.val && s.current c m && (match m.body with
      | .error .. => true
      | _ => false)) = some (m, s1) → m.body = .error kind addr →
    ∃ t : State, exec (.errorResponse c src) s = .next t ∧ t.rd (CORE_STATE_STATE c) = 2 ∧ t.rd (CORE_SEQ_STATUS_STALL c) = 0 ∧
      t.on (CORE_FAULT_VALID c) = true ∧
      (s.on (CORE_FAULT_VALID c) = false → t.rd (CORE_FAULT_KIND c) = kind % 16 ∧
        t.rd (CORE_FAULT_WORD c) = (s.tag c m.tag).word % 2 ^ 24 ∧ t.rd (CORE_FAULT_ADDR_ADDR c) = addr % 2 ^ 48) ∧
      t.xferLeft c m.tag = false ∧ ((s.tag c m.tag).out ≤ 1 → m.tag < 32 → t.tagBusy c m.tag = false)) ∧
  (∀ (c : Fin 256) (s : State), s.on (CORE_GUARD_STATUS_STALLED c) = true →
    ∃ t : State, exec (.guardWatchdog c) s = .next t ∧ t.rd (CORE_STATE_STATE c) = 2 ∧ t.rd (CORE_GUARD_STATUS_CYCLES c) = 0xFFFF ∧
      (s.on (CORE_FAULT_VALID c) = false → t.rd (CORE_FAULT_KIND c) = kWatchdog) ∧
      ∀ p, s.coreOwner c = some p → ¬ (s.rd (PART_STATUS_STATE p) = stFault ∨ s.rd (PART_STATUS_STATE p) = stResetting ∨
        s.rd (PART_STATUS_STATE p) = stUnused) → t.rd (PART_STATUS_STATE p) = stFault)

/-- R126, R135, R136, R139, R152, R154: data arrives whole: a remote write to an unguarded window, read data and atomic results at their
places, and requests at their home slice; every other byte stays, and the answer leaves. -/
def Obligations.DataArrivals : Prop :=
  (∀ (dst src : Fin 256) (s s1 : State) (m : Msg) (win off : Nat) (data : List MByte), s.awake dst = true →
    s.on MEM_INJ_CTL_ARM = false →
    s.take (fun m => m.src == src.val && m.dst == dst.val && m.cls == .req && (match m.body with
      | .remoteWrite .. => true
      | _ => false)) = some (m, s1) → m.body = .remoteWrite win off data → win < 16 → s.coreOwner dst = some m.part →
    let o := s.rd (CORE_WIN_BASE_OFFSET dst win) + off
    let n := CORE_CNT_VALUE dst (s.rd (CORE_WIN_BASE_CNT dst win))
    s.boundTo dst (o / 0x20000) = pTransfer → s.boundTo dst ((o + data.length - 1) / 0x20000) = pTransfer →
    (∀ x ∈ s.core.xfers, x.core ≠ dst.val) →
    ∃ t : State, exec (.remoteWriteArrival dst src true) s = .next t ∧ SameBytesBut ((List.range data.length).map (coreKey dst o + ·)) s t ∧
      (∀ i b, data[i]? = some b → (t.byteAt (coreKey dst o + i)).1 = b.1) ∧
      t.rd n = (s.rd n + data.length / 64) % 2 ^ 32 ∧ t.msgs = s1.msgs ++ [m.reply .ack]) ∧
  (∀ (c : Fin 256) (src : Nat) (s s1 : State) (m : Msg), s.on MEM_INJ_CTL_ARM = false →
    s.take (fun m => m.src == src && m.dst == c.val && s.current c m && (match m.body with
      | .readData .. => true
      | .atomRes .. => true
      | _ => false)) = some (m, s1) →
    ∃ t : State, exec (.readDataArrival c src true) s = .next t ∧ (t.tag c m.tag).out = (s.tag c m.tag).out - 1 ∧ t.msgs = s1.msgs ∧
      (∀ back data, m.body = .readData back data → SameNibsBut (back.filterMap id) s t ∧
        ((back.filterMap id).Nodup → ∀ (i k : Nat) (b : MByte), back[i]? = some (some k) → data[i / 2]? = some b →
          (t.nibAt k).1 = b.1.toNat / 16 ^ (i % 2) % 16)) ∧
      (∀ back w64 old p, m.body = .atomRes back w64 old p →
        let n := if w64 then 8 else 4
        SameBytesBut ((List.range n).map (back + ·)) s t ∧ ∀ i, i < n → (t.byteAt (back + i)).1.toNat = old / 256 ^ i % 256))

/-- R152, R154, R160, R346: a home slice or an LPDDR controller serves the request that a source sent it: a read answers with the bytes, a
write stores them before it is acknowledged, an atomic stores its result and answers the old value. -/
def Obligations.HomeService : Prop :=
  ∀ (s s1 : State) (m : Msg) (wr : Bool) (a : Nat), s.on MEM_INJ_CTL_ARM = false → m.body.addr? = some (wr, a) →
    s.checkByte m.part wr a = .ok → m.src < 840 →
    let good (t : State) : Prop :=
      (∀ len back, m.body = .memRead a len back → SameBytes s t ∧
        t.msgs = s1.msgs ++ [m.reply (.readData back ((s.runKeys a len).map s.byteAt))]) ∧
      (∀ data nt, m.body = .memWrite a data nt → (∀ x, nt = some x → x.1 < 840) →
        let ks := s.runKeys a data.length
        SameBytesBut ks s t ∧ (ks.Nodup → ∀ (i k : Nat) (b : MByte), ks[i]? = some k → data[i]? = some b → (t.byteAt k).1 = b.1) ∧
        t.msgs = s1.msgs ++ m.reply .ack :: (match nt with
          | some x => [⟨.rsp, m.dst, x.1, m.part, 0, false, s.ownChip, .notif x.2 (max (data.length / 64) 1)⟩]
          | none => [])) ∧
      (∀ swap w64 x y p back, m.body = .atomic a swap w64 x y p back →
        let n := if w64 then 8 else 4
        let ks := s.runKeys a n
        let old := leNum (ks.map s.byteAt)
        let new := if swap then (if old = x then y else old) else (old + x) % 256 ^ n
        SameBytesBut ks s t ∧ (ks.Nodup → ∀ i k, ks[i]? = some k → (t.byteAt k).1.toNat = new / 256 ^ i % 256) ∧
        t.msgs = s1.msgs ++ [m.reply (.atomRes back w64 old (anyPois (ks.map s.byteAt)))])
    (∀ (slice : Fin 256) (src : Nat), s.memory.filling = false → s.domState (tunDom (slice.val / 16)) = 0 →
      (∀ p, s.tunOwner (slice.val / 16) = some p → s.rd (PART_STATUS_STATE p) ≠ stResetting) →
      s.take (fun m => m.src == src && m.dst == epSlice slice && m.cls == .req) = some (m, s1) →
      ∃ t : State, exec (.tunRequest slice src true) s = .next t ∧ good t) ∧
    (∀ (ctl : Fin 4) (n : Nat), (s.msgs.filter fun m => m.dst == epLp ctl && m.cls == .req && !s.crosses m)[n]? = some m →
      (∀ x ∈ (s.msgs.filter fun m => m.dst == epLp ctl && m.cls == .req && !s.crosses m).take n,
        (x.body.addr?.map fun y => y.2 / 128) ≠ some (a / 128)) → s.lpReady a = true →
      s.take (fun x => x == m) = some (m, s1) →
      ∃ t : State, exec (.lpddrRequest ctl n true) s = .next t ∧ good t)

/-- R170, R584: the third failure of a flit in a row takes its link out of service and reports it; a REQ message that crosses a failed
link is discarded and its source gets an error response of kind LINK. -/
def Obligations.FailedLinks : Prop :=
  (∀ (x y : Fin 16) (dir : Fin 4) (s : State),
    (∃ t : State, exec (.flitParityFail x y dir 2) s = .next t ∧ (x.val, y.val, dir.val) ∈ t.memory.failed ∧
      (∀ l ∈ s.memory.failed, l ∈ t.memory.failed) ∧ t.on MEM_EVENT_MESH_LINK = true ∧
      (bit (s.rd SAF_CAUSE_EN_EN) 7 = false → SameBytes s t ∧ t.on SAF_WARN_MASKED = true)) ∧
    ∀ n : Fin 3, n.val < 2 → exec (.flitParityFail x y dir n) s = .next s) ∧
  (∀ (n : Nat) (s : State) (m : Msg), (s.msgs.filter s.crosses)[n]? = some m → m.cls = .req → m.src < 840 →
    ∃ t : State, exec (.failedLinkDiscard n) s = .next t ∧ t.on MEM_EVENT_MESH_LINK = true ∧ OnlyRegs [MEM_EVENT_MESH_LINK.off] { s with msgs := t.msgs } t ∧
      t.msgs = s.msgs.erase m ++ [⟨.rsp, m.src, m.src, m.part, m.tag, m.epoch, m.chip, .error kLink 0⟩])

/-! ### Attention (R185 to R212) -/

/-- R185, R186, R190, R197, R210: an ATTN whose descriptor is legal and whose tags are free runs its operation on its core; where that ends, its
tags are free, the engines idle and the word has issued; where it waits for a claim, the claim stands in the page's slice and the tags
stay held. -/
def Obligations.AttentionCommands : Prop :=
  ∀ (c : Fin 256) (s : State) (w o : Nat) (ks : List Nat), s.issuing c w → s.attnBusy c = false → wOp w = 0x18 → bits w 10 8 = o → o < 6 →
    s.runLocal c pVector (bits w 32 12) 128 = .ok ks → anyPois (ks.map s.byteAt) = false →
    let d := leNum (ks.map s.byteAt)
    attnOk o d = true → (∀ g ∈ aTags d, s.tagBusy c g = false) →
    (opAttends o = true ∨ o = 5 → s.boundTo c (aSA d) = pTransfer ∧ s.boundTo c (aSB d) = pTransfer) →
    let i : Instr := match o with
      | 0 => .attend c
      | 1 => .append c
      | 2 => .appendAttend c
      | 3 => .fork c
      | 4 => .releasePages c
      | _ => .movePages c
    let s1 := (aTags d).foldl (fun a t => a.holdTag c t 0 (s.pc c)) (s.readKeys 128 ks).2
    let s2 := (s1.wr (CORE_SEQ_STATUS_M_BUSY c) 1).wr (CORE_SEQ_STATUS_V_BUSY c) 1
    ∀ r, ((aWork c o d (aSeqs d) 0).run.run ⟨s2, ⟨0, 0, 0, 0, 0, 0, 0⟩, []⟩ = (.ok none, r) →
        ∃ t : State, exec i s = .next t ∧ GoesOn r.s t c (r.s.pc c + 1) ∧ SameBytes r.s t ∧ t.attnBusy c = false ∧
          (∀ g ∈ aTags d, t.tagBusy c g = false) ∧ t.on (CORE_SEQ_STATUS_M_BUSY c) = false ∧ t.on (CORE_SEQ_STATUS_V_BUSY c) = false) ∧
      (∀ q row cl, (aWork c o d (aSeqs d) 0).run.run ⟨s2, ⟨0, 0, 0, 0, 0, 0, 0⟩, []⟩ = (.ok (some (q, row, cl)), r) →
        ∃ t : State, exec i s = .next t ∧ GoesOn r.s t c (r.s.pc c + 1) ∧ SameBytes r.s t ∧ t.attnBusy c = true ∧
          t.core.claims = r.s.core.claims ++ [cl] ∧ ∀ g, g < 32 → t.tagBusy c g = r.s.tagBusy c g)

/-- R206, R207, R208: a key tile that masks every row of a query tile leaves the running states of every head as they are, wherever it
stands among the tiles; rows are updated one by one. -/
def Obligations.MaskedTiles : Prop :=
  ∀ (d rows : Nat) (q : Nat → Nat → Nat) (wk wv : Array Nat) (a b : List KeyTile) (kt : KeyTile),
    kt.unm.length = rows → (∀ u ∈ kt.unm, ∀ x ∈ u, x = false) →
    (headRun d rows q wk wv (a ++ kt :: b)).1 = (headRun d rows q wk wv (a ++ b)).1

/-- R197, R198: a claim alone at its page that finds RC = 1 lets its job go on in place; the oldest copy of a slice completes, and the page whose
count came to 0 is pushed after it. -/
def Obligations.PageClaims : Prop :=
  (∀ (slice : Fin 256) (s : State) (cl : Claim) (j : AttnJob) (rs : ARun), s.core.claims.find? (fun x => x.slice == slice.val) = some cl →
    s.core.attns.find? (fun x => x.core == cl.core) = some j →
    let s0 := s.mCore fun x => { x with claims := x.claims.filter fun y => !([cl].contains y) }
    (aNum cl.core (rcAddr j.desc (cl.slice, cl.page)) 2).run.run ⟨s0, ⟨0, 0, 0, 0, 0, 0, 0⟩, []⟩ = (.ok 1, rs) →
    ∀ r, (do
        let (_, nq, _) ← aLen cl.core j.desc cl.seq
        aAppendRest cl.core j.desc cl.seq j.row cl.ctx nq
        aWork cl.core j.oper j.desc ((aSeqs j.desc).filter fun q => decide (cl.seq < q)) (j.row + nq) :
          AM (Option (Nat × Nat × Claim))).run.run ⟨rs.s, j.cnt, []⟩ = (.ok none, r) →
      ∃ t : State, exec (.pageClaim slice 1) s = .next t ∧ SameBytes r.s t ∧ t.attnBusy cl.core = false ∧
        (∀ x ∈ t.core.claims, x.core ≠ cl.core) ∧ ∀ g ∈ aTags j.desc, g < 32 → t.tagBusy cl.core g = false) ∧
  (∀ (slice : Fin 256) (s : State) (i : Nat) (x : PageCopy), s.on MEM_INJ_CTL_ARM = false →
    s.core.copies.findIdx? (fun x => x.slice == slice.val) = some i → s.core.copies[i]? = some x →
    ∃ t : State, exec (.pageCopyDone slice) s = .next t ∧ t.core.copies = s.core.copies.eraseIdx i ∧ t.msgs = s.msgs ∧
      (x.pool = 0 → t = { s with core := t.core }) ∧
      (x.pool ≠ 0 →
        let np := leNum ((List.range 4).map fun n => s.byteAt (x.pool + n))
        let top := leNum ((List.range 4).map fun n => s.byteAt (x.pool + 4 + n))
        let e := x.pool + 0x40 + 2 * np + 2 * top
        SameBytesBut ((List.range 2).map (e + ·) ++ (List.range 4).map (x.pool + 4 + ·)) s t ∧
        leNum ((List.range 2).map fun n => t.byteAt (e + n)) = x.page % 2 ^ 16 ∧
        leNum ((List.range 4).map fun n => t.byteAt (x.pool + 4 + n)) = (top + 1) % 2 ^ 32))

/-! ### Memory integrity (R162 to R184) -/

/-- R163, R164: the syndrome classes, the data each returns, poison form, and what the code tells apart: one-bit and two-bit errors of
clean words, and a one-bit error on a word in poison form, whose granule stays poisoned. -/
def Obligations.CodeClasses : Prop :=
  let weight (x : Nat) := (setBitsOf 8 x).length
  let col (i : Nat) := if i < 64 then hcol i else 2 ^ (i - 64)
  (∀ i, i < 56 → hcol i = ((List.range 256).filter fun x => decide (weight x = 3)).getD i 0) ∧
  (∀ i, 56 ≤ i → i < 64 → hcol i = ((List.range 256).filter fun x => decide (weight x = 5)).getD (i - 56) 0) ∧
  (∀ syn, syn < 256 → classify syn =
    if syn = 0 then .clean
    else match (List.range 64).find? fun i => decide (syn = hcol i) with
      | some i => .dataBit i
      | none => if weight syn = 1 then .checkBit else if syn = 0x7F then .poison else .bad) ∧
  (∀ (s : State) (k : Nat),
    (∀ i, classify (s.synd k) = .dataBit i → s.wordAt k = s.rawWord k ^^^ 2 ^ i) ∧
    ((∀ i, classify (s.synd k) ≠ .dataBit i) → s.wordAt k = s.rawWord k)) ∧
  (∀ d, classify ((checkByte d ^^^ 0x7F) ^^^ checkByte d) = .poison) ∧
  (∀ (d i : Nat), i < 64 → checkByte d ^^^ checkByte (d ^^^ 2 ^ i) = hcol i) ∧
  (∀ i, i < 72 → weight (col i) = 1 ∨ weight (col i) = 3 ∨ weight (col i) = 5) ∧
  (∀ i j, i < 72 → j < 72 → i ≠ j → weight (col i ^^^ col j) % 2 = 0 ∧ classify (col i ^^^ col j) = .bad) ∧
  (∀ i, i < 72 → weight (0x7F ^^^ col i) % 2 = 0 ∧ classify (0x7F ^^^ col i) = .bad) ∧
  (∀ (s : State) (g w : Nat), w ∈ granuleWords g → classify (s.synd w) = .bad → s.poisoned g = true)

/-- R126, R127, R152, R167: bytes just stored read back, whatever the words held before, and all others read as before. -/
def Obligations.ReadAfterWrite : Prop :=
  ∀ (s : State) (kb : List (Nat × MByte)), s.on MEM_INJ_CTL_ARM = false → (kb.map (·.1)).Nodup →
    let t := s.writeKeys kb
    (∀ k b, (k, b) ∈ kb → (t.byteAt k).1 = b.1 ∧ (b.2 = true → (t.byteAt k).2 = true)) ∧ SameBytesBut (kb.map (·.1)) s t ∧
    t.msgs = s.msgs ∧ t.core = s.core

/-- R174 to R178: a visit of the scrubber or of a triggered pass writes corrections back, rewrites a new uncorrectable granule in poison form
and leaves the rest; each moves on by one granule; a finished pass writes its record. -/
def Obligations.Scrubbing : Prop :=
  let acted (s t : State) (g : Nat) : Prop :=
    (∀ k, k / 64 * 64 ≠ g → t.byteAt k = s.byteAt k) ∧
    (match s.found g with
      | .clean => SameBytes s t
      | .fixed n => (∀ x ∈ granuleWords g, t.synd x = 0 ∧ t.rawWord x = s.wordAt x) ∧
          t.rd (instCE (instOf g)) = min (s.rd (instCE (instOf g)) + n) 0xFFFFFFFF
      | .newBad => (∀ x ∈ granuleWords g, t.synd x = 0x7F ∧ t.rawWord x = s.rawWord x) ∧
          t.rd (instUE (instOf g)) = min (s.rd (instUE (instOf g)) + 1) 0xFFFFFFFF ∧ t.on MEM_EVENT_UE = true
      | .carried => SameBytes s t ∧ t.rd (instPS (instOf g)) = min (s.rd (instPS (instOf g)) + 1) 0xFFFFFFFF)
  (∀ (i : Fin 528) (s : State), s.instRate i ≠ 0 → s.domState (s.instDom i) = 0 → (i.val < 512 → s.memory.filling = false) →
    (512 ≤ i.val → s.scrubPos i / 2 ^ 26 < s.rd MEM_LP_FILL_FILLED) → s.memory.excluded.contains i.val = false →
    s.scrubPos i % 64 = 0 → s.scrubPos i < s.instSize i →
    ∃ t : State, exec (.scrubVisit i) s = .next t ∧ acted s t (instKey i + s.scrubPos i) ∧
      t.scrubPos i = if s.instSize i ≤ s.scrubPos i + 64 then 0 else s.scrubPos i + 64) ∧
  (∀ (n : Fin 4) (s : State) (g : Nat), s.memKey (s.rd (MEM_TS_BASE_ADDR n) + 64 * (s.tsCtx n).done) = some g → g % 64 = 0 →
    s.on (MEM_TS_CTL_GO n) = true → (s.tsCtx n).done < s.rd (MEM_TS_LEN_GRANULES n) → s.memory.filling = false →
    s.lpReady (s.rd (MEM_TS_BASE_ADDR n) + 64 * (s.tsCtx n).done) = true →
    ∃ t : State, exec (.tsGranule n) s = .next t ∧ acted s t g ∧ (t.tsCtx n).done = (s.tsCtx n).done + 1 ∧
      (t.tsCtx n).ce + (t.tsCtx n).ue + (t.tsCtx n).ps = (s.tsCtx n).ce + (s.tsCtx n).ue + (s.tsCtx n).ps + (match s.found g with
        | .clean => 0
        | .fixed k => k
        | _ => 1)) ∧
  (∀ (n : Fin 4) (s : State), s.on (MEM_TS_CTL_GO n) = true → (s.tsCtx n).done = s.rd (MEM_TS_LEN_GRANULES n) →
    s.on MEM_INJ_CTL_ARM = false →
    let out := s.rd (MEM_TS_OUT_ADDR n)
    let ks := s.runKeys out 192
    ∃ t : State, exec (.tsDone n) s = .next t ∧ t.on (MEM_TS_CTL_GO n) = false ∧ t.on (MEM_TS_CTL_DONE n) = true ∧ t.on MEM_EVENT_TS_DONE = true ∧
      (out < 0x8000000000 → SameBytesBut ks s t ∧ (ks.Nodup → ∀ (i k : Nat) (b : MByte), ks[i]? = some k →
        (tsRecord (s.tsCtx n) s.now)[i]? = some b → (t.byteAt k).1 = b.1)))

/-- R159, R177, R180, R182, R184: the commands of MEM: a pass starts once its range passes the checks, an injection is armed with a BIT of its
MODE, a window is enabled by the check of R159 and otherwise left with the reason shown, and fills zero what they fill. -/
def Obligations.MemoryCommands : Prop :=
  (∀ (n : Fin 4) (v : BitVec 32) (s : State), s.blockOff ((MEM_TS_CTL_GO n).off >>> 20) = false → s.on (MEM_TS_CTL_GO n) = false → bit v.toNat 31 = true → bits v.toNat 29 28 ≠ 3 →
    bits v.toNat 4 0 ≤ 24 →
    let e := s.tsCheck .image n (bits v.toNat 29 28)
    ∃ t : State, exec (.memTsGo .image n v) s = .next t ∧ t.rd (MEM_TS_CTL_ERR n) = e ∧ t.on (MEM_TS_CTL_GO n) = decide (e = 0) ∧
      SameRegsBut [(MEM_TS_CTL_GO n).off] s t ∧ SameBytes s t ∧ (e = 0 → (t.tsCtx n).done = 0 ∧ (t.tsCtx n).start = s.now)) ∧
  (∀ (v : BitVec 32) (s : State), s.blockOff (MEM_INJ_CTL_ARM.off >>> 20) = false → s.locked MEM_INJ_CTL_ARM.off = false →
    let b := bits v.toNat 22 16
    let m := bits v.toNat 30 29
    ∃ t : State, exec (.memInjArm .image v) s = .next t ∧
      if (m = 0 ∧ 63 < b) ∨ (m = 1 ∧ 7 < b) ∨ (m = 2 ∧ 70 < b)
      then t.on MEM_EVENT_CFG_ERR = true ∧ OnlyRegs [MEM_EVENT_CFG_ERR.off] s t
      else t.rd MEM_INJ_CTL_ARM = bits v.toNat 31 31 ∧ t.rd MEM_INJ_CTL_MODE = m ∧ t.rd MEM_INJ_CTL_BIT = b ∧
        OnlyRegs [MEM_INJ_CTL_ARM.off] s t) ∧
  (∀ (n : Fin 16) (v : BitVec 32) (s : State), s.blockOff ((MEM_LPW_CFG_EN n).off >>> 20) = false → s.locked (MEM_LPW_CFG_EN n).off = false → s.on (MEM_LPW_CFG_EN n) = false →
    bit v.toNat 31 = true →
    ∃ t : State, exec (.memLpwCfgWrite .image n v) s = .next t ∧
      if s.lpwCheck n v.toNat = 0
      then t.on (MEM_LPW_CFG_EN n) = true ∧ t.rd (MEM_LPW_CFG_OWNER n) = bits v.toNat 27 24 ∧ t.rd (MEM_LPW_CFG_DEV n) = bits v.toNat 23 23 ∧
        t.rd (MEM_LPW_CFG_SIZE n) = bits v.toNat 21 16 ∧ t.rd (MEM_LPW_CFG_BASE n) = bits v.toNat 13 8 ∧
        t.rd (MEM_LPW_CFG_GRAN n) = bits v.toNat 1 0 ∧ OnlyRegs [(MEM_LPW_CFG_EN n).off] s t
      else t.on MEM_LPW_ERR_ERR = true ∧ t.rd MEM_LPW_ERR_WIN = n.val ∧ t.rd MEM_LPW_ERR_REASON = s.lpwCheck n v.toNat ∧
        OnlyRegs [MEM_LPW_ERR_ERR.off] s t) ∧
  (∀ s : State, s.memory.filling = true → s.sys.tested = true → (s.sys.stage ≠ 7 ∨ s.sys.minimal = true ∨ s.parityFailed = false) →
    ∃ t : State, exec .fillComplete s = .next t ∧ t.memory.filling = false ∧ (∀ k, k < 2 ^ 48 → t.byteAt k = (0, false)) ∧
      (∀ k, 2 ^ 48 ≤ k → t.byteAt k = s.byteAt k)) ∧
  (∀ s : State, (∀ ch, ch < 16 → bit s.memory.lpTrained ch = true ∨ 512 + ch ∈ s.memory.excluded) →
    s.rd MEM_LP_FILL_FILLED < s.lpDensity →
    let r := s.rd MEM_LP_FILL_FILLED
    ∃ t : State, exec .lpddrRegionFilled s = .next t ∧ t.rd MEM_LP_FILL_FILLED = r + 1 ∧
      (r + 1 = s.lpDensity → t.on MEM_LP_FILL_DONE = true ∧ t.on MEM_EVENT_FILL_DONE = true) ∧
      (∀ ch a, ch < 16 → r * 2 ^ 26 ≤ a → a < (r + 1) * 2 ^ 26 → t.byteAt (lpKey ch a) = (0, false)) ∧
      (∀ k, k < 2 ^ 48 → t.byteAt k = s.byteAt k) ∧ SameRegsBut [MEM_LP_FILL_FILLED.off, MEM_EVENT_FILL_DONE.off] s t)

/-! ### Ingest, decoding and pre-processing (R213 to R252) -/

/-- R214, R216, R218, R233 to R236: a frame opens at FS and closes at FE; whole image lines are delivered as they came, damaged ones are replaced
and flagged; a bad header is counted; MISSING is raised once it is due. -/
def Obligations.CameraFrames : Prop :=
  (∀ (n : Fin 64) (s : State), s.csiLive (n.val / 4) = true → s.on (ING_STR_CFG_EN n) = true →
    let per := s.rd (ING_STR_PERIOD_VALUE n)
    let tol := s.rd (ING_STR_TOL_VALUE n)
    ∃ t : State, exec (.frameStart n) s = .next t ∧ (t.str n).lastFs = some s.stamp ∧ (t.str n).first = ((s.str n).first && (s.str n).frame.isNone) ∧
      (t.str n).missAt = (if per = 0 then none else some ((s.stamp + per + tol) % 2 ^ 64)) ∧
      (∃ f, (t.str n).frame = some f ∧ f.fs = s.stamp ∧ f.lines = [] ∧ f.flags =
        (match (s.str n).lastFs with
          | some p =>
            let dl := (s.stamp + 2 ^ 64 - p) % 2 ^ 64
            if per = 0 ∨ (t.str n).first = true then 0 else if dl + tol < per then fEarly else if per + tol < dl then fLate else 0
          | none => 0)) ∧ (∀ m, m ≠ n.val → t.str m = s.str m) ∧
      (s.fed n = [] → t = { s with vis := { s.vis with streams := t.vis.streams } })) ∧
  (∀ (n : Fin 64) (s : State) (f : IngFrame), s.csiLive (n.val / 4) = true → (s.str n).frame = some f →
    let h := s.rd (ING_STR_GEOM_HEIGHT n)
    let fill := f.lines.getLast?.getD (List.replicate (dtComps (s.rd (ING_STR_CFG_DT n)) * s.rd (ING_STR_GEOM_WIDTH n)) 0)
    ∃ t : State, exec (.frameEnd n) s = .next t ∧ (t.str n).frame = none ∧ (t.str n).first = false ∧ (t.str n).lastFs = (s.str n).lastFs ∧
      (t.str n).hist = (s.gridHash n (f.lines ++ List.replicate (h - f.lines.length) fill) :: (s.str n).hist).take 4 ∧
      ∀ m, m ≠ n.val → t.str m = s.str m) ∧
  (∀ (p : Fin 16) (k : CsiPkt) (s : State), s.csiLive p = true → k.hdr ≠ .bad → k.dt.toNat = s.rd (ING_STR_CFG_DT (4 * p.val + k.vc.val)) →
    0x1E ≤ k.dt.toNat ∧ (k.dt.toNat = 0x1E ∨ k.dt.toNat = 0x24 ∨ (0x2A ≤ k.dt.toNat ∧ k.dt.toNat ≤ 0x2E)) →
    let n := 4 * p.val + k.vc.val
    s.on (ING_STR_CFG_EN n) = true → ∀ f, (s.str n).frame = some f → f.lines.length < s.rd (ING_STR_GEOM_HEIGHT n) →
    let whole := k.wc.toNat = lineBytes (k.dt.toNat) (s.rd (ING_STR_GEOM_WIDTH n))
    let fill := f.lines.getLast?.getD (List.replicate (dtComps (k.dt.toNat) * s.rd (ING_STR_GEOM_WIDTH n)) 0)
    ∃ (t : State) (g : IngFrame), exec (.csiPacket p k) s = .next t ∧ (t.str n).frame = some g ∧ g.received = f.received + 1 ∧
      (k.crcOk = true → whole → g.lines = f.lines ++ [k.comps] ∧ g.flags = f.flags ∧ g.replaced = f.replaced) ∧
      (k.crcOk = false → g.lines = f.lines ++ [fill] ∧ g.flags = f.flags ||| fCrcErr ∧ g.replaced = f.replaced + 1) ∧
      (k.crcOk = true → ¬ whole → g.lines = f.lines ++ [fill] ∧ g.flags = f.flags ||| fLineLen ∧ g.replaced = f.replaced + 1)) ∧
  (∀ (p : Fin 16) (k : CsiPkt) (s : State), s.csiLive p = true → k.hdr = .bad →
    ∃ t : State, exec (.csiPacket p k) s = .next t ∧ t.rd (ING_PORT_ERRCNT_UNCORR p) = min (s.rd (ING_PORT_ERRCNT_UNCORR p) + 1) 0xFFFF ∧
      t.on (ING_PORT_STAT_HDR_UNCORR p) = true ∧ t.on ING_EVENT_PORT_ERR = true ∧
      SameRegsBut [(ING_PORT_ERRCNT_UNCORR p).off, (ING_PORT_STAT_HDR_UNCORR p).off, ING_EVENT_PORT_ERR.off] s t) ∧
  (∀ (n : Fin 64) (s : State) (m : Nat), (s.str n).missAt = some m → s.on (ING_STR_CFG_EN n) = true → m < s.stamp →
    ∃ t : State, exec (.missing n) s = .next t ∧ t.on (ING_STR_STAT_MISSING n) = true ∧ t.on ING_EVENT_MISSING = true ∧
      t.str n = { s.str n with missAt := some ((m + s.rd (ING_STR_PERIOD_VALUE n)) % 2 ^ 64) } ∧
      SameRegsBut [(ING_STR_STAT_MISSING n).off, ING_EVENT_MISSING.off] s t ∧
      t.msgs = s.msgs ++ [⟨.saf, srcIng, epSaf, 0, 0, false, s.ownChip, .frame n 0 true⟩] ∧ SameBytes s t)

/-- R217, R220, R221, R252: streams, camera sync outputs and contexts are switched on and off: a stream while off takes its settings, on only a
write that clears EN and nothing else; a pulse starts when its time is reached, and NEXT moves by whole periods to the first value not yet
passed, the periods skipped counted. -/
def Obligations.CameraControl : Prop :=
  (∀ (n : Fin 64) (v : BitVec 32) (s : State), s.blockOff ((ING_STR_CFG_EN n).off >>> 20) = false → s.locked (ING_STR_CFG_EN n).off = false → bits v.toNat 29 27 ≤ 3 →
    (bits v.toNat 5 0 = 0x1E ∨ bits v.toNat 5 0 = 0x24 ∨ (0x2A ≤ bits v.toNat 5 0 ∧ bits v.toNat 5 0 ≤ 0x2E)) →
    ∃ t : State, exec (.ingStrCfgWrite .image n v) s = .next t ∧
      if s.on (ING_STR_CFG_EN n) then
        (if v.toNat = s.word (ING_STR_CFG_EN n).off - 2 ^ 31 then t.on (ING_STR_CFG_EN n) = false ∧ t.str n = strReset n
          else bit v.toNat 31 = true → t.on ING_EVENT_CFG_REJ = true ∧ OnlyRegs [ING_EVENT_CFG_REJ.off] s t)
      else if bit v.toNat 31 = true ∧ s.strLegal n = false then t.on ING_EVENT_CFG_REJ = true ∧ OnlyRegs [ING_EVENT_CFG_REJ.off] s t
      else t.rd (ING_STR_CFG_EN n) = bits v.toNat 31 31 ∧ t.rd (ING_STR_CFG_DT n) = bits v.toNat 5 0 ∧
        t.rd (ING_STR_CFG_TS n) = bits v.toNat 29 27 ∧ t.rd (ING_STR_CFG_CTX0 n) = bits v.toNat 14 8 ∧
        t.rd (ING_STR_CFG_CTX1 n) = bits v.toNat 22 16 ∧ OnlyRegs [(ING_STR_CFG_EN n).off] s t) ∧
  (let moved (s t : State) (n first r per : Nat) : Prop :=
      ∃ k, t.camNext n = first + k * per ∧ r ≤ first + k * per ∧ (k = 0 ∨ first + (k - 1) * per < r) ∧
        t.rd (ING_SYNC_STAT_SKIPPED n) = min (s.rd (ING_SYNC_STAT_SKIPPED n) + k) 0xFFFFFFFF
   (∀ (n : Fin 16) (v : BitVec 32) (s : State), s.blockOff ((ING_SYNC_CFG_EN n).off >>> 20) = false → s.on (ING_SYNC_CFG_EN n) = false → bit v.toNat 31 = true → bits v.toNat 29 27 ≤ 4 →
      1 ≤ bits v.toNat 15 0 → 8 * bits v.toNat 15 0 < s.rd (ING_SYNC_PERIOD_PERIOD n) →
      ∃ t : State, exec (.camsyncEnable .image n v) s = .next t ∧ t.on (ING_SYNC_CFG_EN n) = true ∧ t.rd (ING_SYNC_CFG_TS n) = bits v.toNat 29 27 ∧
        t.rd (ING_SYNC_CFG_WIDTH n) = bits v.toNat 15 0 ∧
        moved s t n (s.rd (ING_SYNC_START_START n)) (s.timeAt (bits v.toNat 29 27) s.now) (s.rd (ING_SYNC_PERIOD_PERIOD n))) ∧
   (∀ (n : Fin 16) (s : State), s.on (ING_SYNC_CFG_EN n) = true → s.camNext n ≤ s.timeAt (s.rd (ING_SYNC_CFG_TS n)) s.stamp →
      1 ≤ s.rd (ING_SYNC_PERIOD_PERIOD n) →
      ∃ t : State, exec (.camsyncPulse n) s = .next t ∧ mget (fun _ => false) t.tim.camOut n = true ∧
        mget (fun _ => 0) t.tim.camEnd n = (s.stamp + 8 * s.rd (ING_SYNC_CFG_WIDTH n)) % 2 ^ 64 ∧
        moved s t n (s.camNext n + s.rd (ING_SYNC_PERIOD_PERIOD n)) (s.timeAt (s.rd (ING_SYNC_CFG_TS n)) s.stamp)
          (s.rd (ING_SYNC_PERIOD_PERIOD n)) ∧
        SameRegsBut [(ING_SYNC_STAT_SKIPPED n).off] s t)) ∧
  (∀ (n : Fin 16) (s : State), mget (fun _ => false) s.tim.camOut n = true → mget (fun _ => 0) s.tim.camEnd n ≤ s.now →
    ∃ t : State, exec (.camsyncPulseEnd n) s = .next t ∧ mget (fun _ => false) t.tim.camOut n = false ∧
      (∀ m, m ≠ n.val → mget (fun _ => false) t.tim.camOut m = mget (fun _ => false) s.tim.camOut m) ∧
      t = { s with tim := { s.tim with camOut := t.tim.camOut } })

/-- R223, R226 to R228, R247, R252: enabling a context whose descriptor passes every check reads it in; disabling one discards it; a stripe whose
rows are written is notified to each enabled target, in order. -/
def Obligations.PreContexts : Prop :=
  (∀ (x : Fin 128) (v : BitVec 32) (s : State), s.blockOff ((PRE_CTX_CFG_EN x).off >>> 20) = false → s.locked (PRE_CTX_CFG_EN x).off = false → s.on (PRE_CTX_CFG_EN x) = false → bit v.toNat 31 = true →
    let p := bits v.toNat 23 20
    let a := s.rd (PRE_CTX_DESC_ADDR x)
    let bytes := (s.runKeys a 256).map s.byteAt
    let d := leNum bytes
    let used := ((List.range 128).filter fun y => s.rd (PRE_CTX_CFG_PIPE y) = bits v.toNat 26 24).foldl (fun acc y =>
      acc + (match s.ctx y with
        | some c => lineMem c.desc.toNat
        | none => 0)) 0
    s.checkRun p false a 256 = .ok → anyPois bytes = false →
    (pcOk d = true → (pcSrc d = false → ∀ q ∈ s.feeders x, s.rd (ING_STR_GEOM_WIDTH q) = pcInW d ∧ s.rd (ING_STR_GEOM_HEIGHT q) = pcInH d) →
      s.ctxOwned p d = true → s.pipeMixed x p (bits v.toNat 26 24) = false → used + lineMem d ≤ 2 ^ 21 →
      ∃ t : State, exec (.preCtxEnable .image x v) s = .next t ∧ t.on (PRE_CTX_CFG_EN x) = true ∧ t.rd (PRE_CTX_CFG_PIPE x) = bits v.toNat 26 24 ∧
        t.ctx x = some ⟨BitVec.ofNat 2048 d, 0, 0, []⟩ ∧ (∀ y, y ≠ x.val → t.ctx y = s.ctx y) ∧ SameBytes s t ∧ t.msgs = s.msgs) ∧
    (pcOk d = false → ∃ t : State, exec (.preCtxEnable .image x v) s = .next t ∧ t.on PRE_EVENT_DESC = true ∧ t.on (PRE_CTX_CFG_EN x) = false ∧
      t.vis = s.vis ∧ SameBytes s t)) ∧
  (∀ (x : Fin 128) (v : BitVec 32) (s : State), s.blockOff ((PRE_CTX_CFG_EN x).off >>> 20) = false → s.locked (PRE_CTX_CFG_EN x).off = false → s.on (PRE_CTX_CFG_EN x) = true →
    v.toNat = s.word (PRE_CTX_CFG_EN x).off - 2 ^ 31 →
    ∃ t : State, exec (.preCtxDisable .image x v) s = .next t ∧ t.on (PRE_CTX_CFG_EN x) = false ∧ t.ctx x = none ∧
      (∀ y, y ≠ x.val → t.ctx y = s.ctx y) ∧ SameRegsBut [(PRE_CTX_CFG_EN x).off] s t ∧ SameBytes s t ∧ t.msgs = s.msgs) ∧
  (∀ (x : Fin 128) (s : State) (c : PreCtx) (f : PreFrame) (rest : List PreFrame), s.ctx x = some c → c.frames = f :: rest →
    let d := c.desc.toNat
    let k := f.notified
    let units := pcStripeRows d k * pcPitch d / 64
    k < pcStripes d → k * pcStripe d + pcStripeRows d k ≤ f.rows →
    ∃ t : State, exec (.stripeNotify x) s = .next t ∧
      (s.msgs ++ ((List.range 4).filter fun i => (pcNote d i).1).map fun i =>
        ⟨.rsp, srcPre, (pcNote d i).2.1, s.ctxPart x, 0, false, s.ownChip, .notif (pcNote d i).2.2 units⟩) <+: t.msgs ∧
      (k + 1 < pcStripes d → t.ctx x = some { c with frames := { f with notified := k + 1 } :: rest } ∧ t.regs = s.regs ∧ SameBytes s t))

/-- R237, R252: the registers of a queue of DEC, PRE or SOL: a new producer index reaches an enabled queue, from PIDX or the producer word, and a
queue is disabled by a write that clears EN and leaves the rest. -/
def Obligations.QueueRegisters : Prop :=
  (∀ (i : Fin 48) (v : BitVec 32) (s : State),
    let b := vecQueue i
    s.blockOff (b >>> 20) = false → s.locked b = false → s.on (qEn b) = true → v.toNat = s.word b - 2 ^ 31 →
    6 ≤ bits v.toNat 19 15 ∧ bits v.toNat 19 15 ≤ 20 → 4 ≤ bits v.toNat 3 0 ∧ bits v.toNat 3 0 ≤ 12 →
    (32 ≤ i.val → bits v.toNat 25 24 = 3 → s.classOf (bits v.toNat 23 20) = 0) →
    ∃ t : State, exec (.queueDisable .image i v) s = .next t ∧ t.on (qEn b) = false ∧ t.rd (qCidx b) = s.rd (qCidx b) ∧ OnlyRegs [b] s t) ∧
  (∀ (i : Fin 48) (v : BitVec 32) (s : State),
    let b := vecQueue i
    s.blockOff (b >>> 20) = false → s.on (qEn b) = true → s.on (qPsrc b) = false → s.fetchOk (s.qPart b) = true →
    ∃ t : State, exec (.pidxWrite .image (b + 4) v) s = .next t ∧ t.rd (qPidx b) = v.toNat ∧ (t.queue b).prod = v.toNat) ∧
  (∀ (i : Fin 48) (s : State),
    let b := vecQueue i
    s.on (qEn b) = true → s.on (qPsrc b) = true → s.fetchOk (s.qPart b) = true → s.inTun (s.rd (qPword b)) = true →
    s.checkRun (s.qPart b) false (s.rd (qPword b)) 4 = .ok → anyPois ((s.runKeys (s.rd (qPword b)) 4).map s.byteAt) = false →
    ∃ t : State, exec (.pwordPoll b) s = .next t ∧ (t.queue b).prod = leNum ((s.runKeys (s.rd (qPword b)) 4).map s.byteAt))

/-- R238 to R245: OPEN binds a stream, CLOSE frees it, DECODE of the next access unit or of a random access point decodes it and any other ends
with SEQ_GAP, FETCH of a frame its entry does not hold is a MISS, and a stream whose consumer left room outputs pictures in order. -/
def Obligations.DecoderStreams : Prop :=
  (∀ (q : Fin 16) (s : State) (d : Nat),
    let b := decQ q
    let p := s.qPart b
    let k := dkStream d
    Fetches s b d →
    (dkKind d = 0 → openOk d = true → s.inTun (doRel d) = true → s.decForeign q d = false →
      s.firstFail p ([(true, doBase d, doNout d * doStride d), (true, doDpb d, doSlots d * doStride d), (false, doRel d, 8)] ++
        (if doCbase d = 0 then [] else [(true, doCbase d, doNent d * (doStride d + 64))])) = none →
      ∃ t : State, exec (.openStream q) s = .next t ∧ t.dec k = some ⟨p, BitVec.ofNat 512 d, 0, none, [], false, []⟩ ∧
        (∀ j, j ≠ k → t.dec j = s.dec j) ∧ (t.queue b).next = ((s.queue b).next + 1) % 2 ^ 32 ∧
        Completed s t b 64 (decRecord 0 k dsOk 0 0 (2 ^ 32 - 1) (2 ^ 32 - 1) 0 0 0 s.now)) ∧
    (dkKind d = 3 → onlyFields d [] = true → s.decHeld q d = false → (s.decOwn q d).isSome = true →
      ∃ t : State, exec (.closeStream q) s = .next t ∧ t.dec k = none ∧ (∀ j, j ≠ k → t.dec j = s.dec j) ∧
        (t.queue b).next = ((s.queue b).next + 1) % 2 ^ 32 ∧
        Completed s t b 64 (decRecord 3 k dsOk 0 0 (2 ^ 32 - 1) (2 ^ 32 - 1) 0 0 0 s.now)) ∧
    (dkKind d = 1 → s.slotOpen p = true → s.decHeld q d = false → ∀ x, s.decOwn q d = some x →
      onlyFields d [(64, 111), (128, 159), (160, 191), (192, 192)] = true → 1 ≤ ddLen d → ddLen d ≤ 2 ^ 24 →
      ddAddr d < 0x8000000000 → s.checkRun p false (ddAddr d) (ddLen d) true = .ok →
      let au := ((s.runKeys (ddAddr d) (ddLen d)).map s.byteAt).map (·.1)
      let po := anyPois ((s.runKeys (ddAddr d) (ddLen d)).map s.byteAt)
      let rap := Config.decRap (doCodec x.desc.toNat) au
      (rap = false → x.last ≠ some ((ddIdx d + 2 ^ 32 - 1) % 2 ^ 32) → x.last.all (fun l => decide (l < 2 ^ 32)) = true →
        ∃ t : State, exec (.decode q) s = .next t ∧ t.vis.dec = s.vis.dec ∧
          Completed s t b 64 (decRecord 1 k dsSeqGap 0 (ddIdx d) (2 ^ 32 - 1) (2 ^ 32 - 1) 0 0 0 s.now)) ∧
      (rap = true ∨ x.last = some ((ddIdx d + 2 ^ 32 - 1) % 2 ^ 32) →
        ∃ t y, exec (.decode q) s = .next t ∧ t.dec k = some y ∧ y.last = some (ddIdx d) ∧ y.desc = x.desc ∧ y.part = x.part ∧
          y.units = (if rap then [au] else x.units ++ [au]) ∧ y.pois = (po || (x.pois && !rap)) ∧ x.outs ≤ y.outs ∧
          (t.queue b).next = ((s.queue b).next + 1) % 2 ^ 32)) ∧
    (dkKind d = 2 → s.decHeld q d = false → ∀ x, s.decOwn q d = some x → onlyFields d [(64, 95), (96, 143)] = true → dfDst d % 64 = 0 →
      doCbase x.desc.toNat ≠ 0 → s.checkRun p true (dfDst d) (doStride x.desc.toNat) true = .ok →
      let ent := doCbase x.desc.toNat + dfFrame d % max (doNent x.desc.toNat) 1 * (doStride x.desc.toNat + 64)
      let h := (s.runKeys ent 64).map s.byteAt
      let w (o : Nat) : Nat := leNum ((h.drop o).take 4)
      ent < 0x8000000000 → anyPois h = false →
      ∃ t : State, exec (.fetchFrame q) s = .next t ∧ t.vis.dec = s.vis.dec ∧ (t.queue b).next = ((s.queue b).next + 1) % 2 ^ 32 ∧
        Completed s t b 64 (if w 0 % 2 = 1 ∧ w 4 = dfFrame d then
          decRecord 2 k (w 8 ||| dsHit) (dfFrame d) 0 (w 12) (w 16) 0 0 (dfDst d) s.now
          else decRecord 2 k dsMiss (dfFrame d) 0 (2 ^ 32 - 1) (2 ^ 32 - 1) 0 0 0 s.now))) ∧
  (∀ (k : Fin 128) (s : State) (x : DecStream), s.dec k = some x → x.wait ≠ [] → doRel x.desc.toNat < 0x8000000000 →
    let rel := (s.runKeys (doRel x.desc.toNat) 8).map s.byteAt
    anyPois rel = false →
    ∃ (t : State) (n : Nat), exec (.decOutputResume k) s = .next t ∧ t.dec k = some { x with outs := x.outs + n, wait := x.wait.drop n } ∧ n ≤ x.wait.length ∧
      (if (x.outs + 2 ^ 64 - leNum rel) % 2 ^ 64 < doNout x.desc.toNat then 1 ≤ n else n = 0 ∧ t.on DEC_EVENT_STALL = true))

/-- R246 to R250: a sample job joins the batch of its bucket, a frame job takes its context's next buffer, a flush job completes every partial
batch, a timeout completes its own and counts a choice, and records leave in the order of their earliest sample. -/
def Obligations.SampleJobs : Prop :=
  (∀ (q : Fin 16) (s : State) (d k cd : Nat) (i : Instr), Fetches s (preQ q) d → s.slotOpen (s.qPart (preQ q)) = true → jKind d = 0 →
    ((i = .sampleJob q ∧ (s.preq q).stalled = false) ∨ (i = .preBufferResume q ∧ (s.preq q).stalled = true)) →
    let p := s.qPart (preQ q)
    let n := (s.queue (preQ q)).next
    let e := s.bucket q k
    let rel := (s.runKeys (bkRel e) 8).map s.byteAt
    s.pickBucket q d = some k → s.jobCtx q d = some cd →
    1 ≤ jW d → jW d ≤ pcInW cd → 1 ≤ jH d → jH d ≤ pcInH cd → 1 ≤ jOutW d → jOutW d ≤ 8192 → 1 ≤ jOutH d → jOutH d ≤ 8192 →
    s.checkRun p false (jSrc d) (jBytes d) true = .ok → s.checkRun p false (jGrid d) (8 * gridLen cd (jOutW d) (jOutH d)) true = .ok →
    s.checkRun p true (bkBase e) (bkNbatch e * bkStride e) true = .ok → s.checkRun p false (bkRel e) 8 = .ok →
    jGrid d < 0x8000000000 → anyPois ((s.runKeys (jGrid d) (8 * gridLen cd (jOutW d) (jOutH d))).map s.byteAt) = false →
    (mget (fun _ => 0) (s.preq q).started k + 2 ^ 64 - leNum rel) % 2 ^ 64 < bkNbatch e →
    ∃ t : State, exec i s = .next t ∧
      ((∃ b ∈ (t.preq q).partials, b.bucket = k ∧ b.seqs.getLast? = some n) ∨
        (∃ h ∈ (t.preq q).held, h.1.bucket = k ∧ h.1.status = .ok ∧ h.2.getLast? = some n))) ∧
  (∀ (q : Fin 16) (s : State) (d : Nat), Fetches s (preQ q) d → jKind d = 1 →
    (s.preq q).stalled = false → ((s.preq q).partials.map fun b => b.bucket).Nodup → ((s.preq q).partials.map fun b => b.seqs.headD 0).Nodup →
    ∃ t : State, exec (.flushJob q) s = .next t ∧ (t.preq q).partials = [] ∧
      ∀ b ∈ (s.preq q).partials, ∃ h ∈ (t.preq q).held, h.2 = b.seqs ∧ h.1.bucket = b.bucket ∧ h.1.status = .ok) ∧
  (∀ (q : Fin 16) (s : State) (d cd : Nat) (c : PreCtx) (i : Instr), Fetches s (preQ q) d → jKind d = 2 →
    ((i = .frameJob q ∧ (s.preq q).stalled = false) ∨ (i = .preBufferResume q ∧ (s.preq q).stalled = true)) →
    let p := s.qPart (preQ q)
    let rel := (s.runKeys (pcRel cd) 8).map s.byteAt
    let g := gridLen cd (pcOutW cd) (pcOutH cd)
    s.jobCtx q d = some cd → s.ctx (jCtx d) = some c → jW d = pcInW cd → jH d = pcInH cd → pcRel cd < 0x8000000000 → pcGrid cd < 0x8000000000 →
    (c.acc + 2 ^ 64 - leNum rel) % 2 ^ 64 < pcNbuf cd → s.checkRun p false (jSrc d) (jBytes d) true = .ok →
    anyPois ((s.runKeys (pcGrid cd) (8 * g)).map s.byteAt) = false →
    ∃ t f, exec i s = .next t ∧ t.ctx (jCtx d) = some { c with acc := (c.acc + 1) % 2 ^ 64, frames := c.frames ++ [f] } ∧ f.idx = c.acc ∧
      f.job = some (q.val, (s.queue (preQ q)).next) ∧ f.rows = pcOutH cd ∧ f.notified = 0) ∧
  (∀ (q k : Fin 16) (s : State) (b : PreBatch), (s.preq q).partials.find? (fun b => b.bucket == k.val) = some b →
    bkTimeout (s.bucket q k) ≠ 0 → b.began + 1000 * bkTimeout (s.bucket q k) ≤ s.now →
    ∃ t : State, exec (.bucketTimeout q k) s = .next t ∧ (t.preq q).partials = (s.preq q).partials.filter (fun x => x.bucket != k.val) ∧
      (∃ h, (t.preq q).held = (s.preq q).held ++ [h] ∧ h.2 = b.seqs ∧ h.1.bucket = k.val) ∧
      t.rd (DET_CHOICES_COUNT (s.qPart (preQ q))) = (s.rd (DET_CHOICES_COUNT (s.qPart (preQ q))) + 1) % 2 ^ 64 ∧ SameBytes s t) ∧
  (∀ (q : Fin 16) (s : State) (h : PreDone × List Nat),
    (s.preq q).held.find? (fun h => (s.preq q).waiting.all fun n => decide (h.1.lo ≤ n)) = some h →
    ∃ t : State, exec (.batchRecordEmit q) s = .next t ∧ (t.preq q).held = (s.preq q).held.filter (fun x => x.1.lo != h.1.lo) ∧
      (t.preq q).waiting = (s.preq q).waiting.filter (fun n => !h.2.contains n) ∧
      Completed s t (preQ q) 64 (leBytes 64 (Config.preRecord h.1).toNat))

/-! ### Registers and partitions (R17 to R20, R84, R85, R112, R121, R344 to R360, R547) -/

/-- R18, R20, R84, R85, R547: a write of the image's: fields are written and nothing else; a write that would change an RWL field after the lock is
ignored whole and counted with its offset; an illegal setting is refused and recorded by the block; CORE_ARITH_CFG is accepted only while its
core is IDLE; the lower word of a latching register is returned and its upper word held for the requester, and a read of the upper word then returns what
was held, once, whatever the register has become. -/
def Obligations.RegisterAccess : Prop :=
  (∀ (v : BitVec 32) (s : State),
    let off := PWR_ETHWAKE_CFG_EN0.off
    s.blockOff (off >>> 20) = false →
    let same := bits v.toNat 31 31 = s.rd PWR_ETHWAKE_CFG_EN0 ∧ bits v.toNat 30 30 = s.rd PWR_ETHWAKE_CFG_EN1
    (s.locked off = false → ∃ t : State, exec (.registerWrite .image off 4 v) s = .next t ∧ t.rd PWR_ETHWAKE_CFG_EN0 = bits v.toNat 31 31 ∧
      t.rd PWR_ETHWAKE_CFG_EN1 = bits v.toNat 30 30 ∧ OnlyRegs [off] s t) ∧
    (s.locked off = true → ¬ same → ∃ t : State, exec (.registerWrite .image off 4 v) s = .next t ∧
      t.rd SYS_LOCK_VIOL_COUNT = min (s.rd SYS_LOCK_VIOL_COUNT + 1) 0xFFFFFFFF ∧ t.rd SYS_LOCK_LASTVIOL = off ∧
      t.on SYS_LOCK_LOCK = s.on SYS_LOCK_LOCK ∧ OnlyRegs [SYS_LOCK_VIOL_COUNT.off, SYS_LOCK_LOCK.off] s t) ∧
    (s.locked off = true → same → ∃ t : State, exec (.registerWrite .image off 4 v) s = .next t ∧ OnlyRegs [] s t)) ∧
  (∀ (k : Fin 4) (v : BitVec 32) (s : State),
    let off := (PWR_CANWAKE_CFG_EN k).off
    s.blockOff (off >>> 20) = false → s.locked off = false → bits v.toNat 29 28 = 3 →
    ∃ t : State, exec (.registerWrite .image off 4 v) s = .next t ∧ t.on PWR_EVENT_CFG_ERR = true ∧ OnlyRegs [PWR_EVENT_CFG_ERR.off] s t) ∧
  (∀ (c : Fin 256) (v : BitVec 32) (s : State), c.val < s.nCores →
    (s.rd (CORE_STATE_STATE c) = 0 → ∃ t : State, exec (.coreArithCfgWrite .image c v) s = .next t ∧
      t.rd (CORE_ARITH_CFG_OUTSAT_FAULT c) = bits v.toNat 2 2 ∧ t.rd (CORE_ARITH_CFG_NAN_FAULT c) = bits v.toNat 1 1 ∧
      t.rd (CORE_ARITH_CFG_ACCSAT_FAULT c) = bits v.toNat 0 0 ∧ OnlyRegs [(CORE_ARITH_CFG_ACCSAT_FAULT c).off] s t) ∧
    (s.rd (CORE_STATE_STATE c) ≠ 0 → ∃ t : State, exec (.coreArithCfgWrite .image c v) s = .next t ∧ t.on (CORE_ARITH_STATUS_CFG_REJ c) = true ∧
      OnlyRegs [(CORE_ARITH_STATUS_CFG_REJ c).off] s t)) ∧
  (∀ (off : Nat) (r : RegRow) (i j : List Nat) (req : Requester) (s : State), regAt off = some (r, i, 0) → regAt (off + 4) = some (r, j, 1) →
     latches r off = true → latches r (off + 4) = true → s.reach req off 4 false = .ok → s.reach req (off + 4) 4 false = .ok →
     let key := off * 512 + s.holder req
     (∃ t : State, exec (.reg64LowerRead req off) s = .next t ∧
       (mget (fun _ => (0 : Word)) t.readback (reqKey req)).toNat = s.liveWord req off % 2 ^ 32 ∧
       mget (fun _ => none) t.hold key = some (BitVec.ofNat 32 (s.liveWord req (off + 4))) ∧
       t = { s with hold := t.hold, readback := t.readback }) ∧
     (∀ v, mget (fun _ => none) s.hold key = some v →
       ∃ t : State, exec (.reg64UpperRead req (off + 4)) s = .next t ∧ mget (fun _ => (0 : Word)) t.readback (reqKey req) = v ∧
         mget (fun _ => none) t.hold key = none ∧ t = { s with hold := t.hold, readback := t.readback }))

/-- R112, R349, R350, R355, R381: a partition is enabled into EMPTY under the conditions of R349 and disabled out of it into UNUSED; RELAXED is refused
to class S; the report queue starts at 0; a slot boundary takes the index of the slot that holds the reading. -/
def Obligations.PartitionSettings : Prop :=
  (∀ (p : Fin 16) (v : BitVec 32) (s : State), s.blockOff ((PART_CFG_EN p).off >>> 20) = false →
    let off := (PART_CFG_EN p).off
    s.locked off = false →
    (s.on (PART_CFG_EN p) = false → bit v.toNat 31 = true → s.enableOk p (bits v.toNat 30 29) = true →
      ∃ t : State, exec (.partCfgEnWrite .image p v) s = .next t ∧ t.on (PART_CFG_EN p) = true ∧ t.classOf p = bits v.toNat 30 29 ∧
        t.rd (PART_STATUS_STATE p) = stEmpty ∧ OnlyRegs [off, (PART_STATUS_STATE p).off] s t) ∧
    (s.on (PART_CFG_EN p) = false → bit v.toNat 31 = true → s.enableOk p (bits v.toNat 30 29) = false → bits v.toNat 30 29 ≠ 0 →
      ∃ t : State, exec (.partCfgEnWrite .image p v) s = .next t ∧ t.on PART_EVENT_CFG_ERR = true ∧ OnlyRegs [PART_EVENT_CFG_ERR.off] s t) ∧
    (s.on (PART_CFG_EN p) = true → bit v.toNat 31 = false → s.rd (PART_STATUS_STATE p) = stEmpty →
      ∃ t : State, exec (.partCfgEnWrite .image p v) s = .next t ∧ t.on (PART_CFG_EN p) = false ∧ t.rd (PART_STATUS_STATE p) = stUnused ∧
        OnlyRegs [off, (PART_STATUS_STATE p).off] s t) ∧
    (s.on (PART_CFG_EN p) = true → bit v.toNat 31 = false → s.rd (PART_STATUS_STATE p) ≠ stEmpty →
      ∃ t : State, exec (.partCfgEnWrite .image p v) s = .next t ∧ t.on PART_EVENT_CFG_ERR = true ∧ OnlyRegs [PART_EVENT_CFG_ERR.off] s t)) ∧
  (∀ (p : Fin 16) (v : BitVec 32) (s : State), s.blockOff ((PART_DET_CFG_RELAXED p).off >>> 20) = false → s.locked (PART_DET_CFG_RELAXED p).off = false →
    ∃ t : State, exec (.partDetCfgWrite .image p v) s = .next t ∧
      if bit v.toNat 31 = true ∧ s.classOf p = 0 then t.on PART_EVENT_CFG_ERR = true ∧ OnlyRegs [PART_EVENT_CFG_ERR.off] s t
      else t.rd (PART_DET_CFG_RELAXED p) = bits v.toNat 31 31 ∧ OnlyRegs [(PART_DET_CFG_RELAXED p).off] s t) ∧
  (∀ (p : Fin 16) (v : BitVec 32) (s : State), s.blockOff ((PART_RPT_CFG_EN p).off >>> 20) = false → s.on (PART_RPT_CFG_EN p) = false → bit v.toNat 31 = true →
    4 ≤ bits v.toNat 20 16 → bits v.toNat 20 16 ≤ 16 →
    s.tunOwned p (s.rd (PART_RPT_BASE_ADDR p)) (32 * 2 ^ bits v.toNat 20 16) = true → s.tunOwned p (s.rd (PART_RPT_RADDR_ADDR p)) 4 = true →
    (bit v.toNat 15 = true → s.coreIn (bits v.toNat 7 0) p = true) → (s.on (PART_RPT_EVT_EEN p) = true → s.coreIn (s.rd (PART_RPT_EVT_ECORE p)) p = true) →
    ∃ t : State, exec (.partRptEnable .image p v) s = .next t ∧ t.on (PART_RPT_CFG_EN p) = true ∧ t.rd (PART_RPT_CFG_LOG2SIZE p) = bits v.toNat 20 16 ∧
      t.rd (PART_RPT_WIDX_COUNT p) = 0 ∧ mget (fun _ => 0) t.part.rptRead p = 0 ∧
      SameRegsBut [(PART_RPT_CFG_EN p).off, (PART_RPT_WIDX_COUNT p).off] s t) ∧
  (∀ (s : State), s.on PART_SLOT_CFG_EN = true → 1 ≤ s.rd PART_SLOT_CFG_SLOT_LEN →
    ∃ (t : State) (q r : Int), exec .slotBoundary s = .next t ∧
      ((s.timeAt (s.rd PART_SLOT_CFG_TS) (s.now / 8 * 8) : Nat) : Int) - (s.rd PART_SLOT_PHASE_PHASE : Nat) = (8 * s.rd PART_SLOT_CFG_SLOT_LEN : Nat) * q + r ∧
      0 ≤ r ∧ r < (8 * s.rd PART_SLOT_CFG_SLOT_LEN : Nat) ∧ (t.part.slot : Int) = q % 64 ∧ t = { s with part := { s.part with slot := t.part.slot } })

/-- R121, R356, R358 to R360: a load that passes every check releases its cores at word 0 and its partition runs, one that fails changes nothing but
its refusal code; a stop halts its core; a reset goes through drain and fill and leaves the partition EMPTY, its cores IDLE and their memory zero. -/
def Obligations.PartitionLife : Prop :=
  (∀ (p : Fin 16) (b : PlanBinary) (s : State), s.rd (PART_STATUS_STATE p) = stEmpty →
    (s.loadCheck p b = none → ∃ t : State, exec (.load .image p b) s = .next t ∧ t.rd (PART_STATUS_STATE p) = stRunning ∧
      t.rd (PART_STATUS_LOADREF p) = 0 ∧ t.planOf p = some b ∧ ∀ x ∈ b.cores, t.rd (CORE_STATE_STATE x.core) = 1 ∧ t.pc x.core = 0) ∧
    (∀ e, s.loadCheck p b = some e → ∃ t : State, exec (.load .image p b) s = .next t ∧ t.rd (PART_STATUS_LOADREF p) = e % 256 ∧
      t.on PART_EVENT_LOADREF = true ∧ t.rd (PART_STATUS_STATE p) = stEmpty ∧
      OnlyRegs [(PART_STATUS_LOADREF p).off, PART_EVENT_LOADREF.off] s t)) ∧
  (∀ (p : Fin 16) (c : Fin 256) (s : State), s.part.stops.contains (p.val, c.val) = true →
    ∃ t : State, exec (.partitionStop p c) s = .next t ∧ mget (fun _ => false) t.core.stopped c = true ∧ (∀ x ∈ t.core.xfers, x.core ≠ c.val) ∧
      t.part.stops = s.part.stops.erase (p.val, c.val) ∧ t.mayIssue c = false ∧ SameBytes s t) ∧
  (∀ (p : Fin 16) (v : BitVec 32) (s : State), s.blockOff ((PART_CTL_RESET p).off >>> 20) = false → bit v.toNat 31 = true → s.rd (PART_STATUS_STATE p) ≠ stUnused → s.rd (PART_STATUS_STATE p) ≠ stResetting →
    ∃ t : State, exec (.partResetRequest .image p v) s = .next t ∧ t.rd (PART_STATUS_STATE p) = stResetting ∧
      mget (fun _ => false) t.part.resetReq p = true ∧ SameRegsBut [(PART_STATUS_STATE p).off] s t ∧
      (s.rd (PART_STATUS_STATE p) ≠ stFault → ∀ c ∈ s.coresOf p, (p.val, c) ∈ t.part.stops)) ∧
  (∀ (p : Fin 16) (s : State), mget (fun _ => false) s.part.resetReq p = true → s.rd (PART_STATUS_STATE p) = stResetting → s.classOf p ≠ 0 →
    ∃ t : State, exec (.partitionReset p) s = .next t ∧ t.resetPhase p = 1 ∧ mget (fun _ => false) t.part.resetReq p = false ∧
      mget (fun _ => 0) t.part.resetAt p = s.now ∧ t = { s with part := t.part }) ∧
  (∀ (p : Fin 16) (s : State), s.resetPhase p = 1 → (∀ x ∈ s.part.stops, x.1 ≠ p.val) →
    s.drained p = true ∨ mget (fun _ => 0) s.part.resetAt p + 10 ^ 6 ≤ s.now →
    ∃ t : State, exec (.partResetDrainEnd p) s = .next t ∧ t.resetPhase p = 2 ∧ ∀ x, x < 128 → s.ctxPart x = p.val → t.on (PRE_CTX_CFG_EN x) = false) ∧
  (∀ (p : Fin 16) (s : State), s.resetPhase p = 2 → mget (fun _ => none) s.part.nextLoad p = none → mget (fun _ => none) s.part.imagePlan p = none →
    ∃ t : State, exec (.partResetDone p) s = .next t ∧ t.resetPhase p = 0 ∧ t.rd (PART_STATUS_STATE p) = stEmpty ∧ t.on PART_EVENT_RESET_DONE = true ∧
      t.planOf p = none ∧ t.on (PART_FAULT_VALID p) = false ∧
      ∀ c ∈ s.coresOf p, t.rd (CORE_STATE_STATE c) = 0 ∧ ∀ k, coreKey c 0 ≤ k → k < coreKey c 0x180000 → t.byteAt k = (0, false))

/-! ### The solver (R258 to R276) -/

/-- R259, R262: the factors of CHOL satisfy its column recurrence, every triangular pass its substitution, each quotient and root rounded once;
a member of a dense job adds one solution of its size to the job and reaches a check point. -/
def Obligations.DenseSolving : Prop :=
  (∀ (n : Nat) (ef : Int) (a : Nat → Nat → Dy),
    let x := cholFact n ef a
    let l (i k : Nat) : Dy := ⟨mAt n x.f i k, ef⟩
    x.fail = 0 →
    (∀ j, j < n → 0 < ((a j j).sub (dyDot j (l j) (l j))).m ∧ mAt n x.f j j = (roundSqrt ef ((a j j).sub (dyDot j (l j) (l j)))).1) ∧
    (∀ i j, j < i → i < n → mAt n x.f i j = (roundQuot ef ((a i j).sub (dyDot j (l i) (l j))) (l j j)).1) ∧
    (∀ i j, i < j → j < n → mAt n x.f i j = 0)) ∧
  (∀ (n : Nat) (low unit : Bool) (t : Nat → Nat → Dy) (rhs : Nat → Dy) (eo : Int),
    let y := (triPass n low unit t rhs eo).1
    y.size = n ∧ ∀ i, i < n →
      let ks := (List.range n).filter fun k => if low then decide (k < i) else decide (i < k)
      let sum := ks.foldl (fun (acc : Dy) k => acc.add ((t i k).mul ⟨y.getD k 0, eo⟩)) Dy.zero
      y.getD i 0 = (if unit then roundTo eo ((rhs i).sub sum) else roundQuot eo ((rhs i).sub sum) (t i i)).1) ∧
  (∀ (i : Instr) (k : Nat) (s : State) (j : SolJob), (i, k) ∈ [(.chol, 0), (.ldlt, 1), (.lu, 2), (.trsv, 3)] →
    s.sol.run = some j → sdKind j.desc.toNat = k → j.ended = none → j.check = false →
    (j.setup = false → ∃ t : State, exec i s = .next t ∧ t.sol.run = some { j with setup := true, check := true } ∧ SameBytes s t) ∧
    (j.setup = true → j.units < sdNb j.desc.toNat →
      ∃ t x, exec i s = .next t ∧ t.sol.run = some x ∧ x.units = j.units + 1 ∧ x.check = true ∧ x.ended = none ∧ x.desc = j.desc ∧
        x.queue = j.queue ∧ x.fetched = j.fetched ∧ (x.fails = j.fails ∨ x.fails = j.fails + 1) ∧ t.sol.susp = s.sol.susp ∧
        ∃ l, x.sol = j.sol ++ l ∧ l.length = sdN j.desc.toNat * sdNrhs j.desc.toNat))

/-- R258, R263, R264, R267 to R270, R273, R274: the engine takes the job whose turn it is and gives way at a suspension point; an iteration moves the
iterate or breaks down; a check point ends a late job STALE, a finished one with its status, and lets any other go on; a commit frees the engine. -/
def Obligations.SolverJobs : Prop :=
  (∀ (s : State) (q : Nat), s.sol.run = none → s.solPick = some q →
    (∀ j, (s.sol.susp.find? fun j => j.queue == q) = some j →
      ∃ t : State, exec .solSchedule s = .next t ∧ t.sol.run = some j ∧ t.sol.susp = s.sol.susp.filter (fun k => k.queue != q) ∧ t.sol.last = q ∧
        t.on SOL_STATUS_BUSY = true ∧ OnlyRegs [SOL_STATUS_BUSY.off] { s with sol := t.sol } t) ∧
    ((s.sol.susp.find? fun j => j.queue == q) = none →
      let p := s.qPart (solQ q)
      let a := s.rd (SOL_Q_SQ_ADDR q) + (s.queue (solQ q)).next % s.qSize (solQ q) * 128
      let bytes := (s.runKeys a 128).map s.byteAt
      let d := leNum bytes
      s.checkRun p false a 128 true = .ok → a < 0x8000000000 → anyPois bytes = false → sdOk d = true → s.firstFail p (sdRanges d) = none →
      ((sdNote d).1 = true → s.coreIn (sdNote d).2.1 p = true) →
      ∃ t : State, exec .solSchedule s = .next t ∧ t.sol.last = q ∧ (t.queue (solQ q)).next = ((s.queue (solQ q)).next + 1) % 2 ^ 32 ∧ SameBytes s t ∧
        t.sol.run = some (if s.late d = true ∨ sdDl d = 3 then (freshJob q d s.now).stop true else freshJob q d s.now))) ∧
  (∀ (s : State) (j : SolJob), s.sol.run = some j → j.setup = true → j.ended = none → s.sol.susp.length < 3 →
    (∃ q, q < 16 ∧ s.solPending q = true ∧ s.rd (SOL_Q_CFG_PRIO j.queue) < s.rd (SOL_Q_CFG_PRIO q)) →
    ∃ t : State, exec .solSuspend s = .next t ∧ t.sol.run = none ∧ t.sol.susp = s.sol.susp ++ [j] ∧ t.on SOL_STATUS_BUSY = false ∧
      OnlyRegs [SOL_STATUS_BUSY.off] { s with sol := t.sol } t) ∧
  (∀ (s : State) (j : SolJob), s.sol.run = some j → sdKind j.desc.toNat = 4 → j.setup = true → j.ended = none → j.check = false →
    let d := j.desc.toNat
    ∃ t x, exec .pcg s = .next t ∧ t.sol.run = some x ∧ x.check = true ∧ x.desc = j.desc ∧ SameBytes s t ∧
      ((x.ended = some ssBreak ∧ x.units = j.units ∧ x.x = j.x) ∨ (x.ended = none ∧ x.units = j.units + 1)) ∧
      (j.units = 0 →
        let q := roundVec d rQ (j.spmv (vecAt d rP j.p))
        let pq := roundTo (sdExp d rRho) (vdot d rP rQ j.p q.1)
        let al : Dy := ⟨(roundQuot (sdExp d rAlpha) ⟨j.rho, sdExp d rRho⟩ ⟨pq.1, sdExp d rRho⟩).1, sdExp d rAlpha⟩
        (x.ended = some ssBreak ↔ pq.1 = 0 ∨ j.rho = 0) ∧
        (x.ended = none →
          x.x = (roundVec d rX ((List.range (sdN d)).map fun i => ((vecAt d rX j.x) i).add (al.mul ((vecAt d rP j.p) i)))).1 ∧
          x.r = (roundVec d rR ((List.range (sdN d)).map fun i => ((vecAt d rR j.r) i).sub (al.mul ((vecAt d rQ q.1) i)))).1))) ∧
  (∀ (s : State) (j : SolJob), s.sol.run = some j → sdKind j.desc.toNat = 5 → j.setup = true → j.ended = none → j.check = false →
    ∃ t x, exec .minres s = .next t ∧ t.sol.run = some x ∧ x.check = true ∧ x.units = j.units + 1 ∧ x.desc = j.desc ∧
      x.x.length = sdN j.desc.toNat ∧ SameBytes s t) ∧
  (∀ (s : State) (j : SolJob), s.sol.run = some j → j.check = true →
    let d := j.desc.toNat
    let due := s.late d = true ∨ (sdDl d = 2 ∧ sdStopat d = j.units ∧ j.ended = none)
    ∃ t : State, exec .solCheckPoint s = .next t ∧ SameBytes s t ∧ t.sol.susp = s.sol.susp ∧
      (due → t.sol.run = some { j with ended := some ssStale, stale := true, check := false }) ∧
      (¬ due → ∀ e, j.ended = none → j.finish = some e → t.sol.run = some { j with ended := some e, check := false }) ∧
      (¬ due → j.ended.isSome = true ∨ j.finish = none → t.sol.run = some { j with check := false })) ∧
  (∀ (s : State) (j : SolJob) (e : Nat), s.sol.run = some j → j.ended = some e → j.check = false →
    ∃ t : State, exec .solCommit s = .next t ∧ t.sol.run = none ∧ t.sol.susp = s.sol.susp ∧
      t.rd SOL_JOBS_COUNT = (s.rd SOL_JOBS_COUNT + 1) % 2 ^ 64 ∧
      (j.stale = false → sdChEn j.desc.toNat = true → j.queue < 16 → t.rd (SOL_CHAIN_RUN (solChain j.queue j.desc.toNat)) = 0))

/-! ### The control engine (R279 to R318) -/

/-- R279, R281, R282, R290, R306, R316 to R318: a due cycle timer moves NEXT and triggers its channels; COMMIT takes a legal parameter block and
refuses any other; START, STOP and CLEAR move a channel between its states; inputs, channels, generators and capture units are enabled and
disabled. -/
def Obligations.ControlCommands : Prop :=
  (∀ (k : Fin 8) (s : State), s.on (CTL_CYC_CFG_EN k) = true → s.cycNext k ≤ s.timeAt (s.rd (CTL_CYC_CFG_TS k)) s.stamp →
    1 ≤ s.rd (CTL_CYC_PERIOD_PERIOD k) →
    let per := s.rd (CTL_CYC_PERIOD_PERIOD k)
    let r := s.timeAt (s.rd (CTL_CYC_CFG_TS k)) s.stamp
    ∃ (t : State) (m : Nat), exec (.cycleTimerTrigger k) s = .next t ∧ t.cycNext k = s.cycNext k + per + m * per ∧ r ≤ t.cycNext k ∧
      (m = 0 ∨ s.cycNext k + per + (m - 1) * per < r) ∧
      t.rd (CTL_CYC_STAT_SKIPPED k) = min (s.rd (CTL_CYC_STAT_SKIPPED k) + m) 0xFFFFFFFF ∧
      (∀ h, h < 64 → t.chan h = if s.chOn h = true ∧ s.rd (CTL_CH_CFG_TRIG h) = k.val then { s.chan h with trig := some s.stamp } else s.chan h) ∧
      SameRegsBut [(CTL_CYC_STAT_SKIPPED k).off, CTL_EVENT_SKIPPED.off] s t) ∧
  (∀ (h : Fin 64) (v : BitVec 32) (s : State), s.blockOff ((CTL_CH_CMD_OP h).off >>> 20) = false → v.toNat % 4 = 0 → bit v.toNat 2 = true →
    (paramOk (chPriv h) (fun i => s.rd (CTL_CH_PARAM_VALUE h i)) = true → ∃ t : State, exec (.commit .image h v) s = .next t ∧
      t.chan h = { s.chan h with commit := some ((List.range 64).map fun i => BitVec.ofNat 32 (s.rd (CTL_CH_PARAM_VALUE h i))) } ∧
      (∀ g, g ≠ h.val → t.chan g = s.chan g) ∧ t = { s with ctl := { s.ctl with chan := t.ctl.chan } }) ∧
    (paramOk (chPriv h) (fun i => s.rd (CTL_CH_PARAM_VALUE h i)) = false → ∃ t : State, exec (.commit .image h v) s = .next t ∧
      t.on CTL_EVENT_CFG_ERR = true ∧ OnlyRegs [CTL_EVENT_CFG_ERR.off] s t)) ∧
  (∀ (h : Fin 64) (v : BitVec 32) (s : State), s.blockOff ((CTL_CH_CMD_OP h).off >>> 20) = false → bit v.toNat 2 = false →
    (v.toNat % 4 = 1 → s.chState h = chIdle → ∃ t : State, exec (.start .image h v) s = .next t ∧ t.chState h = chRun ∧ (t.chan h).first = true ∧
      t.rd (CTL_CH_FSPOS_VALUE h) = ofSigned 32 (s.fsCapture h).1 ∧ t.rd (CTL_CH_FSVEL_VALUE h) = ofSigned 32 (s.fsCapture h).2 ∧
      SameRegsBut [(CTL_CH_STATUS_STATE h).off, (CTL_CH_FSPOS_VALUE h).off, (CTL_CH_FSVEL_VALUE h).off] s t) ∧
    (v.toNat % 4 = 2 → s.chState h = chRun → ∃ t : State, exec (.stop .image h v) s = .next t ∧ t.chState h = chIdle ∧ (t.chan h).req = none ∧
      (t.chan h).run = none ∧ SameRegsBut [(CTL_CH_STATUS_STATE h).off] s t) ∧
    (v.toNat % 4 = 3 → s.chState h = chTripped → ∃ t : State, exec (.clear .image h v) s = .next t ∧ t.chState h = chIdle ∧
      t.rd (CTL_CH_STATUS_CAUSE h) = 0 ∧ (t.chan h).law = lawZero ∧ SameRegsBut [(CTL_CH_STATUS_STATE h).off] s t)) ∧
  (∀ (h : Fin 64) (v : BitVec 32) (s : State), s.blockOff ((CTL_CH_CFG_EN h).off >>> 20) = false → s.locked (CTL_CH_CFG_EN h).off = false → s.chOn h = true →
    v.toNat = s.word (CTL_CH_CFG_EN h).off - 2 ^ 31 → bits v.toNat 23 21 ≤ 4 → bits v.toNat 19 18 ≤ 2 → bits v.toNat 11 8 ≤ 8 →
    ∃ t : State, exec (.ctlCfgWrite .image (CTL_CH_CFG_EN h).off v) s = .next t ∧ t.chOn h = false ∧ t.chState h = 0 ∧
      t.rd (CTL_CH_STATUS_CAUSE h) = 0 ∧ (t.chan h).run = none ∧ ∀ g, g ≠ h.val → t.chan g = s.chan g) ∧
  (∀ (n : Fin 16) (v : BitVec 32) (s : State), s.blockOff ((CTL_QEI_CFG_EN n).off >>> 20) = false → s.locked (CTL_QEI_CFG_EN n).off = false → s.on (CTL_QEI_CFG_EN n) = false →
    bits v.toNat 21 20 ≤ 2 → 3 ≤ bits v.toNat 17 13 → bits v.toNat 17 13 ≤ 20 → bit v.toNat 31 = true →
    ∃ t : State, exec (.ctlCfgWrite .image (CTL_QEI_CFG_EN n).off v) s = .next t ∧ t.on (CTL_QEI_CFG_EN n) = true ∧ (t.qei n).seen = false ∧
      (t.qei n).winPos = s.rd (CTL_QEI_POS_VALUE n) ∧ (t.qei n).winFrom = s.stamp ∧ SameRegsBut [(CTL_QEI_CFG_EN n).off] s t) ∧
  (∀ (g : Fin 4) (v : BitVec 32) (s : State), s.blockOff ((CTL_INJ_CFG_EN g).off >>> 20) = false → s.on (CTL_INJ_CFG_EN g) = false → bit v.toNat 31 = true → bits v.toNat 30 29 ≤ 2 →
    let bad := (bits v.toNat 30 29 = 1 ∧ s.rd (CTL_INJ_LEN_VALUE g) = 0) ∨
      (chPriv (bits v.toNat 27 22) = true ∧ s.on (CTL_CH_CFG_INJ_PERMIT (bits v.toNat 27 22)) = false)
    (¬ bad → ∃ t : State, exec (.injEnable .image g v) s = .next t ∧ t.on (CTL_INJ_CFG_EN g) = true ∧ t.rd (CTL_INJ_CFG_CH g) = bits v.toNat 27 22 ∧
      mget (fun _ => (0, 0)) t.ctl.inj g = (0, 0) ∧ SameRegsBut [(CTL_INJ_CFG_EN g).off] s t) ∧
    (bad → ∃ t : State, exec (.injEnable .image g v) s = .next t ∧ t.on CTL_EVENT_CFG_ERR = true ∧ OnlyRegs [CTL_EVENT_CFG_ERR.off] s t)) ∧
  (∀ (c : Fin 4) (v : BitVec 32) (s : State), s.blockOff ((CTL_CAP_CFG_GO c).off >>> 20) = false → s.on (CTL_CAP_CFG_GO c) = false → bit v.toNat 31 = true →
    bits v.toNat 15 12 ≤ 9 → bits v.toNat 11 8 ≤ 9 → bits v.toNat 7 4 ≤ 9 → bits v.toNat 3 0 ≤ 9 →
    let p := s.chOwner (bits v.toNat 28 23)
    let n := s.rd (CTL_CAP_NSAMP_NSAMP c)
    s.rd (CTL_CAP_DEC_PRE c) < n → s.rd (CTL_CAP_BASE_BASE c) % 64 = 0 → s.tunOwned p (s.rd (CTL_CAP_BASE_BASE c)) (16 * n) = true →
    (s.on (CTL_CAP_NOTE_EN c) = true → s.coreIn (s.rd (CTL_CAP_NOTE_CORE c)) p = true) →
    ∃ t : State, exec (.captureGo .image c v) s = .next t ∧ t.on (CTL_CAP_CFG_GO c) = true ∧
      t.cap c = ⟨s.rd (CTL_CAP_DEC_DEC c), 0, if bits v.toNat 30 29 = 0 then some (n - s.rd (CTL_CAP_DEC_PRE c)) else none⟩ ∧
      SameRegsBut [(CTL_CAP_CFG_GO c).off] s t) ∧
  (∀ (c : Fin 4) (s : State), s.on (CTL_CAP_CFG_GO c) = true → (s.cap c).left = some 0 → s.on (CTL_CAP_NOTE_EN c) = false →
    1 ≤ s.rd (CTL_CAP_NSAMP_NSAMP c) → s.rd (CTL_CAP_NSAMP_NSAMP c) ≤ 65536 →
    let n := s.rd (CTL_CAP_NSAMP_NSAMP c)
    ∃ t : State, exec (.captureDone c) s = .next t ∧ t.on (CTL_CAP_STAT_DONE c) = true ∧ t.on (CTL_CAP_CFG_GO c) = false ∧ t.on CTL_EVENT_CAP_DONE = true ∧
      t.rd (CTL_CAP_STAT_FIRST c) = (if (s.cap c).total < n then 0 else (s.cap c).total % n) ∧
      OnlyRegs [(CTL_CAP_STAT_DONE c).off, (CTL_CAP_CFG_GO c).off, CTL_EVENT_CAP_DONE.off] s t)

/-- R282 to R288, R290 to R293, R303: an accepted trigger latches feedback and asks for an update; a law unit serves it once, with the committed block;
the update leaves with the law's output; the trajectory window is read again; a pair's compare value is loaded. -/
def Obligations.ChannelUpdates : Prop :=
  (∀ (h : Fin 64) (s : State) (tick : Nat),
    let c := s.chan h
    c.trig = some tick → s.chOn h = true → s.rd (CTL_CH_NOTE_TDIV h) ≤ c.div →
    (∀ a, c.acc = some a → 5000 ≤ (tick + 2 ^ 64 - a) % 2 ^ 64) → s.fbFault h = false → s.chState h = chRun →
    let fb := s.fbRaw (s.rd (CTL_CH_SRC_FBSRC h)) (s.rd (CTL_CH_SRC_FBIDX h))
    ∃ t : State, exec (.channelTrigger h) s = .next t ∧ t = { s with ctl := { s.ctl with chan := t.ctl.chan } } ∧ (∀ g, g ≠ h.val → t.chan g = s.chan g) ∧
      t.chan h = { c with trig := none, div := (c.div + 1) % (s.rd (CTL_CH_NOTE_TDIV h) + 1), acc := some tick, fb := fb,
                          req := some ⟨tick, s.timeAt (s.rd (CTL_CH_TRAJ_TS h)) tick, fb, s.spRaw h⟩ }) ∧
  (∀ (h : Fin 64) (s : State) (tick a : Nat), (s.chan h).trig = some tick → s.chOn h = true → s.rd (CTL_CH_NOTE_TDIV h) ≤ (s.chan h).div →
    (s.chan h).acc = some a → (tick + 2 ^ 64 - a) % 2 ^ 64 < 5000 → s.on (CTL_CH_CFG_OVR_ACT h) = false →
    ∃ t : State, exec (.channelTrigger h) s = .next t ∧ t.on CTL_EVENT_OVERRUN = true ∧ (t.chan h).req = (s.chan h).req ∧ (t.chan h).acc = some a ∧
      t.rd (CTL_CH_CNT_OVERRUN h) = min (s.rd (CTL_CH_CNT_OVERRUN h) + 1) 0xFFFF ∧
      SameRegsBut [(CTL_CH_CNT_OVERRUN h).off, CTL_EVENT_OVERRUN.off] s t) ∧
  (∀ (u : Fin 4) (s : State) (h : Nat) (r : CtlReq), s.pickReq u = some (h, r) → (∀ v ∈ s.unitsOf h, s.unitFree v = true) → (s.chan h).run = none →
    ∃ t : State, exec (.lawUpdateStart u) s = .next t ∧ (∀ g, g ≠ h → t.chan g = s.chan g) ∧
      t.chan h = { s.chan h with req := none, run := some (r, s.now), active := (s.chan h).commit.getD (s.chan h).active, commit := none } ∧
      ∀ v ∈ s.unitsOf h, t.unitFree v = false) ∧
  (∀ (h : Fin 64) (s : State) (r : CtlReq) (c0 : Nat),
    let c := s.chan h
    c.run = some (r, c0) → s.chState h = chRun → s.passed c0 (ctlCycles 52) = true → c.first = false → s.rd (CTL_CH_SRC_SPSRC h) = 0 →
    s.on (CTL_CH_CFG_MODEL h) = false → (∀ g, g < 4 → s.on (CTL_INJ_CFG_EN g) = false ∧ s.on (CTL_CAP_CFG_GO g) = false) →
    let against := c.against && decide (c.law.r * r.sp < 0)
    let o := lawRun h c (s.rd (CTL_CH_CFG_NSEC h)) (s.on (CTL_CH_CFG_WRAP h)) false (s.on (CTL_CH_CFG_ORDER h)) c.law
      (rampRun c against c.law.r r.sp) (c.scaled (chWidth h) 32 r.fb).1 0 0
    ∃ t : State, exec (.lawUpdateDone h false) s = .next t ∧ t.rd (CTL_CH_OUT_VALUE h) = ofSigned 32 o.uo ∧ (t.chan h).law = o.law ∧
      (t.chan h).run = none ∧ (t.chan h).refresh = true ∧ t.chState h = chRun ∧ SameBytes s t) ∧
  (∀ (h : Fin 64) (s : State),
    let c := s.chan h
    let a := s.rd (CTL_CH_TRAJ_ADDR h)
    let bytes := (s.runKeys a 64).map s.byteAt
    c.refresh = true → s.chOn h = true → s.rd (CTL_CH_SRC_SPSRC h) = 1 → s.tunOwned (s.chOwner h) a (64 + 16 * 2 ^ s.rd (CTL_CH_TRAJ_LOG2N h)) = true →
    anyPois bytes = false → rdWord (leNum bytes) 4 / 256 = c.seq → s.on MEM_INJ_CTL_ARM = false →
    ∃ t : State, exec (.trajRefresh h) s = .next t ∧ (t.chan h).refresh = false ∧ (t.chan h).base = c.ridx ∧ (t.chan h).ridx = c.ridx ∧
      (t.chan h).widx = rdWord (leNum bytes) 0 ∧ (t.chan h).ents.length = 8 ∧ SameBytesBut (s.runKeys (a + 8) 12) s t) ∧
  (∀ (p : Fin 24) (top : Bool) (s : State), top = false ∨ (s.on (CTL_PWM_CFG_LOAD p) = true ∧ s.on (CTL_PWM_CFG_MODE p) = true) →
    ∃ t : State, exec (.pwmCompareLoad p top) s = .next t ∧ t.rd (CTL_PWM_CMP_CMP p) = (s.pwm p).shadow % 2 ^ 20 ∧ (t.pwm p).shadow = (s.pwm p).shadow ∧
      ((t.pwm p).dropH = true ∨ (t.pwm p).dropL = true → t.on (CTL_PWM_STAT_PULSE_DROP p) = true) ∧
      SameRegsBut [(CTL_PWM_CMP_CMP p).off, (CTL_PWM_STAT_PULSE_DROP p).off] s t)

/-- R294 to R299, R301: a quadrature edge counts by its direction, an illegal one is an error; the index latches the count; the window gives the
velocity; a still input stalls; the sigma-delta filter reaches its full scale; pulse capture measures; an encoder's word is taken or refused. -/
def Obligations.ControlInputs : Prop :=
  (∀ (n : Fin 16) (a b : Bool) (s : State), s.on (CTL_QEI_CFG_EN n) = true →
    let q := s.qei n
    let fwd : Prop := ((q.a, q.b), (a, b)) ∈ [((false, false), (true, false)), ((true, false), (true, true)), ((true, true), (false, true)),
      ((false, true), (false, false))]
    let back : Prop := ((a, b), (q.a, q.b)) ∈ [((false, false), (true, false)), ((true, false), (true, true)), ((true, true), (false, true)),
      ((false, true), (false, false))]
    (fwd ∨ back → ∃ t : State, exec (.qeiCount n a b) s = .next t ∧ (t.qei n).a = a ∧ (t.qei n).b = b ∧ t.on (CTL_QEI_STAT_STALLED n) = false ∧
      (fwd ∧ s.on (CTL_QEI_CFG_DIR n) = false ∨ back ∧ s.on (CTL_QEI_CFG_DIR n) = true →
        t.rd (CTL_QEI_POS_VALUE n) = (s.rd (CTL_QEI_POS_VALUE n) + 1) % 2 ^ 32) ∧
      (back ∧ s.on (CTL_QEI_CFG_DIR n) = false ∨ fwd ∧ s.on (CTL_QEI_CFG_DIR n) = true →
        (t.rd (CTL_QEI_POS_VALUE n) + 1) % 2 ^ 32 = s.rd (CTL_QEI_POS_VALUE n))) ∧
    (a ≠ q.a → b ≠ q.b → ∃ t : State, exec (.qeiCount n a b) s = .next t ∧ t.on (CTL_QEI_STAT_PHASE_ERR n) = true ∧
      t.rd (CTL_QEI_STAT_PHASE_CNT n) = min (s.rd (CTL_QEI_STAT_PHASE_CNT n) + 1) 0xFFFF ∧ SameRegsBut [(CTL_QEI_STAT_PHASE_ERR n).off] s t)) ∧
  (∀ (n : Fin 16) (rising : Bool) (s : State), s.on (CTL_QEI_CFG_EN n) = true → rising ≠ s.on (CTL_QEI_CFG_IDXPOL n) →
    (s.on (CTL_QEI_CFG_IDXGATE n) = true → (s.qei n).a = true ∧ (s.qei n).b = true) →
    ∃ t : State, exec (.qeiIndex n rising) s = .next t ∧ t.rd (CTL_QEI_IDXPOS_VALUE n) = s.rd (CTL_QEI_POS_VALUE n) ∧ t.on (CTL_QEI_STAT_IDX n) = true ∧
      (t.qei n).seen = true ∧
      t.rd (CTL_QEI_POS_VALUE n) = (if s.rd (CTL_QEI_CFG_IDXRST n) = 2 ∨ (s.rd (CTL_QEI_CFG_IDXRST n) = 1 ∧ (s.qei n).seen = false) then 0
        else s.rd (CTL_QEI_POS_VALUE n))) ∧
  (∀ (n : Fin 16) (s : State), s.on (CTL_QEI_CFG_EN n) = true → s.passed (s.qei n).winFrom (8 * 2 ^ s.rd (CTL_QEI_CFG_VW n)) = true →
    ∃ t : State, exec (.qeiVelocityWindow n) s = .next t ∧
      t.rd (CTL_QEI_VEL_VALUE n) = (s.rd (CTL_QEI_POS_VALUE n) + 2 ^ 32 - (s.qei n).winPos) % 2 ^ 32 ∧
      (t.qei n).winPos = s.rd (CTL_QEI_POS_VALUE n) ∧ SameRegsBut [(CTL_QEI_VEL_VALUE n).off] s t ∧ SameBytes s t) ∧
  (∀ (n : Fin 16) (s : State), s.on (CTL_QEI_CFG_EN n) = true → s.rd (CTL_QEI_CFG_STALL n) ≠ 0 → s.on (CTL_QEI_STAT_STALLED n) = false →
    s.qeiWatched n = true → s.passed (s.qei n).still (s.rd (CTL_QEI_CFG_STALL n) * 4096 * 8) = true →
    ∃ t : State, exec (.qeiStall n) s = .next t ∧ t.on (CTL_QEI_STAT_STALLED n) = true ∧ t.on (CTL_QEI_STAT_STALL n) = true ∧ t.on CTL_EVENT_STALL = true ∧
      t.rd (CTL_QEI_POS_VALUE n) = s.rd (CTL_QEI_POS_VALUE n)) ∧
  (∀ (n : Fin 32) (v : Bool) (k : Nat) (s : State), s.on (CTL_SDM_CFG_EN n) = true → s.rd (CTL_SDM_CFG_OSR n) ≤ 4 →
    3 * (16 * 2 ^ s.rd (CTL_SDM_CFG_OSR n)) ≤ k + 2 →
    ∃ t : State, exec (.sdmFrame n (List.replicate k v)) s = .next t ∧ t.rd (CTL_SDM_VAL_VAL n) = (if v then 2 ^ 31 - 1 else 2 ^ 31) ∧
      t.on (CTL_SDM_STAT_STUCK n) = true ∧ SameRegsBut [(CTL_SDM_VAL_VAL n).off, (CTL_SDM_STAT_STUCK n).off] s t ∧ SameBytes s t) ∧
  (∀ (n : Fin 32) (s : State), s.on (CTL_SDM_CFG_EN n) = true →
    ∃ t : State, exec (.sdmClkLost n) s = .next t ∧ t.on (CTL_SDM_STAT_CLK_LOST n) = true ∧ OnlyRegs [(CTL_SDM_STAT_CLK_LOST n).off] s t) ∧
  (∀ (n ones : Fin 32) (s : State), s.on (CTL_SDM_CFG_EN n) = true → s.on (CTL_SDM_CMP_CEN n) = true →
    let hi := s.rd (CTL_SDM_CMP_CHI n) ≤ ones.val
    let lo := ones.val ≤ s.rd (CTL_SDM_CMP_CLO n)
    let h := s.rd (CTL_SDM_CFG_TRIPCH n)
    ∃ t : State, exec (.sdmComparatorTrip n ones) s = .next t ∧ (hi → t.on (CTL_SDM_STAT_HI n) = true) ∧ (lo → t.on (CTL_SDM_STAT_LO n) = true) ∧
      (s.on (CTL_SDM_CMP_CTRIP n) = false ∨ ¬ (hi ∨ lo) → OnlyRegs [(CTL_SDM_STAT_HI n).off] s t) ∧
      (s.on (CTL_SDM_CMP_CTRIP n) = true → hi ∨ lo → s.chState h = chRun → t.chState h = chTripped ∧ t.rd (CTL_CH_STATUS_CAUSE h) = tcSdmcmp % 1024)) ∧
  (∀ (n : Fin 16) (rising : Bool) (s : State) (r : Nat), s.on (CTL_PCAP_CFG_EN n) = true → rising ≠ s.on (CTL_PCAP_CFG_POL n) →
    (s.pcap n).rise = some r →
    let per := (s.now / 2 + 2 ^ 63 - r) % 2 ^ 63
    0 < per →
    ∃ t : State, exec (.pcapEdge n rising) s = .next t ∧
      (s.rd (CTL_PCAP_CFG_MODE n) = 1 → t.rd (CTL_PCAP_VAL_VAL n) = min per (2 ^ 32 - 1)) ∧
      (∀ f, s.rd (CTL_PCAP_CFG_MODE n) = 0 → (s.pcap n).fall = some f →
        t.rd (CTL_PCAP_VAL_VAL n) = (min (rneQuot (((f + 2 ^ 63 - r) % 2 ^ 63) * 2 ^ 31 : Nat) per) (2 ^ 31 - 1)).toNat % 2 ^ 32) ∧
      (t.pcap n).rise = some (s.now / 2) ∧ (t.pcap n).level = true) ∧
  (∀ (n : Fin 16) (s : State), s.on (CTL_PCAP_CFG_EN n) = true → s.rd (CTL_PCAP_CFG_TOUT n) ≠ 0 →
    s.passed (s.pcap n).last (s.rd (CTL_PCAP_CFG_TOUT n) * 512) = true →
    ∃ t : State, exec (.noedge n) s = .next t ∧ t.on (CTL_PCAP_STAT_NOEDGE n) = true ∧ OnlyRegs [(CTL_PCAP_STAT_NOEDGE n).off, (CTL_PCAP_VAL_VAL n).off] s t ∧
      t.rd (CTL_PCAP_VAL_VAL n) = (match s.rd (CTL_PCAP_CFG_MODE n) with
        | 0 => if (s.pcap n).level then 2 ^ 31 - 1 else 0
        | 1 => 0
        | _ => s.rd (CTL_PCAP_VAL_VAL n))) ∧
  (∀ (n : Fin 8) (dat : Bool) (s : State), s.on (CTL_ENC_CFG_EN n) = true → (s.enc n).due = true → (s.enc n).busy = false →
    ∃ t : State, exec (.encRead n dat) s = .next t ∧ t.enc n = { s.enc n with due := false, busy := true, line := !dat } ∧
      (∀ m, m ≠ n.val → t.enc m = s.enc m) ∧ t = { s with ctl := { s.ctl with enc := t.ctl.enc } }) ∧
  (∀ (n : Fin 8) (pos : BitVec 40) (status : BitVec 8) (par back : Bool) (s : State), s.on (CTL_ENC_CFG_EN n) = true → (s.enc n).busy = true →
    s.rd (CTL_ENC_CFG_PAR n) = 0 →
    let raw := pos.toNat % 2 ^ s.rd (CTL_ENC_CFG_PW n)
    let bad := status.toNat % 2 ^ s.rd (CTL_ENC_CFG_SB n) ≠ 0 ∨ (s.enc n).line = true ∨ back = false
    ∃ t : State, exec (.encReadDone n pos status par back) s = .next t ∧ (t.enc n).busy = false ∧
      (bad → t.rd (CTL_ENC_POS_POS n) = s.rd (CTL_ENC_POS_POS n) ∧ (t.enc n).vel = (s.enc n).vel ∧
        (t.on (CTL_ENC_STAT_LINE n) = true ∨ t.on (CTL_ENC_STAT_SBERR n) = true)) ∧
      (¬ bad → s.on (CTL_ENC_CFG_GRAY n) = false → t.rd (CTL_ENC_POS_POS n) = raw))

/-! ### Time and events (R319 to R343) -/

/-- R320, R323 to R326, R329 to R332, R342, R343: a write with COMMIT stages a legal commit for its count and refuses an illegal one; SET takes the
new set, STEP moves the reading by its offset, RATE leaves it; the servo drops a stale pair, steps on a large error and steers on another; the
PPS pins, the snapshot, the alarm and the rings act when they are due. -/
def Obligations.TimeCommands : Prop :=
  (∀ (n : Fin 4) (v : BitVec 32) (s : State),
    let off := (TIM_TS_CTL_COMMIT n).off
    let late := bit v.toNat 28 = true ∧ s.rd (TIM_AT_VALUE n) ≤ s.now
    s.on (TIM_TS_CTL_COMMIT n) = false → s.locked off = false → bit v.toNat 31 = true →
    (bits v.toNat 30 29 ≤ 2 → rateOk (s.rd (TIM_RATE_VALUE n)) = true →
      ∃ t : State, exec (.timTsCommitWrite .image n v) s = .next t ∧ t.on (TIM_TS_CTL_COMMIT n) = true ∧ t.rd (TIM_TS_CTL_MODE n) = bits v.toNat 30 29 ∧
        mget (fun _ => 0) t.tim.commitAt n = (if bit v.toNat 28 = true ∧ ¬ late then tickAt (s.rd (TIM_AT_VALUE n)) else s.secondTick) ∧
        (late → t.on (TIM_TS_STAT_LATE n) = true) ∧ SameRegsBut [off, (TIM_TS_STAT_LATE n).off] s t) ∧
    (bits v.toNat 30 29 = 3 ∨ rateOk (s.rd (TIM_RATE_VALUE n)) = false →
      ∃ t : State, exec (.timTsCommitWrite .image n v) s = .next t ∧ t.on (TIM_TS_CTL_ERR n) = true ∧ t.on TIM_EVENT_CFG_ERR = true ∧
        t.on (TIM_TS_CTL_COMMIT n) = false ∧ OnlyRegs [off, TIM_EVENT_CFG_ERR.off] s t)) ∧
  (∀ (n : Fin 4) (s : State),
    let c := mget (fun _ => 0) s.tim.commitAt n
    let off := toSigned 64 (s.rd (TIM_OFFSET_VALUE n))
    s.on (TIM_TS_CTL_COMMIT n) = true → c ≤ s.now →
    ∃ t : State, exec (.timescaleCommit n) s = .next t ∧ t.on (TIM_TS_CTL_COMMIT n) = false ∧ t.rd (TIM_ABASE_VALUE n) = c ∧
      t.rd (TIM_TS_STAT_COMMITS n) = (s.rd (TIM_TS_STAT_COMMITS n) + 1) % 2 ^ 16 ∧
      t.rd (TIM_HIST_BASE_VALUE n 0) = s.rd (TIM_ABASE_VALUE n) ∧ t.rd (TIM_HIST_OFFSET_VALUE n 0) = s.rd (TIM_AOFF_VALUE n) ∧
      t.rd (TIM_HIST_RATE_VALUE n 0) = s.rd (TIM_ARATE_VALUE n) ∧
      (s.rd (TIM_TS_CTL_MODE n) = 0 → t.readingAt n c = s.rd (TIM_OFFSET_VALUE n) ∧ t.rd (TIM_ARATE_VALUE n) = s.rd (TIM_RATE_VALUE n)) ∧
      (s.rd (TIM_TS_CTL_MODE n) = 1 → (t.readingAt n c : Int) = (s.readingAt n c + off) % 2 ^ 64 ∧
        t.rd (TIM_ARATE_VALUE n) = s.rd (TIM_ARATE_VALUE n)) ∧
      (s.rd (TIM_TS_CTL_MODE n) = 2 → t.readingAt n c = s.readingAt n c ∧ t.rd (TIM_ARATE_VALUE n) = s.rd (TIM_RATE_VALUE n)) ∧
      (∀ m, m < 4 → m ≠ n.val → ∀ k, t.readingAt m k = s.readingAt m k)) ∧
  (∀ (s : State) (src ref c : Nat) (rest : List (Nat × Nat × Nat)), s.tim.pairs = (src, ref, c) :: rest → s.on TIM_SRV_CFG_EN = true →
    s.rd TIM_SRV_CFG_SRC = src →
    let n := s.rd TIM_SRV_CFG_TS
    let e := toSigned 64 ((ref + 2 ^ 64 - s.readingAt n c) % 2 ^ 64)
    let stale := c < s.rd (TIM_ABASE_VALUE n) ∨ (src = 1 ∧ 5 * 10 ^ 8 ≤ e.natAbs)
    let thr := s.rd TIM_SRV_STEP_THR_THR
    ∃ t : State, exec .servoPair s = .next t ∧ t.tim.pairs = rest ∧
      (stale → t.rd TIM_SRV_STAT_STALE_PAIRS = min (s.rd TIM_SRV_STAT_STALE_PAIRS + 1) 0x7FFF ∧ t.tim.srvPend = s.tim.srvPend ∧
        t.tim.servoI = s.tim.servoI) ∧
      (¬ stale → toSigned 64 (t.rd TIM_SRV_ERR_E) = e ∧
        (thr ≠ 0 ∧ thr ≤ e.natAbs → t.tim.srvPend = some (1, e, 0, s.secondTick) ∧ t.tim.servoI = 0 ∧ t.on TIM_EVENT_SRV_STEP = true) ∧
        (thr = 0 ∨ e.natAbs < thr →
          let i := clampInt (-(2 ^ 31)) (2 ^ 31 - 1) (s.tim.servoI + e)
          t.tim.servoI = i ∧ ∃ rate : Nat, t.tim.srvPend = some (2, 0, rate, s.secondTick) ∧ rateOk rate = true))) ∧
  (∀ (rising : Bool) (s : State), s.on TIM_PPSI_CFG_EN = true → rising ≠ s.on TIM_PPSI_CFG_POL →
    let r := s.readingAt (s.rd TIM_SRV_CFG_TS) s.stamp
    ∃ (t : State) (m : Nat), exec (.ppsInEdge rising) s = .next t ∧ t.tim.pairs = s.tim.pairs ++ [(1, m * 10 ^ 9 % 2 ^ 64, s.stamp)] ∧
      m * 10 ^ 9 ≤ r + 5 * 10 ^ 8 ∧ r + 5 * 10 ^ 8 < (m + 1) * 10 ^ 9) ∧
  (∀ (s : State),
    let r := s.timeAt (s.rd TIM_PPSO_CFG_TS) s.stamp
    s.on TIM_PPSO_CFG_EN = true → s.tim.ppsNext ≤ r →
    ∃ (t : State) (m : Nat), exec .ppsOutPulse s = .next t ∧ t.tim.ppsOut = true ∧ t.tim.ppsEnd = (s.stamp + 8 * s.rd TIM_PPSO_CFG_WIDTH) % 2 ^ 64 ∧
      t.tim.ppsNext = m * 10 ^ 9 + 10 ^ 9 ∧ m * 10 ^ 9 ≤ r ∧ r < t.tim.ppsNext ∧
      (t.on TIM_EVENT_PPSO_SKIP = true ↔ s.on TIM_EVENT_PPSO_SKIP = true ∨ s.tim.ppsNext < m * 10 ^ 9) ∧ SameRegsBut [TIM_EVENT_PPSO_SKIP.off] s t) ∧
  (∀ (s : State), s.tim.ppsOut = true → s.tim.ppsEnd ≤ s.now →
    ∃ t : State, exec .ppsOutPulseEnd s = .next t ∧ t = { s with tim := { s.tim with ppsOut := false } }) ∧
  (∀ (v : BitVec 32) (s : State), bit v.toNat 0 = true →
    ∃ t : State, exec (.timSnap .image v) s = .next t ∧ t.rd TIM_SNAP_COUNT_VALUE = s.stamp % 2 ^ 64 ∧
      (∀ n, n < 4 → t.rd (TIM_SNAP_READ_VALUE n) = s.readingAt n s.stamp) ∧ t = { s with regs := t.regs }) ∧
  (∀ (s : State), s.tim.alarmAhead = true → s.rd TIM_ALARM_VALUE ≤ s.now →
    ∃ t : State, exec .alarm s = .next t ∧ t.tim.alarmAhead = false ∧ (s.on TIM_EVENT_ALARM_EN = true → t.on TIM_EVENT_ALARM = true) ∧
      SameRegsBut [TIM_EVENT_ALARM.off] s t ∧ (s.on TIM_EVENT_ALARM_EN = false → SameRegsBut [] s t)) ∧
  (∀ (s : State), bit s.pwr.dead 3 = false → s.pwr.cellar ≠ 2 →
    ∃ t : State, exec .clkTimeStart s = .next t ∧ t = { s with tim := { s.tim with ao := false } }) ∧
  (∀ (p : Fin 16) (v : BitVec 32) (s : State),
    let off := (EVT_RING_CFG_EN p).off
    s.on (EVT_RING_CFG_EN p) = false → bit v.toNat 31 = true → 4 ≤ bits v.toNat 20 16 → bits v.toNat 20 16 ≤ 16 →
    s.rd (EVT_RING_BASE_ADDR p) % 64 = 0 → s.rd (EVT_RING_RADDR_ADDR p) % 4 = 0 →
    s.tunOwned p (s.rd (EVT_RING_BASE_ADDR p)) (16 * 2 ^ bits v.toNat 20 16) = true → s.tunOwned p (s.rd (EVT_RING_RADDR_ADDR p)) 4 = true →
    (bit v.toNat 15 = true → s.coreIn (bits v.toNat 7 0) p = true) →
    ∃ t : State, exec (.evtRingEnable .image off v) s = .next t ∧ t.on (EVT_RING_CFG_EN p) = true ∧ t.rd (EVT_RING_WIDX_COUNT p) = 0 ∧
      mget (fun _ => 0) t.evt.read p = 0 ∧ SameRegsBut [off, (EVT_RING_WIDX_COUNT p).off] s t)

/-! ### Safety (R388 to R418) -/

/-- R390, R392, R396 to R401: a report from a core of the channel's partition is filed by frame, and one that is not counts as bad; equal records
agree and different ones raise CMP, as does a frame whose partner never came; a built-in pair judged wrongly raises SAFSELF; an epoch names the
cores to check, each sends one CRC, and a wrong CRC of a class-S core raises GRAV. -/
def Obligations.SafetyChecks : Prop :=
  (∀ (c : Fin 256) (s : State) (m : Msg) (rest : List Msg) (code payload : Nat), s.msgs = m :: rest → s.crosses m = false → m.cls = .saf →
    m.src = c.val → m.body = .report code payload →
    let k := code % 16
    let ch := payload / 2 ^ 32
    let f := payload % 2 ^ 32
    let fits := s.on (SAF_CMP_CFG_EN k) = true ∧ payload < 2 ^ 33 ∧ s.coreOwner c = some (s.cmpPart k ch)
    ∃ t : State, exec (.safReport c) s = .next t ∧ t.msgs = rest ∧
      (¬ fits → t.on SAF_WARN_BADREP = true ∧ t.saf = s.saf ∧ SameRegsBut [SAF_WARN_BADREP.off] s t) ∧
      (fits → (∀ x ∈ s.pendOf k, x.1 ≠ f) → (s.pendOf k).length < 4 →
        t.pendOf k = s.pendOf k ++ [(f, ch, s.now)] ∧ t.readyOf k = s.readyOf k ∧ SameRegsBut [] s t) ∧
      (fits → (∃ x, (s.pendOf k).find? (fun x => x.1 == f) = some x ∧ x.2.1 ≠ ch) →
        t.pendOf k = (s.pendOf k).filter (fun x => x.1 != f) ∧ t.readyOf k = s.readyOf k ++ [f] ∧ SameRegsBut [] s t)) ∧
  (∀ (k : Fin 16) (s s1 s2 : State) (f : Nat) (rest : List Nat) (a b : List MByte), s.readyOf k = f :: rest →
    (s.setReady k rest).readRec k 0 f = (some a, s1) → s1.readRec k 1 f = (some b, s2) → anyPois a = false → anyPois b = false →
    leNum a % 2 ^ 32 = f → leNum b % 2 ^ 32 = f → s2.rd (SAF_CMP_CFG_MODE k) = 0 →
    ∃ t : State, exec (.safVerdict k) s = .next t ∧ t.readyOf k = rest ∧ t.rd (SAF_CMP_LAST_FRAME k) = f ∧
      (leNum a = leNum b → t.on (SAF_CMP_STAT_LAST_OK k) = true ∧ t.rd (SAF_CMP_STAT_LAST_REASON k) = 0) ∧
      (leNum a ≠ leNum b → t.on (SAF_CMP_STAT_LAST_OK k) = false ∧ t.rd (SAF_CMP_STAT_LAST_REASON k) = 1 ∧
        t.rd (SAF_CMP_STAT_DISAGREES k) = min (s2.rd (SAF_CMP_STAT_DISAGREES k) + 1) 0xFFFF ∧ CauseTaken s2 t 1)) ∧
  (∀ (k : Fin 16) (s : State) (f ch c0 : Nat) (rest : List (Nat × Nat × Nat)), s.pendOf k = (f, ch, c0) :: rest →
    s.passed c0 (max (s.rd (SAF_CMP_TMO_TMO k)) 1 * 1000) = true →
    ∃ t : State, exec (.comparatorTimeout k) s = .next t ∧ t.pendOf k = rest ∧ t.on (SAF_CMP_STAT_LAST_OK k) = false ∧
      t.rd (SAF_CMP_STAT_LAST_REASON k) = 3 ∧ t.rd (SAF_CMP_LAST_FRAME k) = f % 2 ^ 32 ∧
      t.rd (SAF_CMP_STAT_DISAGREES k) = min (s.rd (SAF_CMP_STAT_DISAGREES k) + 1) 0xFFFF ∧ CauseTaken s t 1) ∧
  (∀ (k : Fin 16) (right : Bool) (s : State), mget (fun _ => false) s.saf.builtin k = true → s.on (SAF_CMP_CFG_EN k) = true →
    ∃ t : State, exec (.builtinPairCheck k right) s = .next t ∧ mget (fun _ => false) t.saf.builtin k = false ∧
      (right = true → SameRegsBut [] s t) ∧ (right = false → CauseTaken s t 12)) ∧
  (∀ (s : State),
    let r := s.timeAt (s.rd SAF_FRM_CFG_TS) s.stamp
    let st := s.rd SAF_FRM_START_START
    s.on SAF_FRM_CFG_EN = true → s.saf.epochOn = false → st ≤ r →
    ∃ t : State, exec .epochStart s = .next t ∧ t.rd SAF_EPOCH_EPOCH = (r - st) / max (s.rd SAF_FRM_PERIOD_PERIOD) 1 % 2 ^ 64 ∧ t.saf.epochOn = true ∧
      (∀ c, t.gravResult c = 0 ∧ (t.gravActive c = true ↔ s.on SAF_GRAV_CFG_EN = true ∧ c < 256 ∧
        ∃ p, s.coreOwner c = some p ∧ s.rd (PART_STATUS_STATE p) = stRunning ∧ s.gravPart p = true)) ∧
      SameRegsBut [SAF_EPOCH_EPOCH.off, SAF_EPOCH_EPOCH.off + 4] s t) ∧
  (∀ (c : Fin 256) (s : State), s.gravActive c = true → mget (fun _ => false) s.saf.ran c = false → s.awake c = true →
    (s.idlePoint c = true ∨ s.lateEpoch = true) →
    ∃ (t : State) (m : Msg) (crc : Nat), exec (.gravityRun c) s = .next t ∧ t.msgs = s.msgs ++ [m] ∧ m.cls = .saf ∧ m.src = c.val ∧
      m.body = .gravity (s.rd SAF_EPOCH_EPOCH) crc ∧ mget (fun _ => false) t.saf.ran c = true ∧ SameRegsBut [] s t) ∧
  (∀ (c : Fin 256) (s : State) (m : Msg) (rest : List Msg) (crc : Nat), s.msgs = m :: rest → s.crosses m = false → m.cls = .saf → m.src = c.val →
    m.body = .gravity (s.rd SAF_EPOCH_EPOCH) crc → s.gravActive c = true →
    let good := crc = s.rd (SAF_GRAV_CRC_CRC (s.rd SAF_EPOCH_EPOCH % 16))
    ∃ t : State, exec (.gravityResult c) s = .next t ∧
      (good → t.msgs = rest ∧ t.gravResult c = 1 ∧ SameRegsBut [] s t) ∧
      (¬ good → t.gravResult c = 2 ∧ t.rd SAF_GRAV_STAT_FAILS = min (s.rd SAF_GRAV_STAT_FAILS + 1) 0xFFFF ∧ t.on SAF_GRAV_STAT_FVALID = true ∧
        (∀ p, s.coreOwner c = some p → s.classOf p = 0 → CauseTaken s t 2) ∧
        (∀ p, s.coreOwner c = some p → s.classOf p ≠ 0 → t.on SAF_WARN_GRAV_NONS = true ∧ t.rd SAF_CAUSE_CAUSE = s.rd SAF_CAUSE_CAUSE)))

/-- R402 to R406, R418: a quad's step wakes its first spare for the next victim and moves the victim's core there; a step not handed over in its
window is skipped and counted; a victim that passes becomes the last spare, one that fails is retired, and for a class-S core FTFAIL arises; a
self-test runs at once, or waits until its partition is not RUNNING. -/
def Obligations.FloorTurning : Prop :=
  (∀ (q : Fin 4) (s : State), s.on SAF_FT_CFG_EN = true → (s.quad q).step = 0 →
    s.passed (s.quad q).began (s.rd SAF_FT_CFG_PERIOD * 10 ^ 6) = true →
    (s.sparesOf q = [] → ∃ t : State, exec (.ftStep q) s = .next t ∧ t.on SAF_WARN_FT_NOSPARE = true ∧ OnlyRegs [SAF_WARN_FT_NOSPARE.off] s t) ∧
    (∀ spare r pos o, s.sparesOf q = spare :: r → s.pickVictim q = some (pos, o) →
      ∃ t : State, exec (.ftStep q) s = .next t ∧ t.quad q = ⟨1, pos, (s.coreAt pos).getD 0, spare, s.now⟩ ∧ t.on (SAF_FT_QUAD_BUSY q) = true ∧
        t.rd (SAF_FT_QUAD_VICTIM q) = ((pos % 16 - 4 * q) * 17 + pos / 16) % 128 ∧ t.saf.place = s.saf.place)) ∧
  (∀ (q : Fin 4) (s : State), (s.quad q).step = 1 → s.idlePoint (s.quad q).core = true → s.pwr.spareOn.contains (s.quad q).spare = true →
    s.domState (posDom (s.quad q).spare) = 0 →
    ∃ t : State, exec (.ftHandover q) s = .next t ∧ t.placeOf (s.quad q).core = (s.quad q).spare ∧
      (∀ c, c ≠ (s.quad q).core → t.placeOf c = s.placeOf c) ∧ (t.quad q).step = 2 ∧ t.mem = s.mem ∧ t.core = s.core) ∧
  (∀ (q : Fin 4) (s : State), (s.quad q).step = 1 → s.passed (s.quad q).began (s.rd SAF_FT_CFG_HWIN * 10 ^ 6) = true →
    ∃ t : State, exec (.ftHandoverAbandon q) s = .next t ∧ (t.quad q).step = 0 ∧ t.on (SAF_FT_QUAD_BUSY q) = false ∧ t.on SAF_WARN_FT_SKIP = true ∧
      t.rd SAF_FT_STAT_SKIPS = min (s.rd SAF_FT_STAT_SKIPS + 1) 0xFF ∧ t.saf.place = s.saf.place) ∧
  (∀ (q : Fin 4) (pass : Bool) (s : State), (s.quad q).step = 2 →
    let x := s.quad q
    let rest := (s.sparesOf q).filter (· != x.spare)
    ∃ t : State, exec (.ftBistDone q pass) s = .next t ∧ (t.quad q).step = 0 ∧ t.on (SAF_FT_QUAD_BUSY q) = false ∧
      mget (fun _ => 0) t.saf.lastBist x.victim = s.now ∧
      (pass = true → t.sparesOf q = rest ++ [x.victim] ∧ t.saf.retired = s.saf.retired) ∧
      (pass = false → t.sparesOf q = rest ∧ t.saf.retired = s.saf.retired ++ [x.victim] ∧ t.on SAF_WARN_FT_RETIRE = true ∧
        t.rd SAF_FT_STAT_RETIRED = min (s.rd SAF_FT_STAT_RETIRED + 1) 0xFF ∧
        ∀ p, s.coreOwner x.core = some p → s.classOf p = 0 → CauseTaken s t 11)) ∧
  (∀ (c : Fin 256) (s : State), s.passed (mget (fun _ => 0) s.saf.lastBist (s.placeOf c)) (90 * 10 ^ 9) = true →
    ∃ t : State, exec (.ftLate c) s = .next t ∧ t.on SAF_WARN_FT_LATE = true ∧ OnlyRegs [SAF_WARN_FT_LATE.off] s t) ∧
  (∀ (v : BitVec 32) (pass : Bool) (s : State), s.blockOff (SAF_FT_REQ_GO.off >>> 20) = false → bit v.toNat 31 = true →
    bits v.toNat 29 28 ≤ 2 →
    let type := bits v.toNat 29 28
    let tg := bits v.toNat 8 0
    let busy := s.saf.selfTest.isSome = true ∨ s.rd SAF_FT_RES_STATUS = 1 ∨ s.rd SAF_FT_RES_STATUS = 4
    ∃ t : State, exec (.safFtReq .image v pass) s = .next t ∧
      (busy → t.rd SAF_FT_RES_STATUS = 5 ∧ t.saf = s.saf) ∧
      (¬ busy → t.rd SAF_FT_RES_TARGET = tg ∧
        (type = 0 ∧ s.turns tg = true → t.rd SAF_FT_RES_STATUS = 1 ∧ t.saf.selfTest = some (type, tg, false) ∧
          (3, s.placeOf tg) ∈ t.saf.victims) ∧
        (¬ (type = 0 ∧ s.turns tg = true) → s.testFree type tg = true →
          t.rd SAF_FT_RES_STATUS = (if pass = true then 2 else 3) ∧ t.saf.selfTest = none) ∧
        (¬ (type = 0 ∧ s.turns tg = true) → s.testFree type tg = false →
          t.rd SAF_FT_RES_STATUS = 4 ∧ t.saf.selfTest = some (type, tg, true))) ∧
      SameRegsBut [SAF_FT_REQ_GO.off, SAF_FT_RES_STATUS.off] s t) ∧
  (∀ (pass : Bool) (s : State) (type tg : Nat), s.saf.selfTest = some (type, tg, true) → ¬ (type = 0 ∧ s.turns tg = true) →
    s.testFree type tg = true →
    ∃ t : State, exec (.selftestDeferredRun pass) s = .next t ∧ t.rd SAF_FT_RES_STATUS = (if pass = true then 2 else 3) ∧
      t.rd SAF_FT_RES_TARGET = tg % 512 ∧ t.on SAF_FT_REQ_GO = false ∧ t = { s with regs := t.regs, saf := { s.saf with selfTest := none } } ∧
      SameRegsBut [SAF_FT_REQ_GO.off, SAF_FT_RES_STATUS.off] s t)

/-- R34, R36, R407 to R416: TRIP_IN_n, a run of bad frames, a pin that differs from its register and ENTER raise their causes; ARM with its key asks
for arming where no cause stands and the slots are sound, and is refused otherwise; heartbeats go to the manager and the deputy and are judged;
a demoted device is inactive with its pins safe, a promoted one active; a device out of touch demotes itself. -/
def Obligations.SafeStateAndFailover : Prop :=
  (∀ (k : Fin 2) (s : State),
    ∃ t : State, exec (.tripInAssert k) s = .next t ∧ mget (fun _ => false) t.saf.tripLow k = true ∧ t.on SAF_STATE_TRIPLATCH = true ∧
      (∀ p, p < 24 → bit (s.rd (CTL_PWM_CFG_TRIPIN p)) k = true → t.on (CTL_PWM_STAT_TRIPIN_LATCH p) = true) ∧
      (s.on SAF_STATE_TRIPLATCH = false → CauseTaken s t 0) ∧
      (s.on SAF_STATE_TRIPLATCH = true → t.rd SAF_CAUSE_CAUSE = s.rd SAF_CAUSE_CAUSE)) ∧
  (∀ (s : State) (m : Msg) (rest : List Msg) (k flags : Nat) (missing : Bool), s.msgs = m :: rest → s.crosses m = false → m.cls = .saf →
    m.body = .frame k flags missing → bit (s.rd SAF_FRZ_MASK_MASK) k = true →
    let n := mget (fun _ => 0) s.saf.frzRun k + 1
    let lim := s.rd SAF_FRZ_CFG_LIMIT
    ∃ t : State, exec .frameFlag s = .next t ∧
      (flags = 0 ∧ missing = false → mget (fun _ => 0) t.saf.frzRun k = 0 ∧ SameRegsBut [] s t) ∧
      (flags ≠ 0 ∨ missing = true → mget (fun _ => 0) t.saf.frzRun k = n ∧ (lim ≠ 0 ∧ lim ≤ n → CauseTaken s t 5) ∧
        (lim = 0 ∨ n < lim → t.on SAF_WARN_FRAME_FLAG = true ∧ SameRegsBut [SAF_WARN_FRAME_FLAG.off] s t))) ∧
  (∀ (s : State), s.saf.sweeping = true →
    ∃ t : State, exec .sweepDone s = .next t ∧ t.on SAF_STATE_SWEEP_DONE = true ∧ t.saf.sweeping = false ∧ t.on SAF_STATE_SAFE = s.on SAF_STATE_SAFE ∧
      SameRegsBut [SAF_STATE_SAFE.off] s t) ∧
  (∀ (b : Bool) (s : State), ∃ t : State, exec (.pinmon b) s = .next t ∧ CauseTaken s t 10) ∧
  (∀ (v : BitVec 32) (s : State), s.blockOff (SAF_CTL_ARM.off >>> 20) = false → bit v.toNat 0 = true → bit v.toNat 1 = false →
    let met := s.rd SAF_CAUSE_CAUSE = 0 ∧ s.tripPins = 0 ∧ s.slotsOk = true
    ∃ t : State, exec (.arm .image v) s = .next t ∧
      (bits v.toNat 31 16 ≠ 0x5AF3 → t = s) ∧
      (bits v.toNat 31 16 = 0x5AF3 → met → t.saf.armReq = true ∧ t.on SAF_STATE_TRIPLATCH = false ∧ t.saf.armGood = false ∧
        t.on SAF_STATE_SAFE = s.on SAF_STATE_SAFE ∧ t.pinsOperate = s.pinsOperate ∧ SameRegsBut [SAF_STATE_SAFE.off] s t) ∧
      (bits v.toNat 31 16 = 0x5AF3 → ¬ met → t.on SAF_WARN_CFG_ERR = true ∧ OnlyRegs [SAF_WARN_CFG_ERR.off] s t)) ∧
  (∀ (v : BitVec 32) (s : State), s.blockOff (SAF_CTL_ARM.off >>> 20) = false → bit v.toNat 1 = true → bit v.toNat 0 = false →
    bits v.toNat 31 16 = 0x5AF3 → ∃ t : State, exec (.enter .image v) s = .next t ∧ CauseTaken s t 15) ∧
  (∀ (s : State), s.on SAF_FO_CFG_EN = true → s.passed s.saf.hbSent (10 ^ 6) = true →
    ∃ t : State, exec .heartbeatSend s = .next t ∧ t.saf = { s.saf with hbSent := s.now } ∧ SameRegsBut [] s t ∧
      t.out = s.out ++ ((dedup [s.managerChip, s.rd SAF_FO_CFG_DEPUTY]).filter (· != s.ownChip)).map fun k =>
        Ext.heartbeat k (s.on SAF_STATE_SAFE) (s.on SAF_STATE_ARMED) (s.on SAF_STATE_ACTIVE)) ∧
  (∀ (chip : Fin 8) (s : State), s.on SAF_FO_CFG_EN = true → chip.val ≠ s.ownChip →
    (∀ act : Bool, ∃ t : State, exec (.heartbeatReceive chip (some (false, act)) false) s = .next t ∧ mget (fun _ => 0) t.saf.hbMissed chip = 0 ∧
      mget (fun _ => false) t.saf.hbActive chip = act ∧ t.out = s.out ∧ SameRegsBut [] s t) ∧
    (s.on LNK_STATE_RETRAIN = false → mget (fun _ => 0) s.saf.hbMissed chip + 1 < 5 →
      ∃ t : State, exec (.heartbeatReceive chip none false) s = .next t ∧
        mget (fun _ => 0) t.saf.hbMissed chip = mget (fun _ => 0) s.saf.hbMissed chip + 1 ∧ t.out = s.out ∧ SameRegsBut [] s t) ∧
    (s.on LNK_STATE_RETRAIN = false → 4 ≤ mget (fun _ => 0) s.saf.hbMissed chip → mget (fun _ => false) s.saf.hbActive chip = true →
      s.managerChip = s.ownChip → s.rd SAF_FO_CFG_PARTNER = chip →
      ∃ t : State, exec (.heartbeatReceive chip none false) s = .next t ∧ t.out = s.out ++ [.demote chip] ∧ t.on SAF_STATE_ACTIVE = true ∧
        t.on SAF_FO_STAT_LOST_SEEN = true ∧ t.rd SAF_FO_STAT_FROM = s.ownChip ∧
        t.rd SAF_FO_STAT_FAILOVERS = min (s.rd SAF_FO_STAT_FAILOVERS + 1) 0xFFFF ∧
        SameRegsBut [SAF_STATE_SAFE.off, SAF_FO_STAT_ACTIVE.off] s t)) ∧
  (∀ (chip : Fin 8) (s : State), s.on SAF_FO_CFG_EN = true →
    (∃ t : State, exec (.demote chip) s = .next t ∧ t.on SAF_STATE_ACTIVE = false ∧ t.on SAF_STATE_ARMED = false ∧ t.pinsOperate = false ∧
      t.rd SAF_FO_STAT_FROM = chip ∧ t.on SAF_STATE_SAFE = s.on SAF_STATE_SAFE ∧ SameRegsBut [SAF_STATE_SAFE.off, SAF_FO_STAT_ACTIVE.off] s t) ∧
    (∃ t : State, exec (.promote chip) s = .next t ∧ t.on SAF_STATE_ACTIVE = true ∧ t.rd SAF_FO_STAT_FROM = chip ∧ t.saf = s.saf ∧
      t.rd SAF_FO_STAT_FAILOVERS = min (s.rd SAF_FO_STAT_FAILOVERS + 1) 0xFFFF ∧ SameRegsBut [SAF_STATE_SAFE.off, SAF_FO_STAT_ACTIVE.off] s t)) ∧
  (∀ (s : State), s.on SAF_FO_CFG_EN = true → s.on SAF_STATE_ACTIVE = true → s.managerChip ≠ s.ownChip → s.rd SAF_FO_CFG_DEPUTY ≠ s.ownChip →
    3 ≤ mget (fun _ => 0) s.saf.hbMissed s.managerChip → 3 ≤ mget (fun _ => 0) s.saf.hbMissed (s.rd SAF_FO_CFG_DEPUTY) →
    ∃ t : State, exec .selfDemotion s = .next t ∧ t.on SAF_STATE_ACTIVE = false ∧ t.pinsOperate = false ∧ CauseTaken s t 14)

/-! ### The host (R419 to R442) and input edges (R334) -/

/-- R422 to R427, R430, R431, R433, R434: an inbound request meets its slice, or ends as unsupported; a read that passes its checks returns the
bytes, a write stores them; a slice and a queue's vector take effect only where R421 and R434 allow; a doorbell raises its event or is counted;
an outbound read ends in its data or in an error. -/
def Obligations.HostRequests : Prop :=
  (∀ (r : Inbound) (s : State), s.on (VMS_PORT_STAT_UP (b2n r.port)) = true → mget (fun _ => false) s.vms.d3 (b2n r.port) = false →
    (s.sliceFor r = .unmatched → ∃ t : State, exec (.inboundRequest r) s = .next t ∧ t.on VMS_EVENT_UR = true ∧ SameRegsBut [VMS_EVENT_UR.off] s t ∧
      SameBytes s t ∧ t.out = s.out ++ (if r.read.isSome = true then [.completion r.port 1 []] else [])) ∧
    (∀ c, s.sliceFor r = .slice c → r.bar.val = 0 → r.read = some 4 →
      (s.reach (.host c) r.off 4 false = .ok → ∃ t : State, exec (.inboundRequest r) s = .next t ∧ SameRegsBut [] s t ∧ SameBytes s t ∧
        t.out = s.out ++ [.completion r.port 0 (leBytes 4 (s.readWord (.host c) r.off).1)]) ∧
      (s.reach (.host c) r.off 4 false = .isolation → ∃ t : State, exec (.inboundRequest r) s = .next t ∧ t.on VMS_EVENT_ISO = true ∧
        t.rd (VMS_SL_STAT_ISO c) = min (s.rd (VMS_SL_STAT_ISO c) + 1) 0xFFFF ∧ Ext.completion r.port 2 [] ∈ t.out)) ∧
    (∀ c, s.sliceFor r = .slice c → r.bar.val ≠ 0 → s.memory.filling = false → s.lpReady r.addr = true →
      s.lpReady (r.addr + (r.len - 1)) = true → s.checkRun ((s.slicePart c).getD 16) r.read.isNone r.addr (max r.len 1) = .ok →
      let ks := s.runKeys r.addr r.len
      (r.read.isSome = true → anyPois (ks.map s.byteAt) = false → ∃ t : State, exec (.inboundRequest r) s = .next t ∧ SameBytes s t ∧
        t.out = s.out ++ [.completion r.port 0 (ks.map s.byteAt)]) ∧
      (r.read = none → r.ep = false → s.on MEM_INJ_CTL_ARM = false → ks.Nodup → ∃ t : State, exec (.inboundRequest r) s = .next t ∧ SameBytesBut ks s t ∧
        ∀ (i k : Nat) (x : BitVec 8), ks[i]? = some k → r.data[i]? = some x → (t.byteAt k).1 = x))) ∧
  (∀ (c : Fin 64) (v : BitVec 32) (s : State),
    let off := (VMS_SL_CFG_EN c).off
    s.blockOff (off >>> 20) = false → s.locked off = false →
    (bit v.toNat 31 = true → s.sliceOk c v.toNat = true → ∃ t : State, exec (.vmsSlCfgWrite .image c v) s = .next t ∧ t.on (VMS_SL_CFG_EN c) = true ∧
      t.rd (VMS_SL_CFG_PORT c) = bits v.toNat 30 30 ∧ t.rd (VMS_SL_CFG_ADMIN c) = bits v.toNat 29 29 ∧ t.rd (VMS_SL_CFG_PEN c) = bits v.toNat 28 28 ∧
      t.rd (VMS_SL_CFG_PART c) = bits v.toNat 27 24 ∧ t.rd (VMS_SL_CFG_PASID c) = bits v.toNat 19 0 ∧ OnlyRegs [off] s t) ∧
    (bit v.toNat 31 = true → s.sliceOk c v.toNat = false → ∃ t : State, exec (.vmsSlCfgWrite .image c v) s = .next t ∧ t.on VMS_EVENT_CFG_ERR = true ∧
      OnlyRegs [VMS_EVENT_CFG_ERR.off] s t) ∧
    (bit v.toNat 31 = false → bit v.toNat 30 = false → ∃ t : State, exec (.vmsSlCfgWrite .image c v) s = .next t ∧ t.on (VMS_SL_CFG_EN c) = false ∧
      OnlyRegs [off] s t)) ∧
  (∀ (i : Fin 48) (v : BitVec 32) (s : State), s.blockOff ((VMS_QVEC_EN i).off >>> 20) = false → bit v.toNat 31 = true →
    (s.slicePart (bits v.toNat 21 16) = some (s.qPart (vecQueue i)) → ∃ t : State, exec (.vmsQvecEnable .image i v) s = .next t ∧
      t.on (VMS_QVEC_EN i) = true ∧ t.rd (VMS_QVEC_SLICE i) = bits v.toNat 21 16 ∧ t.rd (VMS_QVEC_VEC i) = bits v.toNat 4 0 ∧
      OnlyRegs [(VMS_QVEC_EN i).off] s t) ∧
    (s.slicePart (bits v.toNat 21 16) ≠ some (s.qPart (vecQueue i)) → ∃ t : State, exec (.vmsQvecEnable .image i v) s = .next t ∧
      t.on VMS_EVENT_ISO = true ∧ OnlyRegs [VMS_EVENT_ISO.off] s t)) ∧
  (∀ (c : Fin 64) (v : BitVec 32) (s : State), s.blockOff ((VMS_DB_DB c).off >>> 20) = false →
    let src := 208 + c.val
    let p := s.rd (EVT_SRC_CFG_PART src)
    let w := s.rd (EVT_RING_WIDX_COUNT p)
    let size := 2 ^ s.rd (EVT_RING_CFG_LOG2SIZE p)
    (s.slicePart c ≠ some p → ∃ t : State, exec (.doorbell .image c v) s = .next t ∧
      t.rd (VMS_SL_STAT_DBDROP c) = min (s.rd (VMS_SL_STAT_DBDROP c) + 1) 0xFFFF ∧ OnlyRegs [(VMS_SL_STAT_DBDROP c).off] s t) ∧
    (s.slicePart c = some p → s.on (EVT_SRC_CFG_EN src) = true → s.on (EVT_RING_CFG_EN p) = true → s.evt.inTick < 512 →
      (w + 2 ^ 32 - mget (fun _ => 0) s.evt.read p) % 2 ^ 32 < size → s.on MEM_INJ_CTL_ARM = false →
      ∃ t : State, exec (.doorbell .image c v) s = .next t ∧ t.rd (EVT_RING_WIDX_COUNT p) = (w + 1) % 2 ^ 32 ∧
        ∀ (i : Nat) (x : MByte), (leBytes 8 s.stamp ++ leBytes 2 src ++ leBytes 1 (rankOf src) ++
            leBytes 1 (1 + 2 * b2n (mget (fun _ => false) s.evt.lost p)) ++ leBytes 4 v.toNat)[i]? = some x →
          (t.byteAt (s.rd (EVT_RING_BASE_ADDR p) + w % size * 16 + i)).1 = x.1)) ∧
  (∀ (c : Fin 64) (v : BitVec 32) (s : State), s.blockOff ((VMS_APIDX_INDEX c).off >>> 20) = false →
    ∃ t : State, exec (.apidxWrite .image c v) s = .next t ∧ t.rd (VMS_APIDX_INDEX c) = v.toNat ∧ OnlyRegs [(VMS_APIDX_INDEX c).off] s t) ∧
  (∀ (c : Fin 256) (s : State) (m : Msg) (rest : List Msg) (a len : Nat) (back : List (Option Nat)), s.msgs = m :: rest → s.crosses m = false →
    m.dst = epHost → m.src = c.val → m.body = .memRead a len back →
    (∀ (data : List Nat) (ep : Bool), ∃ t : State, exec (.outboundCompletion c (.ok data ep)) s = .next t ∧
      t = { s with msgs := rest ++ [m.reply (.readData back ((List.range len).map fun i => (data.getD i 0, ep)))] }) ∧
    (∀ cpl : OutCpl, cpl = .ur ∨ cpl = .ca → ∃ (t : State) (k : Nat), exec (.outboundCompletion c cpl) s = .next t ∧ t.on VMS_EVENT_UR = true ∧
      t.msgs = rest ++ [m.reply (.error k a)] ∧ SameRegsBut [VMS_EVENT_UR.off] s t ∧ SameBytes s t) ∧
    (∃ (t : State) (k : Nat), exec (.outboundTimeout c) s = .next t ∧ t.on VMS_EVENT_CTO = true ∧ t.msgs = rest ++ [m.reply (.error k a)] ∧
      SameRegsBut [VMS_EVENT_CTO.off] s t ∧ SameBytes s t))

/-- R431, R432, R435 to R440: the command of the slice whose turn it is is answered with its status: a load with 0 or its refusal code, a reset once
requested, a save with its record sent; a freeze, and a load into a COMPLETE partition, are answered when they have ended; a restored or thawed
partition has its state, plan and memory. -/
def Obligations.HostAdmin : Prop :=
  (∀ (sl : Fin 64) (tag : BitVec 16) (i : Instr) (s : State), s.nextSlice = some sl.val → s.slicePart sl = none →
    ((∃ plan, i = .adminLoad sl tag plan) ∨ i = .adminReset sl tag ∨ i = .freeze sl tag ∨ (∃ a n x, i = .save sl tag a n x) ∨
      (∃ r, i = .restore sl tag r) ∨ i = .thaw sl tag ∨ i = .adminUnknown sl tag) →
    ∃ t : State, exec i s = .next t ∧ Answered s t sl tag.toNat 0x20 0 ∧ SameBytes s t) ∧
  (∀ (sl : Fin 64) (tag : BitVec 16) (s : State), s.nextSlice = some sl.val →
    (s.slicePart sl = none → ∃ t : State, exec (.status sl tag) s = .next t ∧ Answered s t sl tag.toNat 0 0) ∧
    (∀ p, s.slicePart sl = some p → ∃ t : State, exec (.status sl tag) s = .next t ∧
      Answered s t sl tag.toNat 0 (setBits (s.liveWord .image (PART_STATUS_STATE p).off) 28 27 (s.frz p)) ∧ SameBytes s t)) ∧
  (∀ (sl : Fin 64) (tag : BitVec 16) (p : Nat) (s : State), s.nextSlice = some sl.val → s.slicePart sl = some p →
    let st := s.rd (PART_STATUS_STATE p)
    let tg := tag.toNat
    (∃ t : State, exec (.adminUnknown sl tag) s = .next t ∧ Answered s t sl tg 0x27 0) ∧
    (∀ plan, (st ≠ stEmpty ∧ st ≠ stComplete) ∨ s.frz p ≠ 0 → ∃ t : State, exec (.adminLoad sl tag plan) s = .next t ∧ Answered s t sl tg 0x20 0 ∧
      t.rd (PART_STATUS_STATE p) = st) ∧
    (st = stEmpty → s.frz p = 0 → ∃ t : State, exec (.adminLoad sl tag none) s = .next t ∧ Answered s t sl tg 0x26 0 ∧ t.rd (PART_STATUS_STATE p) = st) ∧
    (∀ b, st = stEmpty → s.frz p = 0 → s.loadCheck p b = none → ∃ t : State, exec (.adminLoad sl tag (some b)) s = .next t ∧ Answered s t sl tg 0 0 ∧
      t.rd (PART_STATUS_STATE p) = stRunning) ∧
    (∀ b e, st = stEmpty → s.frz p = 0 → s.loadCheck p b = some e → ∃ t : State, exec (.adminLoad sl tag (some b)) s = .next t ∧
      Answered s t sl tg (e % 256) 0 ∧ t.rd (PART_STATUS_STATE p) = st) ∧
    (∀ b, st = stComplete → s.frz p = 0 → ∃ t : State, exec (.adminLoad sl tag (some b)) s = .next t ∧ t.out = s.out ∧
      t.rd (PART_STATUS_STATE p) = stResetting ∧ mget (fun _ => none) t.part.nextLoad p = some b ∧
      t.vms.busy = some ⟨sl, tg, p, false, s.now⟩) ∧
    (st = stUnused ∨ st = stResetting → ∃ t : State, exec (.adminReset sl tag) s = .next t ∧ Answered s t sl tg 0x20 0) ∧
    (st ≠ stUnused → st ≠ stResetting → ∃ t : State, exec (.adminReset sl tag) s = .next t ∧ Answered s t sl tg 0 0 ∧
      t.rd (PART_STATUS_STATE p) = stResetting) ∧
    ((st ≠ stRunning ∧ st ≠ stComplete) ∨ s.frz p ≠ 0 → ∃ t : State, exec (.freeze sl tag) s = .next t ∧ Answered s t sl tg 0x20 0) ∧
    (st = stRunning ∨ st = stComplete → s.frz p = 0 → s.noFreeze p = true → ∃ t : State, exec (.freeze sl tag) s = .next t ∧ Answered s t sl tg 0x21 0) ∧
    (st = stRunning ∨ st = stComplete → s.frz p = 0 → s.noFreeze p = false → ∃ t : State, exec (.freeze sl tag) s = .next t ∧ t.frz p = 1 ∧
      t.on (EVT_RING_CFG_EN p) = false ∧ t.vms.busy = some ⟨sl, tg, p, true, s.now⟩ ∧ t.out = s.out ∧ SameBytes s t ∧
      ∀ c ∈ s.coresOf p, t.mayIssue c = false) ∧
    (∀ a n, s.frz p = 2 → recordSize (s.coresOf p).length (s.groupsOf p).length ≤ n → ∃ t : State, exec (.save sl tag a n true) s = .next t ∧
      Ext.save sl a (s.saveRec p) ∈ t.out ∧ Answered s t sl tg 0 0 ∧ t.frz p = 2 ∧ SameBytes s t) ∧
    (∀ a n x, s.frz p ≠ 2 → ∃ t : State, exec (.save sl tag a n x) s = .next t ∧ Answered s t sl tg 0x20 0) ∧
    (∀ a n x, s.frz p = 2 → x = false ∨ n < recordSize (s.coresOf p).length (s.groupsOf p).length →
      ∃ t : State, exec (.save sl tag a n x) s = .next t ∧ Answered s t sl tg 0x26 0) ∧
    (s.frz p = 2 → ∃ t : State, exec (.thaw sl tag) s = .next t ∧ Answered s t sl tg 0 0 ∧ t.frz p = 0 ∧
      (mget (fun _ => false) s.vms.ring p = true → t.on (EVT_RING_CFG_EN p) = true)) ∧
    (s.frz p ≠ 2 → ∃ t : State, exec (.thaw sl tag) s = .next t ∧ Answered s t sl tg 0x20 0) ∧
    (∀ r, st ≠ stEmpty ∨ s.frz p ≠ 0 → ∃ t : State, exec (.restore sl tag r) s = .next t ∧ Answered s t sl tg 0x20 0) ∧
    (st = stEmpty → s.frz p = 0 →
      (∃ t : State, exec (.restore sl tag none) s = .next t ∧ Answered s t sl tg 0x26 0) ∧
      ∀ r : SaveRec,
        let version := r.mcif.toNat / 256 = s.sys.mcif / 256 ∧ r.mcif.toNat % 256 ≤ s.sys.mcif % 256
        let same := r.cores = s.coresOf p ∧ r.groups = s.groupsOf p ∧ r.windows = s.windowsOf p
        (r.whole = false ∨ r.shaOk = false → ∃ t : State, exec (.restore sl tag (some r)) s = .next t ∧ Answered s t sl tg 0x25 0 ∧ SameBytes s t) ∧
        (r.whole = true → r.shaOk = true → ¬ version ∨ ¬ same → ∃ t : State, exec (.restore sl tag (some r)) s = .next t ∧
          Answered s t sl tg 0x24 0 ∧ SameBytes s t) ∧
        (r.whole = true → r.shaOk = true → version → same → (∀ x ∈ r.regs, x.1 >>> 20 ≠ 7 ∧ x.1 >>> 20 ≠ 2) →
          ∃ t : State, exec (.restore sl tag (some r)) s = .next t ∧ Answered s t sl tg 0 0 ∧ t.frz p = 2 ∧ t.planOf p = r.plan ∧
            ((r.mem.map (·.1)).Nodup → ∀ x ∈ r.mem, inRanges (savedRanges r.cores r.groups) x.1 = true → (t.byteAt x.1).1 = x.2)))) ∧
  (∀ (s : State) (b : AdminCmd), s.vms.busy = some b → b.freeze = true → b.part < 16 → b.slice < 64 →
    let st := s.rd (PART_STATUS_STATE b.part)
    let late := b.start + s.rd VMS_FRZ_TMO_TMO * 10 ^ 6 ≤ s.now
    (st ≠ stRunning → st ≠ stComplete → ∃ t : State, exec .freezeDrained s = .next t ∧ Answered s t b.slice b.tag 0x23 0 ∧ t.frz b.part = 0) ∧
    (st = stRunning ∨ st = stComplete → s.quiet b.part = true → ∃ t : State, exec .freezeDrained s = .next t ∧ Answered s t b.slice b.tag 0 0 ∧
      t.frz b.part = 2) ∧
    (st = stRunning ∨ st = stComplete → s.quiet b.part = false → late → ∃ t : State, exec .freezeDrained s = .next t ∧
      Answered s t b.slice b.tag 0x22 0 ∧ t.frz b.part = 0 ∧
      (mget (fun _ => false) s.vms.ring b.part = true → t.on (EVT_RING_CFG_EN b.part) = true)))

/-- R334, R419, R441: a reset of a port takes its link down, masks and clears its vectors and wakes it; a function-level reset also resets the
partitions reached only through it; a port comes up at a rate and width within its configuration; an edge of a pin sets its level. -/
def Obligations.HostPorts : Prop :=
  (∀ (n : Fin 2) (i : Instr) (s : State), i = .hotReset n ∨ i = .flr n →
    ∃ t : State, exec i s = .next t ∧ t.on (VMS_PORT_STAT_UP n) = false ∧ t.rd (VMS_PORT_STAT_SPEED n) = 0 ∧
      t.rd (VMS_PORT_STAT_LINKDOWNS n) = min (s.rd (VMS_PORT_STAT_LINKDOWNS n) + 1) 0xFFFF ∧ t.on VMS_EVENT_LINKDOWN = true ∧
      mget (fun _ => false) t.vms.d3 n = false ∧ SameBytes s t ∧
      (∀ c, c < 64 → s.rd (VMS_SL_CFG_PORT c) = n → t.rd (VMS_MSIX_PBA_PEND c) = 0 ∧
        ∀ v, v < 32 → t.on (VMS_MSIX_CTL_MASK (32 * c + v)) = true ∧ t.rd (VMS_MSIX_DATA_DATA (32 * c + v)) = 0) ∧
      (i = .flr n → t.on VMS_EVENT_FLR = true ∧
        (∀ c, c < 64 → s.rd (VMS_SL_CFG_PORT c) = n → s.on (VMS_SL_CFG_ADMIN c) = false →
          t.rd (VMS_SL_CFG_PASID c) = 0 ∧ t.on (VMS_SL_ACFG_EN c) = false) ∧
        (∀ p, p < 16 → s.classOf p = 3 → s.on (PART_CFG_EN p) = true → s.rd (PART_STATUS_STATE p) ≠ stUnused →
          (∃ c, c < 64 ∧ s.on (VMS_SL_CFG_EN c) = true ∧ s.sliceOf c p = true) →
          (∀ c, c < 64 → s.on (VMS_SL_CFG_EN c) = true → s.sliceOf c p = true → s.rd (VMS_SL_CFG_PORT c) = n) →
          t.rd (PART_STATUS_STATE p) = stResetting))) ∧
  (∀ (n : Fin 2) (s : State),
    (∃ t : State, exec (.d3hot n) s = .next t ∧ mget (fun _ => false) t.vms.d3 n = true ∧ t = { s with vms := { s.vms with d3 := t.vms.d3 } }) ∧
    (∃ t : State, exec (.d0Entry n) s = .next t ∧ mget (fun _ => false) t.vms.d3 n = false ∧ t = { s with vms := { s.vms with d3 := t.vms.d3 } })) ∧
  (∀ (n : Fin 2) (speed : Fin 8) (width : Fin 32) (s : State), 1 ≤ speed.val → speed.val ≤ s.rd VMS_PORT_CFG_MAXSPD →
    (n = 0 → s.on VMS_PORT_CFG_EN0 = true) → (n = 1 → s.on VMS_PORT_CFG_EN1 = true ∧ s.on VMS_PORT_CFG_BIFUR = true) →
    (width.val = 1 ∨ width.val = 2 ∨ width.val = 4 ∨ width.val = 8 ∨ (width.val = 16 ∧ s.on VMS_PORT_CFG_BIFUR = false)) →
    ∃ t : State, exec (.pcieLinkUp n speed width) s = .next t ∧ t.on (VMS_PORT_STAT_UP n) = true ∧ t.rd (VMS_PORT_STAT_SPEED n) = speed ∧
      t.rd (VMS_PORT_STAT_WIDTH n) = width ∧ OnlyRegs [(VMS_PORT_STAT_UP n).off] s t) ∧
  (∀ (pin : Fin 34) (rising : Bool) (s : State),
    (pin.val < 2 → ∃ t : State, exec (.inputEdge pin rising) s = .next t ∧ mget (fun _ => false) t.saf.tripLow pin = !rising ∧
      mget (fun _ => false) t.evt.level pin = rising) ∧
    (2 ≤ pin.val → ∃ t : State, exec (.inputEdge pin rising) s = .next t ∧ bit (t.rd SER_GPIO_IN_IN) (pin.val - 2) = rising ∧
      (∀ k, k < 32 → k ≠ pin.val - 2 → bit (t.rd SER_GPIO_IN_IN) k = bit (s.rd SER_GPIO_IN_IN) k) ∧
      (s.rd (SER_GPIO_CFG_MODE (pin.val - 2)) ≠ 1 → s.rd (SER_GPIO_CFG_MODE (pin.val - 2)) ≠ 2 → OnlyRegs [SER_GPIO_IN_IN.off] s t)))

/-! ### The ring (R444 to R459) and RoCE (R460 to R464) -/

/-- R416, R446, R447, R453 to R456: the ring's states follow their conditions; a hello is remembered and its faults shown; the manager admits and
drops members and sends the map; a worker takes the map, and partitions on a chip that left fault; retraining holds frames and then sends them. -/
def Obligations.RingMembership : Prop :=
  (∀ (s : State), s.rd LNK_STATE_STATE ≠ 0 → (s.on LNK_CFG_EN = false ∨ s.domState 98 ≠ 0 ∨ s.domState 99 ≠ 0) →
    ∃ t : State, exec .bypassEntry s = .next t ∧ t.rd LNK_STATE_STATE = 0 ∧ t.rd LNK_MAP_MEMBERS = 0 ∧ t.rd LNK_MAP_FWD = 0 ∧
      t.on (LNK_PORT_STAT_UP 0) = false ∧ t.on (LNK_PORT_STAT_UP 1) = false ∧
      (s.on SAF_FO_CFG_EN = true → s.on SAF_STATE_ACTIVE = true → t.on SAF_STATE_ACTIVE = false ∧ t.pinsOperate = false ∧ CauseTaken s t 14)) ∧
  (∀ (s : State), s.mayTrain = true →
    (s.lnk.fails = 0 → ∃ t : State, exec .training s = .next t ∧ t.rd LNK_STATE_STATE = 1 ∧ t.lnk = { s.lnk with trainAt := s.now } ∧
      SameRegsBut [LNK_STATE_STATE.off] s t) ∧
    (0 < s.lnk.fails → s.lnk.fails < 3 → s.lnk.trainAt + 10 ^ 9 ≤ s.now → ∃ t : State, exec .trainRetry s = .next t ∧ t.rd LNK_STATE_STATE = 1 ∧
      t.lnk = { s.lnk with trainAt := s.now } ∧ SameRegsBut [LNK_STATE_STATE.off] s t)) ∧
  (∀ (dA dB : BitVec 16) (s : State), s.rd LNK_STATE_STATE = 1 →
    (∃ t : State, exec (.trainingComplete dA dB) s = .next t ∧ t.rd LNK_STATE_STATE = 2 ∧ t.on LNK_STATE_RATE = false ∧ t.lnk.fails = 0 ∧
      (∀ n, n < 2 → t.on (LNK_PORT_STAT_UP n) = true ∧ t.rd (LNK_PORT_STAT_LOCK n) = 0xFF ∧
        t.rd (LNK_PORT_DELAY_NS n) = if n = 0 then dA.toNat else dB.toNat) ∧
      t.out = s.out ++ [Ext.ringHello s.ownChip (s.on LNK_CFG_ROLE)]) ∧
    (s.lnk.trainAt + 12 * 10 ^ 6 ≤ s.now → ∃ t : State, exec .trainFail s = .next t ∧ t.rd LNK_STATE_STATE = 0 ∧ t.on LNK_EVENT_TRAIN_FAIL = true ∧
      t.lnk.fails = s.lnk.fails + 1 ∧ t.lnk.trainAt = s.now)) ∧
  (∀ (pos chip : Fin 8) (manager : Bool) (s : State), 2 ≤ s.rd LNK_STATE_STATE → pos.val ≠ 0 →
    ∃ t : State, exec (.hello pos chip manager) s = .next t ∧ (pos.val, chip.val, manager) ∈ t.lnk.hello ∧
      (chip.val = s.ownChip → t.on LNK_EVENT_DUPID = true) ∧
      (manager = true → s.on LNK_CFG_ROLE = true → chip.val < s.ownChip → t.on LNK_EVENT_ROLE = true ∧ t.lnk.actWorker = true) ∧
      (t.lnk.order = true → t.on LNK_EVENT_ORDER = true) ∧
      (chip.val ≠ s.ownChip → bit (s.rd LNK_MAP_MEMBERS) chip = false → bit (t.rd LNK_MAP_FWD) chip = true) ∧
      t.rd LNK_MAP_MEMBERS = s.rd LNK_MAP_MEMBERS ∧ SameRegsBut [LNK_EVENT_ORDER.off, LNK_MAP_FWD.off] s t) ∧
  (∀ (chip : Fin 8) (s : State), s.ringManager = true → s.lnk.order = false → bit (s.rd LNK_CFG_EXPECT) chip = true →
    (if chip.val = s.ownChip then s.rd LNK_STATE_STATE = 2 else bit (s.rd LNK_MAP_FWD) chip = true ∧ s.rd LNK_STATE_STATE = 3) →
    ∃ t : State, exec (.admission chip) s = .next t ∧ t.rd LNK_MAP_MEMBERS = s.rd LNK_MAP_MEMBERS ||| 2 ^ chip.val ∧
      bit (t.rd LNK_MAP_FWD) chip = false ∧ t.on LNK_STATE_RETRAIN = true ∧ t.rd LNK_STATE_STATE = 3 ∧
      (chip.val = s.ownChip → t.rd LNK_STATE_MANAGER = s.ownChip) ∧ Ext.ringMap (s.rd LNK_MAP_MEMBERS ||| 2 ^ chip.val) ∈ t.out) ∧
  (∀ (manager : Fin 8) (members fwd : BitVec 8) (s : State), 2 ≤ s.rd LNK_STATE_STATE → s.ringManager = false →
    ∃ t : State, exec (.mapFrame manager members fwd) s = .next t ∧ t.rd LNK_MAP_MEMBERS = members.toNat ∧ t.rd LNK_MAP_FWD = fwd.toNat ∧
      t.rd LNK_STATE_MANAGER = manager ∧ t.rd LNK_STATE_STATE = (if bit members.toNat s.ownChip = true then 3 else 2) ∧
      (s.rd LNK_MAP_MEMBERS ≠ members.toNat → t.on LNK_STATE_RETRAIN = true ∧ t.on LNK_EVENT_MAPCHG = true) ∧
      (∀ p k, p < 16 → bit (s.rd LNK_MAP_MEMBERS) k = true → bit members.toNat k = false → Config.spans p k = true →
        s.on (PART_CFG_EN p) = true → s.rd (PART_STATUS_STATE p) = stRunning → t.rd (PART_STATUS_STATE p) = stFault)) ∧
  (∀ (chip : Fin 8) (s : State), bit (s.rd LNK_MAP_MEMBERS) chip = true → chip.val ≠ s.ownChip →
    (s.ringManager = true ∨ chip.val ≠ s.rd LNK_STATE_MANAGER) →
    ∃ t : State, exec (.memberLeave chip) s = .next t ∧ t.rd LNK_MAP_MEMBERS = s.rd LNK_MAP_MEMBERS - 2 ^ chip.val ∧ t.on LNK_STATE_RETRAIN = true ∧
      t.on LNK_EVENT_MAPCHG = true ∧ (s.ringManager = true → Ext.ringMap (s.rd LNK_MAP_MEMBERS - 2 ^ chip.val) ∈ t.out) ∧
      (∀ p, p < 16 → Config.spans p chip.val = true → s.on (PART_CFG_EN p) = true → s.rd (PART_STATUS_STATE p) = stRunning →
        t.rd (PART_STATUS_STATE p) = stFault)) ∧
  (∀ (pam : Bool) (s : State), s.rd LNK_STATE_STATE = 3 → s.on LNK_STATE_RETRAIN = false → s.on LNK_STATE_RATE = !pam →
    (s.ringManager = false ∨ pam = false ∨
      (s.on LNK_CFG_AUTORATE = true ∧ s.rd LNK_MAP_MEMBERS = s.rd LNK_CFG_EXPECT ∧ s.lnk.noPam = false)) →
    ∃ t : State, exec (.rateRetrain pam) s = .next t ∧ t.on LNK_STATE_RETRAIN = true ∧ t.rd LNK_STATE_STATE = 3 ∧
      t.lnk = { s.lnk with pam := pam } ∧ SameRegsBut [LNK_STATE_STATE.off] s t) ∧
  (∀ (ok : Bool) (dA dB : BitVec 16) (s : State), s.on LNK_STATE_RETRAIN = true → s.on PWR_SAG_HOLD = false →
    (ok = true ∨ s.lnk.pam = false → ∃ t : State, exec (.retrainComplete ok dA dB) s = .next t ∧ t.on LNK_STATE_RETRAIN = false ∧
      t.on LNK_STATE_RATE = s.lnk.pam ∧ t.rd LNK_STAT_RETRAINS = min (s.rd LNK_STAT_RETRAINS + 1) 0xFFFF ∧
      t.rd (LNK_PORT_DELAY_NS 0) = dA.toNat ∧ t.rd (LNK_PORT_DELAY_NS 1) = dB.toNat ∧ t.lnk = { s.lnk with held := [] } ∧
      t.out = s.out ++ ((mget (fun _ => []) s.lnk.held 0).map fun f => Ext.ring 0 f) ++ (mget (fun _ => []) s.lnk.held 1).map fun f => Ext.ring 1 f) ∧
    (ok = false → s.lnk.pam = true → ∃ t : State, exec (.retrainComplete ok dA dB) s = .next t ∧ t.on LNK_EVENT_RATE_FAIL = true ∧
      t.lnk = { s.lnk with pam := false, noPam := true } ∧ SameRegsBut [LNK_EVENT_RATE_FAIL.off] s t))

/-- R449 to R452, R459: a frame that fails is counted and refused once; a good one is acknowledged and served, answered or forwarded; refused frames
are sent again, and after 16 attempts the port is down; a transaction without a response ends with kind LINK; time goes round with its delays. -/
def Obligations.RingTraffic : Prop :=
  (∀ (n : Fin 2) (f : RingFrame) (crcOk : Bool) (s : State), 2 ≤ s.rd LNK_STATE_STATE → s.on (LNK_PORT_STAT_UP n) = true →
    let want := mget (fun _ => 0) s.lnk.rxSeq n
    (crcOk = false ∨ f.seq ≠ want → ∃ t : State, exec (.ringFrame n f crcOk) s = .next t ∧
      t.rd (LNK_PORT_ERR_CRC n) = min (s.rd (LNK_PORT_ERR_CRC n) + 1) 0xFFFF ∧ mget (fun _ => false) t.lnk.nak n = true ∧
      t.out = s.out ++ (if mget (fun _ => false) s.lnk.nak n = true then [] else [Ext.ringNak n want]) ∧ t.msgs = s.msgs ∧
      SameRegsBut [(LNK_PORT_ERR_CRC n).off] s t) ∧
    (crcOk = true → f.seq = want →
      (f.dst = s.ownChip → s.rd LNK_STATE_STATE = 3 → f.vc = 0 → ∀ sl : Nat, s.decode f.addr = .tun sl → f.op ≤ 2 →
        ∃ (t : State) (m : Msg), exec (.ringFrame n f crcOk) s = .next t ∧ t.msgs = s.msgs ++ [m] ∧ m.cls = .req ∧ m.src = epRemote n f.src f.source ∧
          m.dst = epSlice sl ∧ m.part = f.part ∧ m.tag = f.tag % 32 ∧
          m.body = (match f.op with
            | 0 => .memRead f.addr f.len (List.replicate (2 * f.len) none)
            | 1 => .memWrite f.addr f.data none
            | _ => .memWrite f.addr f.data f.notify) ∧
          mget (fun _ => 0) t.lnk.rxSeq n = (want + 1) % 2 ^ 16 ∧ t.out = s.out ++ [Ext.ringAck n want] ∧ SameRegsBut [] s t) ∧
      (f.dst ≠ s.ownChip → f.vc ≠ 3 → f.op ≠ 15 → s.on LNK_STATE_RETRAIN = false →
        let g := { f with seq := mget (fun _ => 0) s.lnk.txSeq (1 - n.val) }
        ∃ t : State, exec (.ringFrame n f crcOk) s = .next t ∧ t.out = s.out ++ [Ext.ringAck n want, Ext.ring (1 - n.val) g] ∧
          mget (fun _ => []) t.lnk.retry (1 - n.val) = mget (fun _ => []) s.lnk.retry (1 - n.val) ++ [(g, 1)] ∧
          mget (fun _ => 0) t.lnk.txSeq (1 - n.val) = (g.seq + 1) % 2 ^ 16 ∧ t.msgs = s.msgs ∧ SameRegsBut [] s t) ∧
      (f.dst = s.ownChip → s.rd LNK_STATE_STATE = 3 → f.vc = 1 → f.op ≠ 15 → s.pendOf? f.source f.tag f.src = none →
        ∃ t : State, exec (.ringFrame n f crcOk) s = .next t ∧ t.rd LNK_STAT_LATE = min (s.rd LNK_STAT_LATE + 1) 0xFFFF ∧ t.msgs = s.msgs ∧
          SameRegsBut [LNK_STAT_LATE.off] s t) ∧
      (f.dst = s.ownChip → s.rd LNK_STATE_STATE = 3 → f.vc = 1 → f.op = 5 → s.lnk.wait = [] → ∀ (x : RingPend) (a len : Nat) (back : List (Option Nat)),
        s.pendOf? f.source f.tag f.src = some x → x.msg.body = .memRead a len back → x.msg.src < 840 →
        ∃ (t : State) (m : Msg), exec (.ringFrame n f crcOk) s = .next t ∧ t.msgs = s.msgs ++ [m] ∧ m.dst = x.msg.src ∧ m.tag = x.msg.tag ∧
          m.body = .readData back f.data ∧ t.lnk.pend = s.lnk.pend.erase x ∧ SameRegsBut [] s t))) ∧
  (∀ (n : Fin 2) (seq : BitVec 16) (s : State) (e : RingFrame × Nat) (rest : List (RingFrame × Nat)),
    (mget (fun _ => []) s.lnk.retry n).dropWhile (fun e => e.1.seq != seq.toNat) = e :: rest →
    (e.2 < 16 → s.on LNK_STATE_RETRAIN = false → ∃ t : State, exec (.nak n seq) s = .next t ∧
      mget (fun _ => []) t.lnk.retry n = (e :: rest).map (fun x => (x.1, x.2 + 1)) ∧
      t.out = s.out ++ (e :: rest).map (fun x => Ext.ring n x.1) ∧
      t.rd (LNK_PORT_ERR_RETRIES n) = min (s.rd (LNK_PORT_ERR_RETRIES n) + (rest.length + 1)) 0xFFFF ∧
      SameRegsBut [(LNK_PORT_ERR_RETRIES n).off] s t) ∧
    (16 ≤ e.2 → ∃ t : State, exec (.nak n seq) s = .next t ∧ t.on (LNK_PORT_STAT_UP n) = false ∧ t.on LNK_EVENT_LINKDOWN = true ∧
      t.rd (LNK_PORT_STAT_LINKDOWNS n) = min (s.rd (LNK_PORT_STAT_LINKDOWNS n) + 1) 0xFFFF ∧ t.rd LNK_STATE_STATE = 1 ∧
      mget (fun _ => []) t.lnk.retry n = [])) ∧
  (∀ (c : Fin 256) (tag : Fin 32) (s : State) (x : RingPend), s.lnk.wait = [] →
    (s.lnk.pend.find? fun x => x.msg.src == c.val && x.msg.tag == tag.val && decide (x.sent + s.rd LNK_CFG_TMO * 10 ^ 6 ≤ s.now)) = some x →
    ∃ (t : State) (m : Msg) (a : Nat), exec (.ringTimeout c tag) s = .next t ∧ t.msgs = s.msgs ++ [m] ∧ m.dst = c.val ∧ m.tag = tag.val ∧ m.body = .error 10 a ∧
      t.lnk.pend = s.lnk.pend.erase x ∧ (t.tag c tag).epoch = (!(s.tag c tag).epoch) ∧ SameRegsBut [] s t) ∧
  (∀ (s : State), s.ringManager = true → s.on LNK_TIME_CFG_EN = true → s.rd LNK_STATE_STATE = 3 → s.on LNK_STATE_RETRAIN = false →
    s.lnk.timeAt + s.rd LNK_TIME_CFG_INTERVAL * 10 ^ 6 ≤ s.now →
    let r := s.time (s.rd LNK_TIME_CFG_TS)
    ∃ t : State, exec .timeFrameSend s = .next t ∧
      t = { s with out := s.out ++ [Ext.ringTime 0 r 0, Ext.ringTime 1 r 0], lnk := { s.lnk with timeAt := s.now } }) ∧
  (∀ (n : Fin 2) (v : BitVec 64) (corr residence : Nat) (s : State), 2 ≤ s.rd LNK_STATE_STATE → s.ringManager = false →
    let c := corr + s.rd (LNK_PORT_DELAY_NS n) * 2 ^ 16
    ∃ t : State, exec (.timeFrame n v corr residence) s = .next t ∧ t.out = s.out ++ [Ext.ringTime (1 - n.val) v.toNat (c + residence)] ∧
      (s.on LNK_TIME_CFG_EN = true → s.rd LNK_TIME_CFG_PORT = n → s.rd LNK_STATE_STATE = 3 →
        t.tim.pairs = s.tim.pairs ++ [(2, (v.toNat + c / 2 ^ 16) % 2 ^ 64, s.now)]) ∧
      (s.on LNK_TIME_CFG_EN = false → t.tim = s.tim) ∧ SameRegsBut [] s t)

/-- R460 to R463: a posted request that passes its checks leaves with the next sequence number; an inbound one is executed where its key allows and
otherwise puts the QP in ERROR; what is unanswered is sent again, seven times; a congestion packet halves the rate. -/
def Obligations.RoceQueuePairs : Prop :=
  (∀ (q : Fin 512) (s : State) (wr : RoceWr),
    let u := s.queue (qpBase q)
    let a := s.rd (NET_QP_SQ_ADDR q) + u.next % s.qpSize q * 64
    let d := s.blkRead a 64
    let s1 := d.2.setQueue (qpBase q) ⟨u.prod, (u.next + 1) % 2 ^ 32⟩
    let b := if wr.op = .read then ([], s1) else s1.blkRead wr.laddr wr.len
    let psn := b.2.rd (NET_QP_PSN_PSN q)
    s.qpLive q = true → u.prod ≠ u.next → s.checkRun (s.qpPart q) false a 64 = .ok → anyPois d.1 = false → roceWr? (leNum d.1) = some wr →
    (wr.fence = true → ∀ x ∈ (s.qpOf q).sent, x.1.op ≠ .read) → s1.roceRange (s.qpPart q) (wr.op == .read) wr.laddr wr.len = true →
    anyPois b.1 = false →
    ∃ t : State, exec (.roceWorkRequest q .nothing) s = .next t ∧ t.out = b.2.out ++ [Ext.roceSend q psn wr (b.1.map (·.1))] ∧
      (t.queue (qpBase q)).next = (u.next + 1) % 2 ^ 32 ∧ (t.qpOf q).sent = (b.2.qpOf q).sent ++ [(wr, psn, b.1.map (·.1))] ∧
      t.rd (NET_QP_PSN_PSN q) = (psn + ceilDiv wr.len (1024 * 2 ^ b.2.rd (NET_QP_CFG_MTU q))) % 2 ^ 24) ∧
  (∀ (q : Fin 512) (s : State), s.qpLive q = true → (s.qpOf q).sent ≠ [] →
    ((s.qpOf q).tries < 7 → ∃ t : State, exec (.roceRetransmit q []) s = .next t ∧
      t.out = s.out ++ (s.qpOf q).sent.map (fun w => Ext.roceSend q w.2.1 w.1 w.2.2) ∧ (t.qpOf q).tries = (s.qpOf q).tries + 1 ∧
      (t.qpOf q).sent = (s.qpOf q).sent ∧ t.rd (NET_QP_STAT_RETRY q) = min (s.rd (NET_QP_STAT_RETRY q) + 1) 0xFFFF ∧
      SameRegsBut [(NET_QP_STAT_RETRY q).off] s t) ∧
    (7 ≤ (s.qpOf q).tries → ∀ rs, ∃ t : State, exec (.roceRetransmit q rs) s = .next t ∧ t.rd (NET_QP_STAT_STATE q) = 2 ∧ t.out = s.out ∧
      (s.on (NET_QP_NOTE_EN q) = true → ∃ m : Msg, t.msgs = s.msgs ++ [m] ∧ m.dst = s.rd (NET_QP_NOTE_CORE q) ∧
        m.body = .notif (s.rd (NET_QP_NOTE_CNT q)) 1) ∧ SameRegsBut [(NET_QP_STAT_STATE q).off] s t)) ∧
  (∀ (q : Fin 512) (r : RoceIn) (s : State), s.qpLive q = true →
    (r.op = .send → ∃ t : State, exec (.roceInbound q r) s = .next t ∧ Ext.roceAnswer q .ack ∈ t.out) ∧
    (r.op ≠ .send → s.keyOk q r = false → ∃ t : State, exec (.roceInbound q r) s = .next t ∧ t.rd (NET_QP_STAT_STATE q) = 2 ∧
      t.out = s.out ++ [Ext.roceAnswer q .accessError] ∧ SameBytes s t ∧ SameRegsBut [(NET_QP_STAT_STATE q).off] s t) ∧
    (r.op = .read → s.keyOk q r = true → anyPois ((s.runKeys r.raddr r.len).map s.byteAt) = false →
      r.raddr < 0x8000000000 → ∃ t : State, exec (.roceInbound q r) s = .next t ∧
        t.out = s.out ++ [Ext.roceAnswer q (.data ((s.runKeys r.raddr r.len).map fun k => (s.byteAt k).1))] ∧ SameBytes s t) ∧
    (r.op = .write ∨ r.op = .writeImm → s.keyOk q r = true → r.raddr < 0x8000000000 → s.on MEM_INJ_CTL_ARM = false →
      (s.runKeys r.raddr r.len).Nodup → ∃ t : State, exec (.roceInbound q r) s = .next t ∧ t.out = s.out ++ [Ext.roceAnswer q .ack] ∧
        SameBytesBut (s.runKeys r.raddr r.len) s t ∧
        (∀ i k, (s.runKeys r.raddr r.len)[i]? = some k → (t.byteAt k).1 = r.data.getD i 0) ∧
        (t.qpOf q).imms = (s.qpOf q).imms ++ if r.op = .writeImm then [(r.len, r.imm.toNat)] else [])) ∧
  (∀ (q : Fin 512) (s : State) (len imm : Nat) (rest : List (Nat × Nat)), (s.qpOf q).imms = (len, imm) :: rest →
    ∃ t : State, exec (.roceImmediateDone q) s = .next t ∧ (t.qpOf q).imms = rest ∧
      (s.on (NET_QP_NOTE_EN q) = true → ∃ m ∈ t.msgs, m.dst = s.rd (NET_QP_NOTE_CORE q) ∧ m.body = .notif (s.rd (NET_QP_NOTE_CNT q)) (len / 64))) ∧
  (∀ (q : Fin 512) (s : State), s.on (NET_QP_CFG_EN q) = true →
    ∃ t : State, exec (.roceCnp q) s = .next t ∧ (t.qpOf q).rate = s.qpRate q / 2 ∧ (t.qpOf q).cut = s.now ∧
      (∀ k, k ≠ q.val → t.qpOf k = s.qpOf k) ∧ t = { s with qp := t.qp })

/-! ### Vehicle networks (R465 to R490) and the cockpit (R491 to R502) -/

/-- R470 to R477, R490: the frame that would win arbitration is offered; an attempt's end, a reception and a bus error move the error counters, and
with them the state; recovery clears them; a flush ends queued frames; a gateway rule, the default ring or a drop deals with a frame;
encapsulation sends its batch and follows the sequence. -/
def Obligations.CanControllers : Prop :=
  (∀ (n : Fin 16) (s : State), s.on (CAN_CFG_EN n) = true → s.rd (CAN_CFG_MODE n) ≠ 1 → s.rd (CAN_STAT_STATE n) < 2 →
    mget (fun _ => none) s.can.bus n = none →
    let s1 := [0, 1, 2].foldl (fun (a : State) q => a.canFetch n q (a.qLeft (canQ n q) + 1)) s
    ∃ t : State, exec (.canArbitration n) s = .next t ∧ t = { s1 with can := { s1.can with bus := t.can.bus } } ∧
      ((∀ q, q < 4 → s1.canOffer n q = none) → t = s1) ∧
      (∀ q f, q < 4 → s1.canOffer n q = some f → (∀ k g, k < 4 → s1.canOffer n k = some g → arbKey f < arbKey g ∨ (arbKey f = arbKey g ∧ q ≤ k)) →
        mget (fun _ => none) t.can.bus n = some q)) ∧
  (∀ (n : Fin 16) (how : CanTxEnd) (stamp : BitVec 64) (tdcv : Option (BitVec 7)) (q : Nat) (f : CanFrame) (s : State),
    mget (fun _ => none) s.can.bus n = some q → q < 4 → s.canOffer n q = some f → s.rd (CAN_CFG_MODE n) ≠ 2 →
    ∃ t : State, exec (.canTxAttemptEnd n how stamp tdcv) s = .next t ∧ mget (fun _ => none) t.can.bus n = none ∧
      mget (fun _ => none) t.can.flush (4 * n.val + q) = none ∧ t.rd (CAN_ERR_REC n) = s.rd (CAN_ERR_REC n) ∧
      (how = .ok → Ext.canTx n f ∈ t.out ∧ t.rd (CAN_ERR_TEC n) = s.rd (CAN_ERR_TEC n) - 1 ∧
        (q = 3 → mget (fun _ => []) t.can.egress n = (mget (fun _ => []) s.can.egress n).drop 1)) ∧
      (how = .lost → t.rd (CAN_ERR_TEC n) = s.rd (CAN_ERR_TEC n) ∧ t.rd (CAN_STAT_STATE n) = s.rd (CAN_STAT_STATE n)) ∧
      (∀ c sp e, how = .error c sp e →
        let tec := s.rd (CAN_ERR_TEC n) + (if sp = true then 0 else 8) + 8 * e
        t.rd (CAN_ERR_TEC n) = min tec 511 ∧ (c.val ≠ 0 → t.rd (CAN_STAT_LEC n) = c) ∧
        (255 < tec → t.on CAN_EVENT_BUSOFF = true ∧ t.rd (CAN_STAT_STATE n) = (if s.on (CAN_CFG_BO_AUTO n) = true then 3 else 2)))) ∧
  (∀ (n : Fin 16) (f : CanFrame) (stamp : BitVec 64) (s : State), s.on (CAN_CFG_EN n) = true → s.rd (CAN_CFG_MODE n) ≠ 2 →
    s.rd (CAN_STAT_STATE n) < 2 →
    ∃ t : State, exec (.canFrameReceived n f stamp) s = .next t ∧
      (s.rd (CAN_ERR_REC n) ≤ 127 → t.rd (CAN_ERR_REC n) = s.rd (CAN_ERR_REC n) - 1) ∧
      (127 < s.rd (CAN_ERR_REC n) → 119 ≤ t.rd (CAN_ERR_REC n) ∧ t.rd (CAN_ERR_REC n) ≤ 127) ∧
      (s.on CAN_GW_CFG_EN = false → s.on (CAN_CFG_DEFRX n) = false → t.can.noMatch = s.can.noMatch + 1 ∧ t.on CAN_EVENT_GWDROP = true) ∧
      (s.on CAN_GW_CFG_EN = false → s.on (CAN_CFG_DEFRX n) = true → s.rd (CAN_ERR_TEC n) ≤ 255 →
        let b := canRing (s.rd (CAN_CFG_DEFRING n))
        let w := s.rd (rWidx b)
        let size := 2 ^ s.rd (rLog b)
        s.on (rEn b) = true → (w + 2 ^ 32 - (s.ring b).read) % 2 ^ 32 < size →
        s.checkRun (s.rPart b) true (s.rd (rBase b) + w % size * 128) 128 = .ok → t.rd (rWidx b) = (w + 1) % 2 ^ 32) ∧
      (s.on CAN_GW_CFG_EN = true → ∀ i, s.canRule 0 n 0 f = some i → t.rd (CAN_RCNT_HITS i) = min (s.rd (CAN_RCNT_HITS i) + 1) 0xFFFFFFFF)) ∧
  (∀ (n : Fin 16) (code : Fin 6) (one : Bool) (eights : Nat) (s : State), s.on (CAN_CFG_EN n) = true → s.rd (CAN_STAT_STATE n) < 2 →
    s.rd (CAN_ERR_TEC n) ≤ 255 →
    let rr := min (s.rd (CAN_ERR_REC n) + b2n one + 8 * eights) 511
    ∃ t : State, exec (.canBusError n code one eights) s = .next t ∧ t.rd (CAN_STAT_LEC n) = code ∧ t.rd (CAN_ERR_REC n) = rr ∧
      t.rd (CAN_ERR_TEC n) = s.rd (CAN_ERR_TEC n) ∧ t.rd (CAN_STAT_STATE n) = (if 128 ≤ s.rd (CAN_ERR_TEC n) ∨ 128 ≤ rr then 1 else 0) ∧
      t.on (CAN_STAT_WARN n) = decide (96 ≤ s.rd (CAN_ERR_TEC n) ∨ 96 ≤ rr) ∧
      OnlyRegs [(CAN_STAT_STATE n).off, (CAN_ERR_TEC n).off, CAN_EVENT_WARN.off] s t) ∧
  (∀ (n : Fin 16) (s : State), s.blockOff ((CAN_CMD_RECOVER n).off >>> 20) = false → s.rd (CAN_STAT_STATE n) = 2 →
    ∃ t : State, exec (.recover .image n) s = .next t ∧ t.rd (CAN_STAT_STATE n) = 3 ∧ OnlyRegs [(CAN_STAT_STATE n).off] s t) ∧
  (∀ (n : Fin 16) (s : State), s.rd (CAN_STAT_STATE n) = 3 →
    ∃ t : State, exec (.recoveryComplete n) s = .next t ∧ t.rd (CAN_STAT_STATE n) = 0 ∧ t.rd (CAN_ERR_TEC n) = 0 ∧ t.rd (CAN_ERR_REC n) = 0 ∧
      t.on (CAN_STAT_WARN n) = false ∧ OnlyRegs [(CAN_STAT_STATE n).off, (CAN_ERR_TEC n).off] s t) ∧
  (∀ (n : Fin 16) (q : Fin 3) (mask : BitVec 3) (s : State), s.blockOff ((CAN_CMD_FLUSH n).off >>> 20) = false → mask.toNat = 2 ^ q.val →
    (mget (fun _ => none) s.can.bus n = some q.val → ∃ t : State, exec (.flush .image n mask) s = .next t ∧
      mget (fun _ => none) t.can.flush (4 * n.val + q) = some (s.queue (canQ n q)).prod ∧
      t = { s with can := { s.can with flush := t.can.flush } }) ∧
    (∀ h, mget (fun _ => none) s.can.bus n ≠ some q.val → s.canHead n q = some h → (h.index + 1) % 2 ^ 32 = (s.queue (canQ n q)).prod →
      (s.queue (canQ n q)).next = (s.queue (canQ n q)).prod → ∃ t : State, exec (.flush .image n mask) s = .next t ∧ t.canHead n q = none ∧
        Completed s t (canQ n q) 32 (txRecord (if h.tsreq then h.stamp else 0) (s.rd (CAN_TX_CFG_TS n q)) 4 h.tries 0 h.index h.user))) ∧
  (∀ (n : Fin 16) (s : State), s.blockOff ((CAN_CMD_FLUSH_GW n).off >>> 20) = false →
    ∃ t : State, exec (.flushGatewayEgress .image n) s = .next t ∧ SameRegsBut [] s t ∧
      (mget (fun _ => none) s.can.bus n ≠ some 3 → mget (fun _ => []) t.can.egress n = []) ∧
      (mget (fun _ => none) s.can.bus n = some 3 → mget (fun _ => []) t.can.egress n = (mget (fun _ => []) s.can.egress n).take 1 ∧
        mget (fun _ => none) t.can.flush (4 * n.val + 3) = some 0)) ∧
  (∀ (e : Fin 64) (s : State),
    let l := mget (fun _ => []) s.can.enc e
    let k := s.rd (CAN_ENC_CFG_BATCH e) + 1
    let port := s.rd (CAN_ENC_CFG_PORT e)
    let pcp := s.rd (CAN_ENC_CFG_PCP e)
    let c := 8 * port + bits (s.rd (NET_P_RXMAP_MAP port)) (3 * pcp + 2) (3 * pcp)
    s.on (CAN_ENC_CFG_EN e) = true → l ≠ [] →
    (k ≤ l.length ∨ mget (fun _ => 0) s.can.encAt e + 1000 * s.rd (CAN_ENC_HOLD_HOLD e) ≤ s.now) →
    ∃ t : State, exec (.avtpduSend e) s = .next t ∧ mget (fun _ => []) t.can.enc e = l.drop k ∧
      mget (fun _ => 0) t.can.encSeq e = (mget (fun _ => 0) s.can.encSeq e + 1) % 256 ∧
      ((mget (fun _ => []) s.net.egress c).length < 8 → ∃ g : EthFrame,
        mget (fun _ => []) t.net.egress c = mget (fun _ => []) s.net.egress c ++ [g] ∧ g.dst.toNat = s.rd (CAN_ENC_DMAC_DMAC e) ∧
          g.body = avtpBytes (s.rd (CAN_ENC_ID_STREAM_ID e)) (mget (fun _ => 0) s.can.encSeq e) (l.take k))) ∧
  (∀ (e : Fin 64) (seq : BitVec 8) (s : State), s.on (CAN_ENC_CFG_EN e) = true → s.on (CAN_ENC_CFG_DIR e) = true →
    (∀ msgs, ∃ t : State, exec (.avtpduReceive e seq msgs) s = .next t ∧ mget (fun _ => none) t.can.decSeq e = some seq.toNat ∧
      ∀ last, mget (fun _ => none) s.can.decSeq e = some last →
        mget (fun _ => 0) t.can.gaps e = mget (fun _ => 0) s.can.gaps e + if (last + 1) % 256 = seq.toNat then 0 else 1) ∧
    (∃ t : State, exec (.avtpduReceive e seq [.other]) s = .next t ∧ t.rd CAN_GW_DROP_ACF = min (s.rd CAN_GW_DROP_ACF + 1) 0xFF ∧
      t.on CAN_EVENT_ACFSKIP = true ∧ SameRegsBut [CAN_GW_DROP_ACF.off, CAN_EVENT_ACFSKIP.off] s t) ∧
    (∀ (bus : Fin 32) f i, s.on CAN_GW_CFG_EN = true → s.canRule 2 e bus f = some i →
      ∃ t : State, exec (.avtpduReceive e seq [.can bus f]) s = .next t ∧ t.rd (CAN_RCNT_HITS i) = min (s.rd (CAN_RCNT_HITS i) + 1) 0xFFFFFFFF))

/-- R480 to R485, R490, R544: a frame that fails its check is counted, one that the filters drop too, any other goes to its ring; of the open
classes the highest sends; a gate list and a filter table take effect as they were read; Sync, its answers and the peer delay carry their
corrections; links go down and up; MDIO runs one frame at a time. -/
def Obligations.EthernetPorts : Prop :=
  (∀ (n : Fin 10) (f : EthFrame) (fcsOk : Bool) (stamp : BitVec 64) (s : State), s.netUp n = true →
    let len := (ethBytes f).length + 4
    (fcsOk = false ∨ len < 64 ∨ s.rd (NET_P_CFG_MAXLEN n) < len → ∃ t : State, exec (.ethFrameReceived n f fcsOk stamp) s = .next t ∧
      mget (fun _ => 0) t.net.drops (4 * n.val) = mget (fun _ => 0) s.net.drops (4 * n.val) + 1 ∧ SameRegsBut [] s t) ∧
    (fcsOk = true → 64 ≤ len → len ≤ s.rd (NET_P_CFG_MAXLEN n) → f.body.take 2 ≠ [0x88, 0xF7] →
      (∀ t1, s.psfp n f stamp.toNat = (none, t1) → ∃ t : State, exec (.ethFrameReceived n f fcsOk stamp) s = .next t ∧
        t.on NET_EVENT_PSFP_DROP = true ∧ t.rings = s.rings ∧ t.msgs = s.msgs ∧ SameBytes s t) ∧
      (s.net.filters = [] → s.on (NET_P_CFG_GW n) = false →
        let q := s.rxClass n f
        let b := netRing n q
        let size := 2 ^ s.rd (NET_RX_CFG_SLOT n q)
        let w := s.rd (rWidx b)
        (size < 60 + len → ∃ t : State, exec (.ethFrameReceived n f fcsOk stamp) s = .next t ∧
          mget (fun _ => 0) t.net.drops (4 * n.val + 1) = mget (fun _ => 0) s.net.drops (4 * n.val + 1) + 1 ∧ SameRegsBut [] s t) ∧
        (60 + len ≤ size → s.on (rEn b) = true → (w + 2 ^ 32 - (s.ring b).read) % 2 ^ 32 < 2 ^ s.rd (rLog b) →
          s.checkRun (s.rPart b) true (s.rd (rBase b) + w % 2 ^ s.rd (rLog b) * size) size = .ok →
          ∃ t : State, exec (.ethFrameReceived n f fcsOk stamp) s = .next t ∧ t.rd (rWidx b) = (w + 1) % 2 ^ 32)))) ∧
  (∀ (n : Fin 10) (stamp : BitVec 64) (s : State), s.netUp n = true →
    let s1 := (List.range 8).foldl (fun (a : State) q => (a.netFetch n q (a.qLeft (netQ n q) + 1)).gateLong n q) s
    ((∀ c, c < 8 → s1.netOffer n c = none) → ∃ t : State, exec (.ethTxFrame n stamp) s = .next t ∧ t = s1) ∧
    (∀ c o, c < 8 → s1.netOffer n c = some o → (∀ k, c < k → k < 8 → s1.netOffer n k = none) →
      (s1.openFor n c = none ∨ ∃ w, s1.openFor n c = some w ∧ frameTime (s.rd (NET_P_STAT_SPEED n)) o.len ≤ w) →
      (∀ f, o = .gateway f → ∃ t : State, exec (.ethTxFrame n stamp) s = .next t ∧ t.out = s1.out ++ [Ext.ethTx n (ethBytes f)] ∧
        mget (fun _ => []) t.net.egress (8 * n.val + c) = (mget (fun _ => []) s1.net.egress (8 * n.val + c)).drop 1) ∧
      (∀ h, o = .queue h → s1.checkRun (s1.qPart (netQ n c)) false h.addr h.len true = .ok → 0x100000000 ≤ h.addr → h.addr < 0x8000000000 →
        anyPois ((s1.runKeys h.addr h.len).map s1.byteAt) = false → ∃ t : State, exec (.ethTxFrame n stamp) s = .next t ∧
          Ext.ethTx n ((s1.runKeys h.addr h.len).map fun k => (s1.byteAt k).1) ∈ t.out ∧ t.netHeadOf n c = none))) ∧
  (∀ (n : Fin 10) (s : State) (l : List (Nat × Nat)) (base start : Nat), mget (fun _ => none) s.net.newGates n = some (l, base, start) →
    start ≤ s.time (s.rd (NET_P_TAS_CTL_TS n)) →
    ∃ t : State, exec (.tasCycleStart n) s = .next t ∧ t.gateList n = (l, base) ∧ mget (fun _ => none) t.net.newGates n = none ∧
      t.on (NET_P_TAS_CTL_COMMIT n) = false ∧ SameRegsBut [(NET_P_TAS_CTL_COMMIT n).off] s t) ∧
  (∀ (n : Fin 10) (v : BitVec 32) (s : State), s.blockOff ((NET_P_TAS_CTL_COMMIT n).off >>> 20) = false → bit v.toNat 31 = true →
    bits v.toNat 29 27 ≤ 4 → 1 ≤ bits v.toNat 8 0 → bits v.toNat 8 0 ≤ 256 →
    let a := s.rd (NET_P_TAS_LIST_ADDR n)
    let k := bits v.toNat 8 0
    let bytes := (s.runKeys a (8 * k)).map s.byteAt
    let l := gateEntries k (leNum bytes)
    let now := s.time (bits v.toNat 29 27)
    let base := s.rd (NET_P_TAS_BASE_BASE n)
    (s.on (NET_P_TAS_CTL_COMMIT n) = true ∨ a % 8 ≠ 0 → ∃ t : State, exec (.tasCommit .image n v) s = .next t ∧ t.on NET_EVENT_CFG_ERR = true ∧
      OnlyRegs [NET_EVENT_CFG_ERR.off] s t) ∧
    (s.on (NET_P_TAS_CTL_COMMIT n) = false → a % 8 = 0 → s.tunOwned (s.rd (NET_P_CFG_OWNER n)) a (8 * k) = true → anyPois bytes = false →
      (∀ e ∈ l, 64 ≤ e.2) → (s.gated n = false ∨ 0 < cycleOf (s.gateList n).1) →
      ∃ (t : State) (m : Nat), exec (.tasCommit .image n v) s = .next t ∧ t.on (NET_P_TAS_CTL_COMMIT n) = true ∧
        mget (fun _ => none) t.net.newGates n = some (l, base, base + m * cycleOf l) ∧ now ≤ base + m * cycleOf l ∧
        t.gateList n = s.gateList n ∧ (base < now → t.on NET_EVENT_TAS_LATE = true))) ∧
  (∀ (v : BitVec 32) (s : State), s.blockOff (NET_PSFP_CTL_COMMIT.off >>> 20) = false → bit v.toNat 31 = true → bits v.toNat 2 0 ≤ 4 →
    let a := s.rd NET_PSFP_TAB_ADDR
    let d := leNum ((s.runKeys a 46080).map s.byteAt)
    (a % 64 ≠ 0 ∨ s.inTun a = false ∨ s.inTun (a + 46079) = false → ∃ t : State, exec (.psfpCommit .image v) s = .next t ∧
      t.on NET_EVENT_CFG_ERR = true ∧ OnlyRegs [NET_EVENT_CFG_ERR.off] s t) ∧
    (a % 64 = 0 → s.inTun a = true → s.inTun (a + 46079) = true → anyPois ((s.runKeys a 46080).map s.byteAt) = false →
      ∃ t : State, exec (.psfpCommit .image v) s = .next t ∧ t.on (NET_PSFP_CTL_COMMIT) = false ∧ t.rd NET_PSFP_CTL_TS = bits v.toNat 2 0 ∧
        t.net.filters = (List.range 256).map (fun i => BitVec.ofNat 128 (d >>> (128 * i))) ∧ t.net.tokens = [] ∧ t.net.closed = [])) ∧
  (∀ (n : Fin 10) (stamp : BitVec 64) (s : State), s.netUp n = true → s.rd (NET_P_PTP_ROLE n) = 1 →
    (s.slavePort = none → ∃ t : State, exec (.syncSend n stamp) s = .next t ∧
      t = { s with out := s.out ++ [Ext.ptpSync n stamp.toNat (s.timeAt (s.rd (NET_P_PTP_TS n)) stamp.toNat) 0 0] }) ∧
    (∀ (m rx origin : Nat) (corr off : Int), s.slavePort = some m → mget (fun _ => none) s.net.sync m = some (rx, origin, corr, off) →
      let o := off + mget (fun _ => 0) s.net.nrr m
      ∃ (t : State) (c : Int), exec (.syncSend n stamp) s = .next t ∧ t = { s with out := s.out ++ [Ext.ptpSync n stamp.toNat origin c o] } ∧
        c = corr + mget (fun _ => 0) s.net.delay m + (((stamp.toNat : Int) - rx) * (2 ^ 41 + o)) / 2 ^ 25)) ∧
  (∀ (n : Fin 10) (stamp origin : BitVec 64) (corr offset : Int) (s : State), s.netUp n = true → s.rd (NET_P_PTP_ROLE n) = 2 →
    ∃ t : State, exec (.followUp n stamp origin corr offset) s = .next t ∧
      mget (fun _ => none) t.net.sync n = some (stamp.toNat, origin.toNat, corr, offset) ∧ mget (fun _ => 0) t.net.syncAt n = s.now ∧
      mget (fun _ => false) t.net.syncLost n = false ∧ SameRegsBut [] s t ∧
      t.tim.pairs = s.tim.pairs ++ (if s.rd TIM_SRV_CFG_PORT = n then
        [(0, ofSigned 64 (origin.toNat + (corr + mget (fun _ => 0) s.net.delay n) / 2 ^ 16), stamp.toNat)] else [])) ∧
  (∀ (n : Fin 10) (s : State), s.netUp n = true → s.rd (NET_P_PTP_ROLE n) ≠ 0 →
    (∃ t : State, exec (.pdelay n .answer) s = .next t ∧ t = { s with out := s.out ++ [Ext.ptpPdelay n true] }) ∧
    (∀ t1 t2 t3 t4, ∃ t : State, exec (.pdelay n (.own t1 t2 t3 t4)) s = .next t ∧ t.out = s.out ++ [Ext.ptpPdelay n false] ∧
      mget (fun _ => none) t.net.pd n = some (t3, t4) ∧ SameRegsBut [] s t ∧
      (mget (fun _ => none) s.net.pd n = none → mget (fun _ => 0) t.net.nrr n = 0 ∧
        mget (fun _ => 0) t.net.delay n = (((t4 : Int) - t1) * 2 ^ 16 - ((t3 : Int) - t2) * 2 ^ 16) / 2))) ∧
  (∀ (n : Fin 10) (s : State), s.netUp n = true → s.rd (NET_P_PTP_ROLE n) = 2 → mget (fun _ => false) s.net.syncLost n = false →
    mget (fun _ => 0) s.net.syncAt n + 3 * s.syncInterval n ≤ s.now →
    ∃ t : State, exec (.syncTmo n) s = .next t ∧ t.on NET_EVENT_SYNC_TMO = true ∧ mget (fun _ => false) t.net.syncLost n = true ∧
      SameRegsBut [NET_EVENT_SYNC_TMO.off] s t) ∧
  (∀ (v : BitVec 32) (s : State), s.blockOff (NET_MDIO_GO.off >>> 20) = false → bit v.toNat 31 = true → bits v.toNat 29 28 ≤ 2 →
    (s.on NET_MDIO_GO = true → ∃ t : State, exec (.mdioGo .image v) s = .next t ∧ t = s) ∧
    (s.on NET_MDIO_GO = false → ∃ t : State, exec (.mdioGo .image v) s = .next t ∧ t.on NET_MDIO_GO = true ∧ t.rd NET_MDIO_OP = bits v.toNat 29 28 ∧
      t.rd NET_MDIO_DATA = bits v.toNat 15 0 ∧ t.out = s.out ++ [Ext.mdio (t.word NET_MDIO_GO.off)] ∧ SameRegsBut [NET_MDIO_GO.off] s t)) ∧
  (∀ (data : BitVec 16) (s : State), s.on NET_MDIO_GO = true →
    ∃ t : State, exec (.mdioComplete data) s = .next t ∧ t.on NET_MDIO_GO = false ∧
      t.rd NET_MDIO_DATA = (if s.rd NET_MDIO_OP = 2 then data.toNat else s.rd NET_MDIO_DATA) ∧ OnlyRegs [NET_MDIO_GO.off] s t) ∧
  (∀ (n : Fin 10) (speed : Fin 6) (s : State),
    (s.on (NET_P_STAT_UP n) = true → ∃ t : State, exec (.ethLinkDown n) s = .next t ∧ t.on (NET_P_STAT_UP n) = false ∧ t.on NET_EVENT_LINK = true ∧
      t.rd (NET_P_STAT_LINKDOWNS n) = min (s.rd (NET_P_STAT_LINKDOWNS n) + 1) 0xFFFF) ∧
    (s.on (NET_P_CFG_EN n) = true → ∃ t : State, exec (.ethLinkUp n speed) s = .next t ∧ t.on (NET_P_STAT_UP n) = true ∧
      t.rd (NET_P_STAT_SPEED n) = speed ∧ t.on NET_EVENT_LINK = true ∧ OnlyRegs [(NET_P_STAT_UP n).off, NET_EVENT_LINK.off] s t))

/-- R486 to R489, R491 to R501: a character is the majority of its samples and goes to its ring; characters leave one by one; pins are set and
cleared; a display commit is taken whole; a wrong tell-tale frame is counted and fails at its limit; a hot-plug loss is shown; an amplifier
fault mutes its channels and the command word releases them; a TDM frame carries the channels' samples. -/
def Obligations.SerialAndCockpit : Prop :=
  (∀ (u : Fin 8) (samples : List (BitVec 3)) (early : Bool) (s : State), s.on (SER_U_CFG_EN u) = true →
    let v := samples.map maj3
    let d := s.uartBits u
    let np := b2n (s.rd (SER_U_CFG_PAR u) != 0)
    let stops := 1 + s.rd (SER_U_CFG_STOP2 u)
    let stopBad := early = true ∨ ∃ i, i < stops ∧ v.getD (1 + d + np + i) false = false
    let b := serRing u
    let w := s.rd (rWidx b)
    let a := s.rd (rBase b) + w % 2 ^ s.rd (rLog b) * 4
    (samples ≠ [] → v.getD 0 true = true → ∃ t : State, exec (.uartCharacter u samples early) s = .next t ∧
      t.rd (SER_U_STAT_FALSE u) = min (s.rd (SER_U_STAT_FALSE u) + 1) 0xFFFF ∧ OnlyRegs [(SER_U_STAT_FALSE u).off] s t) ∧
    (samples.length = 1 + d + np + stops → v.getD 0 true = false → ∃ t : State, exec (.uartCharacter u samples early) s = .next t ∧
      (stopBad → t.on SER_EVENT_FRAMING = true ∧ t.rd (SER_U_STAT_ERRS u) = min (s.rd (SER_U_STAT_ERRS u) + 1) 0xFFFF) ∧
      (¬ stopBad → np = 0 → t.rd (SER_U_STAT_ERRS u) = s.rd (SER_U_STAT_ERRS u)) ∧
      (s.on (rEn b) = true → (w + 2 ^ 32 - (s.ring b).read) % 2 ^ 32 < 2 ^ s.rd (rLog b) → s.checkRun (s.rPart b) true a 4 = .ok →
        t.rd (rWidx b) = (w + 1) % 2 ^ 32 ∧
        (s.on MEM_INJ_CTL_ARM = false → (s.runKeys a 4).Nodup → ∀ k i, (s.runKeys a 4)[0]? = some k → i < 8 → i < d →
          bit (t.byteAt k).1.toNat i = v.getD (1 + i) false)))) ∧
  (∀ (u : Fin 8) (s : State), s.on (SER_U_CFG_EN u) = true → mget (fun _ => 0) s.ser.pend u ≠ 0 →
    ∃ t : State, exec (.uartIdleNotify u) s = .next t ∧ mget (fun _ => 0) t.ser.pend u = 0 ∧ SameRegsBut [] s t ∧
      (s.on (rNen (serRing u)) = true → ∃ m : Msg, t.msgs = s.msgs ++ [m] ∧ m.dst = s.rd (rCore (serRing u)) ∧
        m.body = .notif (s.rd (rCnt (serRing u))) (mget (fun _ => 0) s.ser.pend u))) ∧
  (∀ (u : Fin 8) (ctsHigh : Bool) (s : State) (a len k i : Nat), s.on (SER_U_CFG_EN u) = true → (s.on (SER_U_CFG_CTSEN u) = false ∨ ctsHigh = false) →
    mget (fun _ => none) s.ser.tx u = some (a, len, k, i) → k < len → s.checkRun (s.qPart (serQ u)) false (a + k) (s.charBytes u) = .ok →
    let bytes := (s.runKeys (a + k) (s.charBytes u)).map s.byteAt
    anyPois bytes = false →
    ∃ t : State, exec (.uartTxCharacter u ctsHigh) s = .next t ∧ Ext.uartTx u (leNum bytes % 2 ^ s.uartBits u) ∈ t.out ∧
      mget (fun _ => none) t.ser.tx u = if len ≤ k + s.charBytes u then none else some (a, len, k + s.charBytes u, i)) ∧
  (∀ (v : BitVec 32) (s : State),
    (s.blockOff (SER_GPIO_SET_SET.off >>> 20) = false → ∃ t : State, exec (.gpioSet .image v) s = .next t ∧
      (∀ k, k < 32 → bit (t.rd SER_GPIO_OUT_OUT) k = (bit (s.rd SER_GPIO_OUT_OUT) k || bit v.toNat k)) ∧ OnlyRegs [SER_GPIO_OUT_OUT.off] s t) ∧
    (s.blockOff (SER_GPIO_CLR_CLR.off >>> 20) = false → ∃ t : State, exec (.gpioClr .image v) s = .next t ∧
      (∀ k, k < 32 → bit (t.rd SER_GPIO_OUT_OUT) k = (bit (s.rd SER_GPIO_OUT_OUT) k && !bit v.toNat k)) ∧ OnlyRegs [SER_GPIO_OUT_OUT.off] s t)) ∧
  (∀ (o : Fin 4) (s : State), s.on (CKP_D_CTL_COMMIT o) = true →
    ∃ t : State, exec (.vblankCommit o false) s = .next t ∧ t.on (CKP_D_CTL_COMMIT o) = false ∧ SameRegsBut [(CKP_D_CTL_COMMIT o).off] s t ∧
      (∀ l, l < 8 → (t.layer o l).addr = s.rd (CKP_L_ADDR_ADDR o l) ∧ (t.layer o l).en = s.on (CKP_L_CFG_EN o l) ∧
        (t.layer o l).w = s.rd (CKP_L_SIZE_W o l) ∧ (t.layer o l).h = s.rd (CKP_L_SIZE_H o l) ∧ (t.layer o l).x = s.rd (CKP_L_POS_X o l) ∧
        (t.layer o l).y = s.rd (CKP_L_POS_Y o l) ∧ (t.layer o l).fmt = s.rd (CKP_L_CFG_FMT o l) ∧
        (t.layer o l).galpha = s.rd (CKP_L_CFG_GALPHA o l) ∧ (t.layer o l).pitch = s.rd (CKP_L_CFG_PITCH o l))) ∧
  (∀ (o : Fin 4) (s : State), s.on CKP_CFG_EN = true → s.on (CKP_D_CFG_EN o) = true → s.on (CKP_D_TT_EN o) = true →
    let on := (List.range 8).filter fun l => (s.layer o l).en
    let live := on.filter fun l => s.layerLive o l
    let s2 := on.foldl (fun (a : State) l => if a.layerReach o l = .ok then (a.readKeys 128 (a.layerKeys o l)).2 else a) s
    let a := (s2.layer o 7).addr
    let r := s2.blkRead a 8
    let bad := anyPois r.1 = true ∨ 7 ∉ live ∨ s2.checkRun (s2.rd CKP_CFG_OWNER) false a 8 ≠ .ok ∨
      crc32c (s2.ttBytes o live []) ≠ leNum r.1 / 2 ^ 32
    let again := mget (fun _ => none) s2.ckp.ttSeq o = some (leNum r.1 % 2 ^ 32)
    ∃ t : State, exec (.telltaleVerdict o []) s = .next t ∧ mget (fun _ => none) t.ckp.ttSeq o = some (leNum r.1 % 2 ^ 32) ∧
      (bad → t.rd (CKP_D_TT_TTMIS o) = min (s2.rd (CKP_D_TT_TTMIS o) + 1) 0xFF ∧ t.on CKP_EVENT_TT_CRC = true ∧
        mget (fun _ => 0) t.ckp.mis o = mget (fun _ => 0) s2.ckp.mis o + 1 ∧
        (s2.rd (CKP_D_TT_TT_LIMIT o) ≤ mget (fun _ => 0) s2.ckp.mis o + 1 → t.on (CKP_D_TT_TT_FAIL o) = true)) ∧
      (¬ bad → t.rd (CKP_D_TT_TTMIS o) = s2.rd (CKP_D_TT_TTMIS o)) ∧
      (¬ bad → ¬ again → mget (fun _ => 0) t.ckp.mis o = 0 ∧ mget (fun _ => 0) t.ckp.rep o = 0)) ∧
  (∀ (o : Fin 4) (ok : Bool) (s : State), s.on (CKP_D_CFG_EN o) = true →
    (∃ t : State, exec (.dpHpdLoss o) s = .next t ∧ t.on (CKP_D_STAT_UP o) = false ∧ t.on CKP_EVENT_LINK = true ∧
      OnlyRegs [(CKP_D_STAT_UP o).off, CKP_EVENT_LINK.off] s t) ∧
    (∃ t : State, exec (.dpHpdReturn o ok) s = .next t ∧ t.on (CKP_D_STAT_UP o) = ok ∧ (ok = false → t.on CKP_EVENT_LINK = true) ∧
      OnlyRegs [(CKP_D_STAT_UP o).off, CKP_EVENT_LINK.off] s t)) ∧
  (∀ (k : Fin 8) (stamp : BitVec 64) (s : State), s.on CKP_CFG_EN = true →
    (∃ t : State, exec (.ampFault k true stamp) s = .next t ∧ t.on CKP_EVENT_AMP = true ∧ t.rd (CKP_AMP_LOG_STAMP k) = stamp.toNat ∧
      mget (fun _ => false) t.ckp.amp k = true ∧
      ∀ j, j < 32 → (bit (t.rd (CKP_AMP_MASK_MASK k)) j = true ↔ s.on (CKP_CH_EN j) = true ∧ s.rd (CKP_CH_AMP j) = k) ∧
        (s.on (CKP_CH_EN j) = true → s.rd (CKP_CH_AMP j) = k → t.on (CKP_CH_MUTE j) = true)) ∧
    (∃ t : State, exec (.ampFault k false stamp) s = .next t ∧ mget (fun _ => false) t.ckp.amp k = false ∧
      t = { s with ckp := { s.ckp with amp := t.ckp.amp } })) ∧
  (∀ (s : State),
    let a := s.rd CKP_CMD_ADDR
    let v := leNum ((s.runKeys a 8).map s.byteAt)
    s.on CKP_CFG_EN = true → s.fetchOk (s.rd CKP_CFG_OWNER) = true → s.inTun a = true → s.checkRun (s.rd CKP_CFG_OWNER) false a 8 = .ok →
    anyPois ((s.runKeys a 8).map s.byteAt) = false →
    ∃ t : State, exec .ckpCmdPoll s = .next t ∧ t.ckp.cmdSeq = v / 2 ^ 32 ∧ (v / 2 ^ 32 = s.ckp.cmdSeq → t.ckp = s.ckp) ∧
      (v / 2 ^ 32 ≠ s.ckp.cmdSeq → ∀ j, j < 32 → bit v j = true → 8 ≤ s.rd (CKP_CH_AMP j) → t.on (CKP_CH_MUTE j) = false ∧
        (s.on (CKP_CH_MUTE j) = true → t.gainOf j = 0))) ∧
  (∀ (n : Fin 4) (fs : BitVec 64) (ins : List (BitVec 32)) (s : State), s.on CKP_CFG_EN = true → s.on (CKP_T_CFG_EN n) = true →
    (s.bound n 0 32 = [] → ∃ t : State, exec (.tdmFrame n fs ins) s = .next t ∧ Ext.tdm n [] ∈ t.out) ∧
    (∀ j addr left i, s.bound n 0 32 = [j] → mget (fun _ => none) s.ckp.play n = some (addr, left, i) →
      s.checkRun (s.rd CKP_CFG_OWNER) false addr 4 = .ok → anyPois ((s.runKeys addr 4).map s.byteAt) = false →
      s.on (CKP_CH_MUTE j) = false → s.gainOf j = 48 →
      let x := toSigned (if s.on (CKP_T_CFG_S24 n) then 24 else 16) (leNum ((s.runKeys addr 4).map s.byteAt))
      ∃ t : State, exec (.tdmFrame n fs ins) s = .next t ∧ Ext.tdm n [(s.rd (CKP_CH_SLOT j), rneQuot (x * 48) 48)] ∈ t.out ∧
        mget (fun _ => none) t.ckp.play n = if left ≤ 1 then none else some (addr + 4, left - 1, i)))

/-! ### Regions, domains, monitors and Cellar (R503 to R528, R538, R571) -/

/-- R407, R505, R508 to R514, R517 to R527, R538, R571: a region's target and its glide, the voltage first on a rise and last on a fall; a group
rests, sleeps and wakes by the conditions and through the slots of R517; monitors, sags and clock failures show, hold and raise their causes; Cellar is
accepted, entered and left by its sources; power-good failures are answered. -/
def Obligations.PowerCommands : Prop :=
  (∀ (r : Fin 8) (v : BitVec 32) (s : State), s.blockOff ((PWR_REG_CFG_TARGET r).off >>> 20) = false →
    let x := bits v.toNat 10 0
    (x % 25 = 0 → 600 ≤ x → x ≤ 1500 → ∃ t : State, exec (.regionTargetWrite .image r v) s = .next t ∧ t.rd (PWR_REG_CFG_TARGET r) = x ∧
      t.on (PWR_REG_STAT_BUSY r) = true ∧ t.on (PWR_REG_STAT_FALLBACK r) = false ∧ t.rd (PWR_REG_STAT_FREQ r) = s.rd (PWR_REG_STAT_FREQ r) ∧
      t.rd (PWR_REG_STAT_VOLT r) = max (s.rd (PWR_REG_STAT_VOLT r)) (opVolt x) ∧
      OnlyRegs [(PWR_REG_CFG_TARGET r).off, (PWR_REG_STAT_FREQ r).off, PWR_RAMP_STAT_QUEUED.off] s t) ∧
    (x % 25 ≠ 0 ∨ x < 600 ∨ 1500 < x → ∃ t : State, exec (.regionTargetWrite .image r v) s = .next t ∧ t.on PWR_EVENT_CFG_ERR = true ∧
      OnlyRegs [PWR_EVENT_CFG_ERR.off] s t)) ∧
  (∀ (r : Fin 8) (s : State), s.on (PWR_REG_STAT_BUSY r) = true → s.rd (PWR_REG_STAT_FREQ r) = s.rd (PWR_REG_CFG_TARGET r) →
    s.rd (PWR_REG_CFG_TARGET r) ≤ 1500 →
    ∃ t : State, exec (.regionTargetReached r) s = .next t ∧ t.on (PWR_REG_STAT_BUSY r) = false ∧ t.on PWR_EVENT_REG_DONE = true ∧
      t.rd (PWR_REG_STAT_VOLT r) = opVolt (s.rd (PWR_REG_CFG_TARGET r)) ∧ OnlyRegs [(PWR_REG_STAT_FREQ r).off, PWR_EVENT_REG_DONE.off] s t) ∧
  (∀ (s : State),
    (∀ x : RampStep, s.firstStep (s.pwr.steps.filter (·.rise)) = some x → x.rise = true → x.spare = false →
      ∃ t : State, exec .rampSlot s = .next t ∧ t.pwr.steps = s.pwr.steps.erase x ∧
        mget (fun _ => 0) t.pwr.waking x.idx = x.aim + 1 ∧ OnlyRegs [PWR_RAMP_STAT_QUEUED.off] s { t with pwr := s.pwr }) ∧
    (s.firstStep (s.pwr.steps.filter (·.rise)) = none →
      (∀ r : Nat, s.glide true = some r → s.rd (PWR_REG_CFG_TARGET r) ≤ 1500 → ∃ t : State, exec .rampSlot s = .next t ∧
        t.rd (PWR_REG_STAT_FREQ r) = s.rd (PWR_REG_STAT_FREQ r) + 25 ∧ OnlyRegs [(PWR_REG_STAT_FREQ r).off, PWR_RAMP_STAT_QUEUED.off] s t) ∧
      (s.glide true = none →
        (∀ x : RampStep, s.firstStep (s.pwr.steps.filter fun x => !x.rise) = some x → x.rise = false → x.spare = false → x.aim = 3 →
          1 ≤ x.idx → x.idx ≤ 68 → ∃ t : State, exec .rampSlot s = .next t ∧ t.domState x.idx = 3 ∧ t.pwr.steps = s.pwr.steps.erase x ∧
            ∀ d, d < 106 → d ≠ x.idx → t.domState d = s.domState d) ∧
        (s.firstStep (s.pwr.steps.filter fun x => !x.rise) = none → ∀ r : Nat, s.glide false = some r → ∃ t : State,
          exec .rampSlot s = .next t ∧ t.rd (PWR_REG_STAT_FREQ r) = s.rd (PWR_REG_STAT_FREQ r) - 25 ∧
            OnlyRegs [(PWR_REG_STAT_FREQ r).off, PWR_RAMP_STAT_QUEUED.off] s t)))) ∧
  (∀ (d : Fin 106) (s : State), s.autoDom d = true → s.domIdle d = true →
    (s.domState d = 0 → 1 ≤ s.choice d → ∃ t : State, exec (.groupRestEntry d) s = .next t ∧
      (if d.val ≤ 68 then t.pwr.steps = s.pwr.steps ++ [RampStep.mk false false d 1] ∧ t.domState d = 0
       else t.domState d = 1 ∧ mget (fun _ => 0) t.pwr.restAt d = s.now ∧ t.pwr.steps = s.pwr.steps) ∧ SameBytes s t) ∧
    (s.domState d = 1 → 2 ≤ s.choice d → mget (fun _ => 0) s.pwr.restAt d + s.rd PWR_CFG_STEEP_HOLD * 1000 ≤ s.now ∨ s.onlyTime d = true →
      ∃ t : State, exec (.groupSteepEntry d) s = .next t ∧
      (if d.val ≤ 68 then t.pwr.steps = s.pwr.steps ++ [RampStep.mk false false d 2] ∧ t.domState d = 1
       else t.domState d = 2 ∧ t.pwr.steps = s.pwr.steps) ∧ SameBytes s t)) ∧
  (∀ (d : Fin 106) (s : State), 0 < s.domState d → s.domState d < 3 → mget (fun _ => 0) s.pwr.waking d = 0 →
    (s.pwr.steps.any fun x => !x.spare && x.idx == d.val) = false →
    ∃ t : State, exec (.groupWake d) s = .next t ∧ t.domState d = s.domState d ∧ SameBytes s t ∧
      if 1 ≤ d.val ∧ d.val ≤ 68 then t.pwr.steps = s.pwr.steps ++ [RampStep.mk true false d 0] else mget (fun _ => 0) t.pwr.waking d = 1) ∧
  (∀ (d : Fin 106) (w : Nat) (s : State), mget (fun _ => 0) s.pwr.waking d = w + 1 → w < 4 →
    ∃ t : State, exec (.groupWakeDone d) s = .next t ∧ t.domState d = w ∧ mget (fun _ => 0) t.pwr.waking d = 0 ∧
      (s.domState d ≠ 3 → SameBytes s t ∧ SameRegsBut [(PWR_DOM_STAT_STATE (d.val / 16)).off] s t) ∧
      (s.domState d = 3 → 69 ≤ d.val → d.val ≤ 84 → ∀ k, 0x100000000 + (d.val - 69) * 0x2000000 ≤ k → k < 0x100000000 + (d.val - 68) * 0x2000000 →
        t.byteAt k = (0, false))) ∧
  (∀ (m : Fin 8) (high : Bool) (s : State), s.monOn m = true →
    (∃ t : State, exec (.supwarn m) s = .next t ∧ t.on (PWR_MON_STAT_UVW m) = true ∧ t.on PWR_EVENT_SUPWARN = true) ∧
    (∃ t : State, exec (.supfault m high) s = .next t ∧ t.on PWR_EVENT_SUPFAULT = true ∧ CauseTaken s t 8 ∧
      (if high = true then t.on (PWR_MON_STAT_OV m) = true else t.on (PWR_MON_STAT_UVF m) = true))) ∧
  (∀ (ao : Bool) (s : State),
    let rail := if ao then PWR_SAG_AO else PWR_SAG_NVM
    let other := if ao then PWR_SAG_NVM else PWR_SAG_AO
    (s.on rail = false → ∃ t : State, exec (.sag ao) s = .next t ∧ t.on rail = true ∧ t.on PWR_SAG_HOLD = true ∧ t.on PWR_EVENT_SAG = true ∧
      t.on other = s.on other) ∧
    (s.on rail = true → ∃ t : State, exec (.sagEnd ao) s = .next t ∧ t.on rail = false ∧ t.on PWR_SAG_HOLD = s.on other ∧ t.on other = s.on other ∧
      t.on PWR_EVENT_SAG_END = true ∧ OnlyRegs [PWR_SAG_AO.off, PWR_EVENT_SAG_END.off] s t)) ∧
  (∀ (k : Fin 13) (s : State), ∃ t : State, exec (.clkfault k) s = .next t ∧ bit (t.word PWR_CLKMON_AO.off) k = true ∧ t.on PWR_EVENT_CLKFAULT = true ∧
    (k.val ≠ 12 → CauseTaken s t 9) ∧ (k.val = 3 → t.tim.ao = true) ∧
    (4 ≤ k.val → k.val < 12 → t.rd (PWR_REG_STAT_FREQ (k.val - 4)) = 1000 ∧ t.on (PWR_REG_STAT_FALLBACK (k.val - 4)) = true ∧
      t.on (PWR_REG_STAT_BUSY (k.val - 4)) = false ∧ t.rd (PWR_REG_STAT_VOLT (k.val - 4)) = 650)) ∧
  (∀ (v : BitVec 32) (s : State), s.blockOff (PWR_CELLAR_CTL_KEY.off >>> 20) = false → s.pwr.cellar = 0 →
    let free := s.on SAF_STATE_SAFE = true ∧ ∀ p, p < 16 → s.rd (PART_STATUS_STATE p) ≠ stLoading ∧ s.rd (PART_STATUS_STATE p) ≠ stResetting
    (bits v.toNat 31 16 = 0xCE11 → bit v.toNat 0 = true → free → ∃ t : State, exec (.cellarRequest .image v) s = .next t ∧
      t = { s with pwr := { s.pwr with cellar := 1 } }) ∧
    (bits v.toNat 31 16 = 0xCE11 → bit v.toNat 0 = true → ¬ free → ∃ t : State, exec (.cellarRequest .image v) s = .next t ∧
      t.on PWR_EVENT_CELLAR_REF = true ∧ OnlyRegs [PWR_EVENT_CELLAR_REF.off] s t) ∧
    (bits v.toNat 31 16 ≠ 0xCE11 ∨ bit v.toNat 0 = false → exec (.cellarRequest .image v) s = .next s)) ∧
  (∀ (s : State), s.pwr.cellar = 1 → s.pwr.early = 0 →
    ∃ t : State, exec .cellarEntry s = .next t ∧ t.pwr.cellar = 2 ∧ t.pwr.en = 1 ∧ t.rd PWR_WAKE_SRC_SRC = 0 ∧ t.tim.ao = true ∧ t.msgs = [] ∧
      t.sys.header = none ∧ t.sys.launched = false ∧ t.pinsOperate = false ∧ (∀ k, t.byteAt k = (0, false)) ∧
      (∀ d, 1 ≤ d → d ≤ 105 → t.domState d = 3) ∧ t.ownChip = s.ownChip) ∧
  (∀ (wakeN : Bool) (s : State),
    let alarm := s.on TIM_EVENT_ALARM_EN && decide (s.rd TIM_ALARM_VALUE ≤ s.now) && s.tim.alarmAhead
    let m := b2n wakeN + 2 * b2n alarm
    m ≠ 0 →
    (s.pwr.cellar = 2 → ∃ t : State, exec (.wakeSource wakeN) s = .next t ∧ t.pwr = { s.pwr with cellar := 3, en := s.pwr.en ||| 2 } ∧
      t.rd PWR_WAKE_SRC_SRC = m ∧ t.rd PWR_WAKE_REC_STAMP = s.now ∧ (alarm = true → t.on TIM_EVENT_ALARM = true) ∧ SameBytes s t) ∧
    (s.pwr.cellar = 1 → ∃ t : State, exec (.wakeSource wakeN) s = .next t ∧ t.pwr = { s.pwr with early := s.pwr.early ||| m } ∧ SameBytes s t)) ∧
  (∀ (k : Fin 4) (s : State), s.pwr.cellar = 2 → s.on (PWR_CANWAKE_CFG_EN k) = true →
    (∀ (d g d' whole : Nat), s.on (PWR_CANWAKE_CFG_MODE k) = false → whole ≤ 16000 → s.rd (PWR_CANWAKE_CFG_WFILT k) ≤ d →
      s.rd (PWR_CANWAKE_CFG_WFILT k) ≤ g → s.rd (PWR_CANWAKE_CFG_WFILT k) ≤ d' →
      ∃ t : State, exec (.canWakeDecode k (.wup d g d' whole)) s = .next t ∧ t.pwr = { s.pwr with cellar := 3, en := s.pwr.en ||| 2 } ∧
        t.rd PWR_WAKE_SRC_SRC = 2 ^ (2 + k.val) ∧ OnlyRegs [PWR_WAKE_SRC_SRC.off, PWR_WAKE_REC_STAMP.off, PWR_WAKE_REC_STAMP.off + 4] s { t with pwr := s.pwr }) ∧
    (∀ f : CanFrame, s.on (PWR_CANWAKE_CFG_MODE k) = true → f.fdf = false →
      f.id.toNat &&& s.rd (PWR_CANWAKE_MASK_ID k) = s.rd (PWR_CANWAKE_ID_ID k) &&& s.rd (PWR_CANWAKE_MASK_ID k) →
      (s.on (PWR_CANWAKE_MASK_IDE k) = true → f.ide = s.on (PWR_CANWAKE_ID_IDE k)) →
      ∃ t : State, exec (.canWakeDecode k (.frame f true)) s = .next t ∧ t.pwr = { s.pwr with cellar := 3, en := s.pwr.en ||| 2 } ∧
        t.rd PWR_WAKE_SRC_SRC = 2 ^ (2 + k.val) ∧ t.rd PWR_WAKE_ID_ID = f.id.toNat ∧ t.on PWR_WAKE_ID_IDE = f.ide)) ∧
  (∀ (port : Fin 2) (frame : List (BitVec 8)) (s : State), s.pwr.cellar = 2 →
    s.on (if port.val = 0 then PWR_ETHWAKE_CFG_EN0 else PWR_ETHWAKE_CFG_EN1) = true →
    magicIn ((List.range 6).map fun i => BitVec.ofNat 8 (s.pwr.macs.getD port 0 / 2 ^ (8 * (5 - i)))) frame = true →
    ∃ t : State, exec (.magicPacket port frame true) s = .next t ∧ t.pwr = { s.pwr with cellar := 3, en := s.pwr.en ||| 2 } ∧
      t.rd PWR_WAKE_SRC_SRC = 2 ^ (6 + port.val)) ∧
  (∀ (g : Fin 4) (s : State),
    let up := s.pwr.pg ||| 2 ^ g.val
    (bit s.pwr.en g = false → exec (.pmicPgAssert g) s = .next { s with pwr := { s.pwr with pg := up } }) ∧
    (bit s.pwr.en g = true → s.pwr.cellar = 3 → 1 ≤ g.val → g.val < 3 →
      exec (.pmicPgAssert g) s = .next { s with pwr := { s.pwr with pg := up, en := s.pwr.en ||| 2 ^ (g.val + 1) } }) ∧
    (bit s.pwr.en g = true → s.pwr.cellar = 3 → g.val = 3 → ∃ t : State, exec (.pmicPgAssert g) s = .next t ∧ t.pwr.cellar = 0 ∧
      (∀ d, d < 106 → t.domState d = 0) ∧ t.on PWR_EVENT_WAKE = true ∧ t.on SYS_LOCK_LOCK = false ∧ t.sys.header = none ∧
      t.sys.stage = if s.on LNK_CFG_ROLE = true then 4 else 6) ∧
    (bit s.pwr.en g = true → s.pwr.cellar ≠ 3 → s.sys.stage = 2 → g.val = 1 → ∃ t : State, exec (.pmicPgAssert g) s = .next t ∧ t.sys.stage = 3 ∧
      t.pwr = { s.pwr with pg := up } ∧ t.rd (SYS_BOOT_TIME_COUNT 0) = s.now ∧ t.rd SYS_BOOT_STATUS_STAGE = 2)) ∧
  (∀ (g : Fin 4) (s : State), bit s.pwr.en g = true → bit s.pwr.pg g = false → 1 ≤ g.val →
    (s.pwr.cellar = 3 → ∃ t : State, exec (.pmicPgTimeout g) s = .next t ∧ t.pwr = { s.pwr with en := 1, pg := s.pwr.pg % 2, cellar := 2 } ∧
      t.on PWR_EVENT_PMIC_FAIL = true ∧ OnlyRegs [PWR_EVENT_PMIC_FAIL.off] s { t with pwr := s.pwr }) ∧
    (s.pwr.cellar ≠ 3 → s.sys.stage = 2 ∨ s.sys.stage = 5 → ∃ t : State, exec (.pmicPgTimeout g) s = .next t ∧ t.pinsOperate = false ∧
      t.pwr = { s.pwr with en := 1, pg := s.pwr.pg % 2, tries := s.pwr.tries + 1, failAt := some s.now } ∧
      t.on PWR_EVENT_PMIC_FAIL = true ∧ t.rd SYS_BOOT_STATUS_REASON = 9 ∧ t.sys.stage = 1)) ∧
  (∀ (f : Nat) (s : State), s.pwr.failAt = some f → f + 10 ^ 9 ≤ s.now → s.pwr.tries ≤ 3 →
    ∃ t : State, exec .pmicRetry s = .next t ∧ t.pwr = { s.pwr with failAt := none } ∧ t.on SAF_STATE_MINIMAL = false ∧ t.sys.header = none ∧
      t.sys.stage = s.sys.stage ∧ SameRegsBut [SAF_STATE_MINIMAL.off] s t) ∧
  (∀ (g : Fin 4) (s : State),
    (bit s.pwr.en g = true → 6 ≤ s.sys.stage → ∃ t : State, exec (.pmicPgLoss g) s = .next t ∧ bit t.pwr.pg g = false ∧
      t.on PWR_EVENT_SUPFAULT = true ∧ CauseTaken s t 8) ∧
    (bit s.pwr.en g = false ∨ s.sys.stage < 6 → ∃ t : State, exec (.pmicPgLoss g) s = .next t ∧ bit t.pwr.pg g = false ∧
      t = { s with pwr := { s.pwr with pg := t.pwr.pg } }))

/-! ### Start-up, resets, image and log (R182, R407, R444, R458, R519, R529 to R561) -/

/-- R444, R519, R529, R530, R532, R535 to R537, R540 to R545, R549, R554, R555: PORST_n and its equivalent leave everything at reset but fuses and
log flash, with the straps sampled; start-up's steps follow each other; a header is taken, or the copy fails; cores report their microcode and a
second failure retires the position; class-S loads are released together; training and compute reset. -/
def Obligations.StartUp : Prop :=
  (∀ (i : Instr) (chip : Fin 8) (manager : Bool) (s : State),
    i = .porstN chip manager ∨ (i = .vddAoSelfReset ∧ chip.val = s.ownChip ∧ manager = s.on LNK_CFG_ROLE) →
    ∃ t : State, exec i s = .next t ∧ t.ownChip = chip.val ∧ t.on LNK_CFG_ROLE = manager ∧ t.sys.stage = 1 ∧ t.pinsOperate = false ∧
      (∀ k, t.byteAt k = (0, false)) ∧ t.rd SYS_SVN_FUSE = s.rd SYS_SVN_FUSE ∧ t.sys.key = s.sys.key ∧ t.sys.faults = s.sys.faults ∧
      (∀ off, off = 0 ∨ (0x2C ≤ off ∧ off < 0x3C) → t.word off = s.word off) ∧
      (∀ off, off ≠ 0 → off ≠ 0x1C → ¬ (0x2C ≤ off ∧ off < 0x3C) → off ≠ LNK_CFG_CHIP.off → t.word off = State.reset.word off) ∧
      t.pending = s.pending) ∧
  (∀ (s : State),
    (s.sys.stage = 1 → s.pwr.failAt = none → s.pwr.tries ≤ 3 → ∃ t : State, exec (.startup .ao) s = .next t ∧ t.sys.stage = 2 ∧
      t.rd SYS_BOOT_STATUS_STAGE = 1 ∧ t.pwr = { s.pwr with en := s.pwr.en ||| 2 } ∧ SameRegsBut [SYS_BOOT_STATUS_STAGE.off] s t) ∧
    (∀ k : Fin 3, s.sys.stage = 3 → ∃ t : State, exec (.startup (.flash (some k))) s = .next t ∧ t.sys.flash = true ∧
      t.sys.stage = (if s.on LNK_CFG_ROLE = true then 4 else if bit s.pwr.pg 2 = true ∧ bit s.pwr.pg 3 = true then 6 else 5)) ∧
    (s.sys.stage = 3 → s.on LNK_CFG_ROLE = true → ∃ t : State, exec (.startup (.flash none)) s = .next t ∧ t.sys.flash = false ∧
      t.on SAF_STATE_MINIMAL = true ∧ t.rd SYS_BOOT_STATUS_REASON = 1 ∧ t.pinsOperate = false) ∧
    (s.sys.stage = 6 → s.sys.header = none → s.sys.minimal = false → ∃ t : State, exec (.startup .plls) s = .next t ∧ t.sys.launched = true ∧
      t.sys.stage = 4 ∧ SameRegsBut [SYS_BOOT_STATUS_STAGE.off] s t) ∧
    (∀ r : SelfTest, s.sys.stage = 7 → s.sys.tested = false → ∃ t : State, exec (.startup (.selfTest r)) s = .next t ∧ t.sys.tested = true ∧
      t.on MEM_BIST_STATUS_DONE = true ∧
      t.on MEM_BIST_STATUS_FAIL = !(r.positions.isEmpty && r.slices.isEmpty && r.channels.isEmpty && r.other.isEmpty) ∧
      (∀ x ∈ r.slices, 256 + x.val ∈ t.memory.excluded) ∧ (∀ x ∈ r.channels, 512 + x.val ∈ t.memory.excluded)) ∧
    (s.sys.stage = 12 → s.toCome = [] → ∃ t : State, exec (.startup .done) s = .next t ∧ t.sys.stage = 13 ∧ t.rd SYS_BOOT_STATUS_STAGE = 11 ∧
      t.rd (SYS_BOOT_TIME_COUNT 6) = s.now ∧ SameBytes s t)) ∧
  (∀ (h : ImgHeader) (s : State), s.sys.stage = 4 → s.on LNK_CFG_ROLE = true → s.sys.flash = true →
    (s.headerBad h = none → ∃ t : State, exec (.headerCheck h) s = .next t ∧ t.sys.header = some h ∧ t.rd SYS_IMAGE_ID_ID = h.imageId.toNat ∧
      t.rd SYS_SVN_IMG = h.svn.toNat ∧ (t.sys.stage = 5 ∨ t.sys.stage = 6) ∧ t.out = s.out ++ [Ext.image none none s.sys.copy]) ∧
    (∀ id r : Nat, s.headerBad h = some (id, r) → r < 256 → s.sys.copy = 0 → ∃ t : State, exec (.headerCheck h) s = .next t ∧ t.sys.copy = 1 ∧
      t.on SYS_BOOT_STATUS_COPY = true ∧ t.sys.stage = 4 ∧ t.rd SYS_BOOT_FAIL_REASON0 = r) ∧
    (∀ id r : Nat, s.headerBad h = some (id, r) → r < 256 → s.sys.copy ≠ 0 → ∃ t : State, exec (.headerCheck h) s = .next t ∧
      t.on SAF_STATE_MINIMAL = true ∧ t.rd SYS_BOOT_STATUS_REASON = r ∧ t.rd SYS_BOOT_FAIL_REASON1 = r ∧
      ∀ p, p < 16 → t.rd (PART_STATUS_STATE p) = stUnused)) ∧
  (∀ (c : Fin 256) (s : State), s.sys.mcif ≠ 0 → s.sys.stage ≤ 11 → c.val < s.nCores →
    let once := mget (fun _ => false) s.sys.mcodeBad c
    (∃ t : State, exec (.mcodeCrcReport c true) s = .next t ∧ mget (fun _ => false) t.sys.mcodeBad c = false ∧ SameRegsBut [] s t) ∧
    (once = false → ∃ t : State, exec (.mcodeCrcReport c false) s = .next t ∧ mget (fun _ => false) t.sys.mcodeBad c = true ∧ SameRegsBut [] s t) ∧
    (∀ (x : Nat) (l : List Nat), once = true → s.coreAt (s.placeOf c) = some c.val → s.sparesOf (quadOf (s.placeOf c)) = x :: l →
      (x :: l).contains (s.placeOf c) = false →
      ∃ t : State, exec (.mcodeCrcReport c false) s = .next t ∧ t.placeOf c = x ∧ s.placeOf c ∈ t.saf.retired ∧
        t.sparesOf (quadOf (s.placeOf c)) = l)) ∧
  (∀ (s : State), s.sys.stage = 11 →
    (∃ t : State, exec .classSRelease s = .next t ∧ t.sys.stage = 12 ∧ t.sys.hold = [] ∧ t.rd SYS_BOOT_STATUS_STAGE = 10) ∧
    (∀ (p : Nat) (b : PlanBinary), s.sys.hold = [(p, b)] → s.loadCheck p b = none → ∃ t : State, exec .classSRelease s = .next t ∧
      t.rd (PART_STATUS_STATE p) = stRunning ∧ mget (fun _ => none) t.part.plan p = some b)) ∧
  (∀ (s : State), s.on LNK_CFG_ROLE = false → s.sys.stage = 4 → 2 ≤ s.rd LNK_STATE_STATE → s.sys.header = none →
    ∃ t : State, exec .workerRingTimeout s = .next t ∧ t.on SAF_STATE_MINIMAL = true ∧ t.rd SYS_BOOT_STATUS_REASON = 0xC ∧ t.pinsOperate = false) ∧
  (∀ (how : Option (Requester × BitVec 32)) (v : BitVec 32) (s : State), s.pwr.cellar < 2 → s.pinsSound = true →
    how = none ∨ (how = some (.image, v) ∧ bits v.toNat 31 16 = 0x5E5E ∧ bit v.toNat 0 = true) →
    ∃ t : State, exec (.computeReset how) s = .next t ∧ t.rd SYS_RST_STAT_LAST = (if how = none then 1 else 2) ∧
      t.rd SYS_RST_STAT_COUNT = min (s.rd SYS_RST_STAT_COUNT + 1) 0xFFFF ∧ t.on SAF_STATE_SAFE = true ∧ bit (t.rd SAF_CAUSE_CAUSE) 13 = true ∧
      t.pinsOperate = false ∧ t.memory.filling = true ∧ t.msgs = [] ∧
      ∀ p, p < 16 → s.on (PART_CFG_EN p) = true → t.on (PART_CFG_EN p) = true ∧ t.rd (PART_STATUS_STATE p) = stEmpty) ∧
  (∀ (v : BitVec 32) (s : State), bits v.toNat 31 16 ≠ 0x5E5E ∨ bit v.toNat 0 = false → exec (.computeReset (some (.image, v))) s = .next s) ∧
  (∀ (ch : Fin 16) (s : State), s.sys.launched = true → bit s.memory.lpTrained ch = false → 512 + ch.val ∉ s.memory.excluded →
    (∃ t : State, exec (.lpddrTrainingDone ch true) s = .next t ∧ bit (t.rd SYS_TRAIN_STAT_LP_OK) ch = true ∧ bit t.memory.lpTrained ch = true ∧
      SameRegsBut [SYS_TRAIN_STAT_LP_OK.off] s t) ∧
    (∃ t : State, exec (.lpddrTrainingDone ch false) s = .next t ∧ bit (t.rd SYS_TRAIN_STAT_LP_FAIL) ch = true ∧ 512 + ch.val ∈ t.memory.excluded ∧
      t.on SYS_BOOT_STATUS_EXCL = true)) ∧
  (∀ (p : Fin 16) (lock : Bool) (s : State), lock = false ∨ (s.sys.launched = true ∧ s.on (ING_PORT_CFG_EN p) = true) →
    ∃ t : State, exec (.csiPortLock p lock) s = .next t ∧ t.on (ING_PORT_STAT_LOCK p) = lock ∧ OnlyRegs [(ING_PORT_STAT_LOCK p).off] s t)

/-- R458, R520, R532 to R535, R545 to R551, R556 to R560: components take effect by their kind or fail by the first check; a worker takes, refuses
and forwards what the ring brings, and the manager answers its NAK; log entries reach flash and are read back; the lock is set once; fuses are
programmed after DONE. -/
def Obligations.ImageAndLog : Prop :=
  (∀ (h : ImgHeader) (i : Nat) (c : ImgComp) (digest : BitVec 384) (body : CompBody) (alt : Option (ImgHeader × BitVec 384 × CompBody)) (s : State),
    s.sys.header = some h → s.sys.comp = i → h.comps[i]? = some c → s.on LNK_CFG_ROLE = true → s.takesComp i = true →
    s.compReady c body = true → s.sys.hwBist = false →
    let u := s.emit (Ext.image none (some i) s.sys.copy)
    (c.forChip s.ownChip = false → ∃ t : State, exec (.componentRead digest body alt) s = .next t ∧ t.sys.comp = i + 1 ∧
      t.out = u.out ∧ SameBytes s t ∧ SameRegsBut [SYS_BOOT_STATUS_STAGE.off] s t) ∧
    (c.forChip s.ownChip = true → s.compBad h i c = none → digest = c.digest →
      (body = .mcode → i = 0 → s.sys.stage = 8 → ∃ t : State, exec (.componentRead digest body alt) s = .next t ∧ t.sys.stage = 9 ∧
        t.sys.mcif = c.mcifMaj.toNat * 256 + c.mcifMin.toNat ∧
        t.rd SYS_BOOT_STATUS_MCIF = c.mcifMaj.toNat * 16 + c.mcifMin.toNat % 16 ∧ t.sys.comp = 1 ∧ t.out = u.out) ∧
      (∀ (es : List (Nat × BitVec 32)) (a : State), body = .devcfg es → i = 1 → s.sys.stage = 9 → u.applyAll es = (true, a) →
        a.misplaced (h.comps.drop 2) = none → a.sys.hwBist = false → a.sys.stage = 9 →
        ∃ t : State, exec (.componentRead digest body alt) s = .next t ∧ t.on SYS_LOCK_LOCK = true ∧ t.sys.lockEver = true ∧ t.sys.comp = 2 ∧
          (t.sys.stage = 10 ∨ t.sys.stage = 11)) ∧
      (∀ b : PlanBinary, body = .plan b → 2 ≤ i → c.kind.toNat = 2 → s.sys.optBad.contains c.part.toNat = false →
        s.rd (PART_STATUS_STATE c.part.toNat) = stEmpty → s.loadCheck c.part.toNat b = none → c.part.toNat < 16 →
        ∃ t : State, exec (.componentRead digest body alt) s = .next t ∧ t.sys.comp = i + 1 ∧
          mget (fun _ => none) t.part.imagePlan c.part.toNat = some b ∧
          (s.sys.stage = 12 → t.rd (PART_STATUS_STATE c.part.toNat) = stRunning) ∧
          (s.sys.stage = 10 → t.rd (PART_STATUS_STATE c.part.toNat) = stLoading ∧ t.sys.hold = s.sys.hold ++ [(c.part.toNat, b)])) ∧
      (∀ bytes : List (BitVec 8), body = .data bytes → bytes ≠ [] → 2 ≤ i → s.sys.optBad.contains c.part.toNat = false → s.on MEM_INJ_CTL_ARM = false →
        (∃ sl, s.decode c.dest.toNat = .tun sl) → s.checkRun c.part.toNat true c.dest.toNat bytes.length = .ok →
        (s.runKeys c.dest.toNat bytes.length).Nodup →
        ∃ t : State, exec (.componentRead digest body alt) s = .next t ∧ t.sys.comp = i + 1 ∧
          SameBytesBut (s.runKeys c.dest.toNat bytes.length) s t ∧
          ∀ j k, (s.runKeys c.dest.toNat bytes.length)[j]? = some k → (t.byteAt k).1 = bytes.getD j 0)) ∧
    (c.forChip s.ownChip = true → s.compBad h i c = none → digest ≠ c.digest →
      (s.essential c = true ∨ i < 2 → s.sys.copy = 0 → ∃ t : State, exec (.componentRead digest body alt) s = .next t ∧ t.sys.copy = 1 ∧
        t.sys.stage = 4 ∧ t.rd SYS_BOOT_FAIL_REASON0 = 6 ∧ t.memory.filling = true) ∧
      (s.essential c = true ∨ i < 2 → s.sys.copy ≠ 0 → ∃ t : State, exec (.componentRead digest body alt) s = .next t ∧
        t.on SAF_STATE_MINIMAL = true ∧ t.rd SYS_BOOT_STATUS_REASON = 6) ∧
      (s.essential c = false → 2 ≤ i → s.sys.optBad.contains c.part.toNat = false → alt = none →
        ∃ t : State, exec (.componentRead digest body alt) s = .next t ∧ t.rd (PART_STATUS_LOADREF c.part.toNat) = refDigest ∧
          t.on PART_EVENT_LOADREF = true ∧ t.on SYS_BOOT_STATUS_OPT_FAIL = true ∧ t.sys.comp = i + 1))) ∧
  (∀ (f : ImageFrame) (s : State), s.on LNK_CFG_ROLE = false → s.rd LNK_STATE_STATE = 3 →
    (∀ (h : ImgHeader) (a : State), f = .header h → s.sys.stage = 4 → s.headerBad h = none →
      (((((s.emit (Ext.imageFrame f)).takeHeader h).wr SAF_STATE_MINIMAL 0).wr SYS_BOOT_STATUS_REASON 0).wr SYS_BOOT_STATUS_XSPI_REL 0).applyAll
        h.early = (true, a) →
      ∃ t : State, exec (.imageFrame f) s = .next t ∧ t.sys.header = a.sys.header ∧ t.sys.minimal = false ∧
        t.sys.stage = (if a.sys.tested = true ∧ a.memory.filling = false then 8 else 7)) ∧
    (∀ (h : ImgHeader) (id r : Nat), f = .header h → s.sys.stage = 4 → s.headerBad h = some (id, r) → r < 256 →
      ∃ t : State, exec (.imageFrame f) s = .next t ∧ t.out = s.out ++ [Ext.imageFrame f, Ext.imageNak none] ∧ t.sys = s.sys ∧
        (s.rd SYS_BOOT_FAIL_REASON0 = 0 → t.rd SYS_BOOT_FAIL_REASON0 = r) ∧ SameRegsBut [SYS_BOOT_FAIL_ID.off] s t) ∧
    (∀ (i : Nat) (digest : BitVec 384) (body : CompBody) (h : ImgHeader) (c : ImgComp), f = .comp i digest body → s.sys.header = some h →
      h.comps[i]? = some c → c.forChip s.ownChip = false →
      exec (.imageFrame f) s = .next { s with out := s.out ++ [Ext.imageFrame f] }) ∧
    (f = .none → s.sys.stage = 4 → ∃ t : State, exec (.imageFrame f) s = .next t ∧ t.on SAF_STATE_MINIMAL = true ∧
      t.rd SYS_BOOT_STATUS_REASON = s.lastFail)) ∧
  (∀ (chip : Fin 8) (comp : Option (Fin 254)) (s : State), s.on LNK_CFG_ROLE = true →
    let n := mget (fun _ => 0) s.sys.naks (chip.val * 2 ^ 16 + (comp.map fun i => i.val + 1).getD 0)
    ∃ t : State, exec (.imageNak chip comp) s = .next t ∧ SameRegsBut [] s t ∧
      t.out = s.out ++ [if n < 3 then Ext.image (some chip.val) (comp.map (·.val)) s.sys.copy
        else if n = 3 ∧ s.sys.copy = 0 then Ext.image (some chip.val) (comp.map (·.val)) 1 else Ext.imageEnd chip.val]) ∧
  (∀ (e : LogEnt) (rest : List LogEnt) (s : State), s.sys.logQ = e :: rest → s.bufferSound = true →
    (s.on PWR_SAG_HOLD = true → exec (.logEntryWrite none) s = .next s) ∧
    (s.on PWR_SAG_HOLD = false → s.flashUp = true → e.type < 0x80 → ∃ t : State, exec (.logEntryWrite none) s = .next t ∧ t.sys.logQ = rest ∧
      t.rd PWR_SAG_PEND = rest.length ∧ t.sys.eventCount = s.sys.eventCount + 1 ∧
      (∃ boot, t.sys.events.head? = some (FlashEnt.mk (s.sys.eventCount % 2 ^ 32) boot e)) ∧ t.sys.faults = s.sys.faults) ∧
    (s.on PWR_SAG_HOLD = false → s.flashUp = true → 0x80 ≤ e.type → ∃ t : State, exec (.logEntryWrite none) s = .next t ∧ t.sys.logQ = rest ∧
      t.rd PWR_SAG_PEND = rest.length ∧ t.sys.faults.head? = some (FlashEnt.mk (s.sys.faultCount % 2 ^ 32) s.sys.bootSeq e) ∧
      t.rd SYS_LOG_SEQ_SEQ = s.sys.faultCount % 2 ^ 32 ∧ t.sys.events = s.sys.events) ∧
    (s.on PWR_SAG_HOLD = false → s.flashUp = false → s.on SYS_BOOT_STATUS_NOFLASH = true → s.rd LNK_STATE_STATE = 3 →
      ∃ t : State, exec (.logEntryWrite none) s = .next t ∧ t.sys.logQ = rest ∧ t.out = s.out ++ [Ext.logEntry e])) ∧
  (∀ (e : LogEnt) (s : State), s.ringManager = true →
    (s.sys.logQ.length < 32 → ∃ t : State, exec (.logEntryWrite (some e)) s = .next t ∧ t.sys.logQ = s.sys.logQ ++ [e] ∧
      t.rd PWR_SAG_PEND = s.sys.logQ.length + 1) ∧
    (32 ≤ s.sys.logQ.length → ∃ t : State, exec (.logEntryWrite (some e)) s = .next t ∧ t.sys = s.sys ∧
      t.rd PWR_SAG_LOST = min (s.rd PWR_SAG_LOST + 1) 0xFFFF)) ∧
  (∀ (v : BitVec 32) (s : State), bit v.toNat 31 = true →
    let l := if bit v.toNat 30 = true then s.sys.faults else s.sys.events
    let at' := if s.flashUp = true then l[bits v.toNat 23 0]? else none
    ∃ t : State, exec (.sysLogCtlGo .image v) s = .next t ∧ t.on SYS_LOG_CTL_GO = false ∧ t.on SYS_LOG_CTL_DONE = true ∧
      t.on SYS_LOG_CTL_VALID = at'.isSome ∧ (∀ e, at' = some e → t.rd (SYS_LOG_DATA_DATA 0) = e.seq % 2 ^ 32) ∧
      OnlyRegs (SYS_LOG_CTL_GO.off :: (List.range 16).map (0xC0 + 4 * ·)) s t) ∧
  (∀ (v : BitVec 32) (s : State),
    (s.locked SYS_LOCK_LOCK.off = false → bit v.toNat 31 = true → ∃ t : State, exec (.sysLockWrite .image v) s = .next t ∧
      t.on SYS_LOCK_LOCK = true ∧ t.sys = { s.sys with lockEver := true } ∧ SameRegsBut [SYS_LOCK_LOCK.off] s t) ∧
    (s.on SYS_LOCK_LOCK = true → bit v.toNat 31 = false → ∃ t : State, exec (.sysLockWrite .image v) s = .next t ∧ t.on SYS_LOCK_LOCK = true ∧
      t.rd SYS_LOCK_VIOL_COUNT = min (s.rd SYS_LOCK_VIOL_COUNT + 1) 0xFFFFFFFF ∧ t.rd SYS_LOCK_LASTVIOL = SYS_LOCK_LOCK.off)) ∧
  (∀ (h : ImgHeader) (s : State), s.sys.header = some h → s.sys.stage = 13 → s.on PWR_SAG_HOLD = false → h.svn.toNat < 64 →
    ∃ t : State, exec .fuseProgramming s = .next t ∧
      t.rd SYS_SVN_FUSE = (if bit h.flags.toNat 1 = true then max (s.rd SYS_SVN_FUSE) h.svn.toNat else s.rd SYS_SVN_FUSE) ∧
      t.sys.key = (if bit h.flags.toNat 0 = true ∧ s.sys.key = none then some h.keyDigest else s.sys.key) ∧ SameBytes s t)

/-! ### The whole machine -/

/-- R17, R319, R320, R411, R520, R536: after reset nothing waits, memory reads zero, every register word is at its reset value, the pins are safe and
start-up is at its first step; the AO buffer is empty and the contents are in canonical form. -/
def Obligations.AfterReset : Prop :=
  State.reset.canonical = true ∧ State.reset.bufferSound = true ∧ State.reset.pinsSound = true ∧ State.reset.pinsOperate = false ∧
  State.reset.pending = [] ∧ State.reset.msgs = [] ∧ State.reset.sys.stage = 1 ∧ State.reset.tim.ao = true ∧ State.reset.now = 0 ∧
  (∀ k, State.reset.byteAt k = (0, false)) ∧ (∀ off, State.reset.word off = (regReset off).toNat) ∧ ∀ p, p < 16 → State.reset.rd (PART_STATUS_STATE p) = stUnused

/-- R520 and the canonical form, derived: no command stops the block, and every step from any state in which registers, memory and check bits are
in canonical form and at most 32 entries wait in the AO buffer answers a next state in which the same holds. -/
def Obligations.StepKeepsForm : Prop :=
  ∀ s : State, s.canonical = true → s.bufferSound = true → ∃ t : State, step s = .next t ∧ t.canonical = true ∧ t.bufferSound = true
end

