-- ==== Sys2Proof/Laws/Maps.lean ====
section
/-! SUPPORT. The laws of sparse maps: a read after a write, and that every operation keeps the canonical form. -/

namespace Sys2Proof.Machine

theorem mget_mput {α : Type} (d : Nat → α) (m : SMap α) (k : Nat) (v : α) (j : Nat) :
    mget d (mput m k v) j = if j = k then v else mget d m j := by
  induction m with
  | nil => simp [mput, mget, eq_comm]
  | cons p t ih =>
    obtain ⟨a, w⟩ := p
    simp only [mput]
    by_cases h1 : k < a
    · simp only [h1, if_true, mget]
      by_cases hj : k = j
      · simp [hj]
      · have : ¬ j = k := fun h => hj h.symm
        simp only [if_neg hj, if_neg this]
    · simp only [h1, if_false]
      by_cases h2 : k = a
      · subst h2; simp only [if_true, mget]; by_cases hj : j = k
        · simp [hj]
        · have : ¬ k = j := fun h => hj h.symm
          simp [this, hj]
      · simp only [h2, if_false, mget, ih]
        by_cases hj : j = k
        · subst hj; have : ¬ a = j := fun h => h2 h.symm
          simp [this]
        · simp [hj]

theorem mabove_iff {α : Type} (lo : Nat) (m : SMap α) :
    mabove lo m = true ↔ ∀ p ∈ m, lo < p.1 := by simp [mabove]

theorem mget_of_mabove {α : Type} (d : Nat → α) (m : SMap α) (k : Nat) (h : mabove k m = true) :
    mget d m k = d k := by
  induction m with
  | nil => rfl
  | cons p t ih =>
    obtain ⟨a, w⟩ := p
    have h' := (mabove_iff k _).1 h
    have ha : k < a := h' (a, w) (List.mem_cons_self ..)
    have ht : mabove k t = true := (mabove_iff k t).2 fun p hp => h' p (List.mem_cons_of_mem _ hp)
    simp only [mget, if_neg (by omega : ¬ a = k), ih ht]

theorem mwf_cons {α : Type} [DecidableEq α] (d : Nat → α) (a : Nat) (v : α) (t : SMap α) :
    mwf d ((a, v) :: t) = true ↔ v ≠ d a ∧ mabove a t = true ∧ mwf d t = true := by
  simp [mwf, and_assoc]

theorem mget_filter {α : Type} (d : Nat → α) (m : SMap α) (p : Nat → Bool) (j : Nat) :
    mget d (m.filter fun q => p q.1) j = if p j then mget d m j else d j := by
  induction m with
  | nil => simp [mget]
  | cons q t ih =>
    obtain ⟨a, w⟩ := q
    simp only [List.filter_cons]
    by_cases hp : p a = true
    · simp only [hp, if_true, mget, ih]
      by_cases hj : a = j
      · subst hj; simp [hp]
      · simp [hj]
    · simp only [hp, mget, Bool.false_eq_true, if_false, ih]
      by_cases hj : a = j
      · subst hj; simp [hp]
      · simp [hj]

theorem mget_mdel {α : Type} (d : Nat → α) (m : SMap α) (k : Nat) (j : Nat) :
    mget d (mdel m k) j = if j = k then d k else mget d m j := by
  unfold mdel
  rw [mget_filter d m (fun a => a != k) j]
  by_cases hj : j = k <;> simp [hj]

/-- A read after a write. -/
@[simp] theorem mget_mset {α : Type} [DecidableEq α] (d : Nat → α) (m : SMap α) (k : Nat) (v : α) (j : Nat) :
    mget d (mset d m k v) j = if j = k then v else mget d m j := by
  unfold mset
  by_cases hv : v = d k
  · rw [if_pos hv, mget_mdel, hv]
  · rw [if_neg hv, mget_mput]

/-- A dropped key reads as its default. -/
@[simp] theorem mget_mdrop {α : Type} (d : Nat → α) (m : SMap α) (p : Nat → Bool) (j : Nat) :
    mget d (mdrop m p) j = if p j then d j else mget d m j := by
  unfold mdrop
  rw [mget_filter d m (fun a => !p a) j]
  by_cases hj : p j = true <;> simp [hj]

theorem mabove_mput {α : Type} (lo : Nat) (m : SMap α) (k : Nat) (v : α) (h : mabove lo m = true) (hk : lo < k) :
    mabove lo (mput m k v) = true := by
  induction m with
  | nil => simp [mput, mabove, hk]
  | cons p t ih =>
    obtain ⟨a, w⟩ := p
    have hall := (mabove_iff lo _).1 h
    have ht : mabove lo t = true := (mabove_iff lo t).2 fun p hp => hall p (List.mem_cons_of_mem _ hp)
    have ha : lo < a := hall (a, w) (List.mem_cons_self ..)
    simp only [mput]
    split
    · simp only [mabove, List.all_cons, Bool.and_eq_true, decide_eq_true_eq]; exact ⟨hk, ha, ht⟩
    · split
      · simp only [mabove, List.all_cons, Bool.and_eq_true, decide_eq_true_eq]; exact ⟨hk, ht⟩
      · simp only [mabove, List.all_cons, Bool.and_eq_true, decide_eq_true_eq]; exact ⟨ha, ih ht⟩

theorem mabove_trans {α : Type} (lo hi : Nat) (m : SMap α) (h : mabove hi m = true) (hl : lo < hi) :
    mabove lo m = true :=
  (mabove_iff lo m).2 fun p hp => Nat.lt_trans hl ((mabove_iff hi m).1 h p hp)

theorem mwf_mput {α : Type} [DecidableEq α] (d : Nat → α) (m : SMap α) (k : Nat) (v : α)
    (h : mwf d m = true) (hv : v ≠ d k) : mwf d (mput m k v) = true := by
  induction m with
  | nil => simp [mput, mwf, mabove, hv]
  | cons p t ih =>
    obtain ⟨a, w⟩ := p
    obtain ⟨hw, ha, ht⟩ := (mwf_cons d a w t).1 h
    simp only [mput]
    split
    · rename_i hka
      refine (mwf_cons ..).2 ⟨hv, ?_, h⟩
      simp only [mabove, List.all_cons, Bool.and_eq_true, decide_eq_true_eq]
      exact ⟨hka, mabove_trans k a t ha hka⟩
    · split
      · rename_i _ hka; subst hka; exact (mwf_cons ..).2 ⟨hv, ha, ht⟩
      · rename_i h1 h2
        exact (mwf_cons ..).2 ⟨hw, mabove_mput a t k v ha (by omega), ih ht⟩

theorem mabove_filter {α : Type} (lo : Nat) (m : SMap α) (p : Nat × α → Bool) (h : mabove lo m = true) :
    mabove lo (m.filter p) = true :=
  (mabove_iff lo _).2 fun q hq => (mabove_iff lo m).1 h q (List.mem_filter.1 hq).1

theorem mwf_filter {α : Type} [DecidableEq α] (d : Nat → α) (m : SMap α) (p : Nat × α → Bool)
    (h : mwf d m = true) : mwf d (m.filter p) = true := by
  induction m with
  | nil => simp [mwf]
  | cons q t ih =>
    obtain ⟨a, w⟩ := q
    obtain ⟨hw, ha, ht⟩ := (mwf_cons d a w t).1 h
    simp only [List.filter_cons]
    split
    · exact (mwf_cons ..).2 ⟨hw, mabove_filter a t p ha, ih ht⟩
    · exact ih ht

theorem mwf_mdel {α : Type} [DecidableEq α] (d : Nat → α) (m : SMap α) (k : Nat)
    (h : mwf d m = true) : mwf d (mdel m k) = true := mwf_filter d m _ h

/-- Every write keeps the canonical form. -/
theorem mwf_mset {α : Type} [DecidableEq α] (d : Nat → α) (m : SMap α) (k : Nat) (v : α)
    (h : mwf d m = true) : mwf d (mset d m k v) = true := by
  unfold mset
  split
  · exact mwf_mdel d m k h
  · rename_i hv; exact mwf_mput d m k v h hv

/-- Dropping keys keeps the canonical form. -/
theorem mwf_mdrop {α : Type} [DecidableEq α] (d : Nat → α) (m : SMap α) (p : Nat → Bool)
    (h : mwf d m = true) : mwf d (mdrop m p) = true := mwf_filter d m _ h

end Sys2Proof.Machine
end

