-- ==== Sys2Proof/Laws/State.lean ====
section
/-! SUPPORT. What each update of the state does to each of its fields. -/

namespace Sys2Proof.Machine

@[simp] theorem State.mCore_pending (s : State) (f : CoreSt → CoreSt) : (s.mCore f).pending = s.pending := (rfl)
@[simp] theorem State.mCore_regs (s : State) (f : CoreSt → CoreSt) : (s.mCore f).regs = s.regs := (rfl)
@[simp] theorem State.mCore_hold (s : State) (f : CoreSt → CoreSt) : (s.mCore f).hold = s.hold := (rfl)
@[simp] theorem State.mCore_readback (s : State) (f : CoreSt → CoreSt) : (s.mCore f).readback = s.readback := (rfl)
@[simp] theorem State.mCore_mem (s : State) (f : CoreSt → CoreSt) : (s.mCore f).mem = s.mem := (rfl)
@[simp] theorem State.mCore_msgs (s : State) (f : CoreSt → CoreSt) : (s.mCore f).msgs = s.msgs := (rfl)
@[simp] theorem State.mCore_out (s : State) (f : CoreSt → CoreSt) : (s.mCore f).out = s.out := (rfl)
@[simp] theorem State.mCore_core (s : State) (f : CoreSt → CoreSt) : (s.mCore f).core = f s.core := (rfl)
@[simp] theorem State.mCore_memory (s : State) (f : CoreSt → CoreSt) : (s.mCore f).memory = s.memory := (rfl)
@[simp] theorem State.mCore_part (s : State) (f : CoreSt → CoreSt) : (s.mCore f).part = s.part := (rfl)
@[simp] theorem State.mCore_tim (s : State) (f : CoreSt → CoreSt) : (s.mCore f).tim = s.tim := (rfl)
@[simp] theorem State.mCore_evt (s : State) (f : CoreSt → CoreSt) : (s.mCore f).evt = s.evt := (rfl)
@[simp] theorem State.mCore_saf (s : State) (f : CoreSt → CoreSt) : (s.mCore f).saf = s.saf := (rfl)
@[simp] theorem State.mCore_sys (s : State) (f : CoreSt → CoreSt) : (s.mCore f).sys = s.sys := (rfl)
@[simp] theorem State.mCore_pwr (s : State) (f : CoreSt → CoreSt) : (s.mCore f).pwr = s.pwr := (rfl)
@[simp] theorem State.mCore_queues (s : State) (f : CoreSt → CoreSt) : (s.mCore f).queues = s.queues := (rfl)
@[simp] theorem State.mCore_vis (s : State) (f : CoreSt → CoreSt) : (s.mCore f).vis = s.vis := (rfl)
@[simp] theorem State.mCore_sol (s : State) (f : CoreSt → CoreSt) : (s.mCore f).sol = s.sol := (rfl)
@[simp] theorem State.mCore_ctl (s : State) (f : CoreSt → CoreSt) : (s.mCore f).ctl = s.ctl := (rfl)
@[simp] theorem State.mCore_vms (s : State) (f : CoreSt → CoreSt) : (s.mCore f).vms = s.vms := (rfl)
@[simp] theorem State.mCore_lnk (s : State) (f : CoreSt → CoreSt) : (s.mCore f).lnk = s.lnk := (rfl)
@[simp] theorem State.mCore_qp (s : State) (f : CoreSt → CoreSt) : (s.mCore f).qp = s.qp := (rfl)
@[simp] theorem State.mCore_rings (s : State) (f : CoreSt → CoreSt) : (s.mCore f).rings = s.rings := (rfl)
@[simp] theorem State.mCore_can (s : State) (f : CoreSt → CoreSt) : (s.mCore f).can = s.can := (rfl)
@[simp] theorem State.mCore_net (s : State) (f : CoreSt → CoreSt) : (s.mCore f).net = s.net := (rfl)
@[simp] theorem State.mCore_ser (s : State) (f : CoreSt → CoreSt) : (s.mCore f).ser = s.ser := (rfl)
@[simp] theorem State.mCore_ckp (s : State) (f : CoreSt → CoreSt) : (s.mCore f).ckp = s.ckp := (rfl)
@[simp] theorem State.mCore_free (s : State) (f : CoreSt → CoreSt) : (s.mCore f).free = s.free := (rfl)

@[simp] theorem State.mMem_pending (s : State) (f : MemSt → MemSt) : (s.mMem f).pending = s.pending := (rfl)
@[simp] theorem State.mMem_regs (s : State) (f : MemSt → MemSt) : (s.mMem f).regs = s.regs := (rfl)
@[simp] theorem State.mMem_hold (s : State) (f : MemSt → MemSt) : (s.mMem f).hold = s.hold := (rfl)
@[simp] theorem State.mMem_readback (s : State) (f : MemSt → MemSt) : (s.mMem f).readback = s.readback := (rfl)
@[simp] theorem State.mMem_mem (s : State) (f : MemSt → MemSt) : (s.mMem f).mem = s.mem := (rfl)
@[simp] theorem State.mMem_msgs (s : State) (f : MemSt → MemSt) : (s.mMem f).msgs = s.msgs := (rfl)
@[simp] theorem State.mMem_out (s : State) (f : MemSt → MemSt) : (s.mMem f).out = s.out := (rfl)
@[simp] theorem State.mMem_core (s : State) (f : MemSt → MemSt) : (s.mMem f).core = s.core := (rfl)
@[simp] theorem State.mMem_memory (s : State) (f : MemSt → MemSt) : (s.mMem f).memory = f s.memory := (rfl)
@[simp] theorem State.mMem_part (s : State) (f : MemSt → MemSt) : (s.mMem f).part = s.part := (rfl)
@[simp] theorem State.mMem_tim (s : State) (f : MemSt → MemSt) : (s.mMem f).tim = s.tim := (rfl)
@[simp] theorem State.mMem_evt (s : State) (f : MemSt → MemSt) : (s.mMem f).evt = s.evt := (rfl)
@[simp] theorem State.mMem_saf (s : State) (f : MemSt → MemSt) : (s.mMem f).saf = s.saf := (rfl)
@[simp] theorem State.mMem_sys (s : State) (f : MemSt → MemSt) : (s.mMem f).sys = s.sys := (rfl)
@[simp] theorem State.mMem_pwr (s : State) (f : MemSt → MemSt) : (s.mMem f).pwr = s.pwr := (rfl)
@[simp] theorem State.mMem_queues (s : State) (f : MemSt → MemSt) : (s.mMem f).queues = s.queues := (rfl)
@[simp] theorem State.mMem_vis (s : State) (f : MemSt → MemSt) : (s.mMem f).vis = s.vis := (rfl)
@[simp] theorem State.mMem_sol (s : State) (f : MemSt → MemSt) : (s.mMem f).sol = s.sol := (rfl)
@[simp] theorem State.mMem_ctl (s : State) (f : MemSt → MemSt) : (s.mMem f).ctl = s.ctl := (rfl)
@[simp] theorem State.mMem_vms (s : State) (f : MemSt → MemSt) : (s.mMem f).vms = s.vms := (rfl)
@[simp] theorem State.mMem_lnk (s : State) (f : MemSt → MemSt) : (s.mMem f).lnk = s.lnk := (rfl)
@[simp] theorem State.mMem_qp (s : State) (f : MemSt → MemSt) : (s.mMem f).qp = s.qp := (rfl)
@[simp] theorem State.mMem_rings (s : State) (f : MemSt → MemSt) : (s.mMem f).rings = s.rings := (rfl)
@[simp] theorem State.mMem_can (s : State) (f : MemSt → MemSt) : (s.mMem f).can = s.can := (rfl)
@[simp] theorem State.mMem_net (s : State) (f : MemSt → MemSt) : (s.mMem f).net = s.net := (rfl)
@[simp] theorem State.mMem_ser (s : State) (f : MemSt → MemSt) : (s.mMem f).ser = s.ser := (rfl)
@[simp] theorem State.mMem_ckp (s : State) (f : MemSt → MemSt) : (s.mMem f).ckp = s.ckp := (rfl)
@[simp] theorem State.mMem_free (s : State) (f : MemSt → MemSt) : (s.mMem f).free = s.free := (rfl)

@[simp] theorem State.mPart_pending (s : State) (f : PartSt → PartSt) : (s.mPart f).pending = s.pending := (rfl)
@[simp] theorem State.mPart_regs (s : State) (f : PartSt → PartSt) : (s.mPart f).regs = s.regs := (rfl)
@[simp] theorem State.mPart_hold (s : State) (f : PartSt → PartSt) : (s.mPart f).hold = s.hold := (rfl)
@[simp] theorem State.mPart_readback (s : State) (f : PartSt → PartSt) : (s.mPart f).readback = s.readback := (rfl)
@[simp] theorem State.mPart_mem (s : State) (f : PartSt → PartSt) : (s.mPart f).mem = s.mem := (rfl)
@[simp] theorem State.mPart_msgs (s : State) (f : PartSt → PartSt) : (s.mPart f).msgs = s.msgs := (rfl)
@[simp] theorem State.mPart_out (s : State) (f : PartSt → PartSt) : (s.mPart f).out = s.out := (rfl)
@[simp] theorem State.mPart_core (s : State) (f : PartSt → PartSt) : (s.mPart f).core = s.core := (rfl)
@[simp] theorem State.mPart_memory (s : State) (f : PartSt → PartSt) : (s.mPart f).memory = s.memory := (rfl)
@[simp] theorem State.mPart_part (s : State) (f : PartSt → PartSt) : (s.mPart f).part = f s.part := (rfl)
@[simp] theorem State.mPart_tim (s : State) (f : PartSt → PartSt) : (s.mPart f).tim = s.tim := (rfl)
@[simp] theorem State.mPart_evt (s : State) (f : PartSt → PartSt) : (s.mPart f).evt = s.evt := (rfl)
@[simp] theorem State.mPart_saf (s : State) (f : PartSt → PartSt) : (s.mPart f).saf = s.saf := (rfl)
@[simp] theorem State.mPart_sys (s : State) (f : PartSt → PartSt) : (s.mPart f).sys = s.sys := (rfl)
@[simp] theorem State.mPart_pwr (s : State) (f : PartSt → PartSt) : (s.mPart f).pwr = s.pwr := (rfl)
@[simp] theorem State.mPart_queues (s : State) (f : PartSt → PartSt) : (s.mPart f).queues = s.queues := (rfl)
@[simp] theorem State.mPart_vis (s : State) (f : PartSt → PartSt) : (s.mPart f).vis = s.vis := (rfl)
@[simp] theorem State.mPart_sol (s : State) (f : PartSt → PartSt) : (s.mPart f).sol = s.sol := (rfl)
@[simp] theorem State.mPart_ctl (s : State) (f : PartSt → PartSt) : (s.mPart f).ctl = s.ctl := (rfl)
@[simp] theorem State.mPart_vms (s : State) (f : PartSt → PartSt) : (s.mPart f).vms = s.vms := (rfl)
@[simp] theorem State.mPart_lnk (s : State) (f : PartSt → PartSt) : (s.mPart f).lnk = s.lnk := (rfl)
@[simp] theorem State.mPart_qp (s : State) (f : PartSt → PartSt) : (s.mPart f).qp = s.qp := (rfl)
@[simp] theorem State.mPart_rings (s : State) (f : PartSt → PartSt) : (s.mPart f).rings = s.rings := (rfl)
@[simp] theorem State.mPart_can (s : State) (f : PartSt → PartSt) : (s.mPart f).can = s.can := (rfl)
@[simp] theorem State.mPart_net (s : State) (f : PartSt → PartSt) : (s.mPart f).net = s.net := (rfl)
@[simp] theorem State.mPart_ser (s : State) (f : PartSt → PartSt) : (s.mPart f).ser = s.ser := (rfl)
@[simp] theorem State.mPart_ckp (s : State) (f : PartSt → PartSt) : (s.mPart f).ckp = s.ckp := (rfl)
@[simp] theorem State.mPart_free (s : State) (f : PartSt → PartSt) : (s.mPart f).free = s.free := (rfl)

@[simp] theorem State.mTim_pending (s : State) (f : TimSt → TimSt) : (s.mTim f).pending = s.pending := (rfl)
@[simp] theorem State.mTim_regs (s : State) (f : TimSt → TimSt) : (s.mTim f).regs = s.regs := (rfl)
@[simp] theorem State.mTim_hold (s : State) (f : TimSt → TimSt) : (s.mTim f).hold = s.hold := (rfl)
@[simp] theorem State.mTim_readback (s : State) (f : TimSt → TimSt) : (s.mTim f).readback = s.readback := (rfl)
@[simp] theorem State.mTim_mem (s : State) (f : TimSt → TimSt) : (s.mTim f).mem = s.mem := (rfl)
@[simp] theorem State.mTim_msgs (s : State) (f : TimSt → TimSt) : (s.mTim f).msgs = s.msgs := (rfl)
@[simp] theorem State.mTim_out (s : State) (f : TimSt → TimSt) : (s.mTim f).out = s.out := (rfl)
@[simp] theorem State.mTim_core (s : State) (f : TimSt → TimSt) : (s.mTim f).core = s.core := (rfl)
@[simp] theorem State.mTim_memory (s : State) (f : TimSt → TimSt) : (s.mTim f).memory = s.memory := (rfl)
@[simp] theorem State.mTim_part (s : State) (f : TimSt → TimSt) : (s.mTim f).part = s.part := (rfl)
@[simp] theorem State.mTim_tim (s : State) (f : TimSt → TimSt) : (s.mTim f).tim = f s.tim := (rfl)
@[simp] theorem State.mTim_evt (s : State) (f : TimSt → TimSt) : (s.mTim f).evt = s.evt := (rfl)
@[simp] theorem State.mTim_saf (s : State) (f : TimSt → TimSt) : (s.mTim f).saf = s.saf := (rfl)
@[simp] theorem State.mTim_sys (s : State) (f : TimSt → TimSt) : (s.mTim f).sys = s.sys := (rfl)
@[simp] theorem State.mTim_pwr (s : State) (f : TimSt → TimSt) : (s.mTim f).pwr = s.pwr := (rfl)
@[simp] theorem State.mTim_queues (s : State) (f : TimSt → TimSt) : (s.mTim f).queues = s.queues := (rfl)
@[simp] theorem State.mTim_vis (s : State) (f : TimSt → TimSt) : (s.mTim f).vis = s.vis := (rfl)
@[simp] theorem State.mTim_sol (s : State) (f : TimSt → TimSt) : (s.mTim f).sol = s.sol := (rfl)
@[simp] theorem State.mTim_ctl (s : State) (f : TimSt → TimSt) : (s.mTim f).ctl = s.ctl := (rfl)
@[simp] theorem State.mTim_vms (s : State) (f : TimSt → TimSt) : (s.mTim f).vms = s.vms := (rfl)
@[simp] theorem State.mTim_lnk (s : State) (f : TimSt → TimSt) : (s.mTim f).lnk = s.lnk := (rfl)
@[simp] theorem State.mTim_qp (s : State) (f : TimSt → TimSt) : (s.mTim f).qp = s.qp := (rfl)
@[simp] theorem State.mTim_rings (s : State) (f : TimSt → TimSt) : (s.mTim f).rings = s.rings := (rfl)
@[simp] theorem State.mTim_can (s : State) (f : TimSt → TimSt) : (s.mTim f).can = s.can := (rfl)
@[simp] theorem State.mTim_net (s : State) (f : TimSt → TimSt) : (s.mTim f).net = s.net := (rfl)
@[simp] theorem State.mTim_ser (s : State) (f : TimSt → TimSt) : (s.mTim f).ser = s.ser := (rfl)
@[simp] theorem State.mTim_ckp (s : State) (f : TimSt → TimSt) : (s.mTim f).ckp = s.ckp := (rfl)
@[simp] theorem State.mTim_free (s : State) (f : TimSt → TimSt) : (s.mTim f).free = s.free := (rfl)

@[simp] theorem State.mEvt_pending (s : State) (f : EvtSt → EvtSt) : (s.mEvt f).pending = s.pending := (rfl)
@[simp] theorem State.mEvt_regs (s : State) (f : EvtSt → EvtSt) : (s.mEvt f).regs = s.regs := (rfl)
@[simp] theorem State.mEvt_hold (s : State) (f : EvtSt → EvtSt) : (s.mEvt f).hold = s.hold := (rfl)
@[simp] theorem State.mEvt_readback (s : State) (f : EvtSt → EvtSt) : (s.mEvt f).readback = s.readback := (rfl)
@[simp] theorem State.mEvt_mem (s : State) (f : EvtSt → EvtSt) : (s.mEvt f).mem = s.mem := (rfl)
@[simp] theorem State.mEvt_msgs (s : State) (f : EvtSt → EvtSt) : (s.mEvt f).msgs = s.msgs := (rfl)
@[simp] theorem State.mEvt_out (s : State) (f : EvtSt → EvtSt) : (s.mEvt f).out = s.out := (rfl)
@[simp] theorem State.mEvt_core (s : State) (f : EvtSt → EvtSt) : (s.mEvt f).core = s.core := (rfl)
@[simp] theorem State.mEvt_memory (s : State) (f : EvtSt → EvtSt) : (s.mEvt f).memory = s.memory := (rfl)
@[simp] theorem State.mEvt_part (s : State) (f : EvtSt → EvtSt) : (s.mEvt f).part = s.part := (rfl)
@[simp] theorem State.mEvt_tim (s : State) (f : EvtSt → EvtSt) : (s.mEvt f).tim = s.tim := (rfl)
@[simp] theorem State.mEvt_evt (s : State) (f : EvtSt → EvtSt) : (s.mEvt f).evt = f s.evt := (rfl)
@[simp] theorem State.mEvt_saf (s : State) (f : EvtSt → EvtSt) : (s.mEvt f).saf = s.saf := (rfl)
@[simp] theorem State.mEvt_sys (s : State) (f : EvtSt → EvtSt) : (s.mEvt f).sys = s.sys := (rfl)
@[simp] theorem State.mEvt_pwr (s : State) (f : EvtSt → EvtSt) : (s.mEvt f).pwr = s.pwr := (rfl)
@[simp] theorem State.mEvt_queues (s : State) (f : EvtSt → EvtSt) : (s.mEvt f).queues = s.queues := (rfl)
@[simp] theorem State.mEvt_vis (s : State) (f : EvtSt → EvtSt) : (s.mEvt f).vis = s.vis := (rfl)
@[simp] theorem State.mEvt_sol (s : State) (f : EvtSt → EvtSt) : (s.mEvt f).sol = s.sol := (rfl)
@[simp] theorem State.mEvt_ctl (s : State) (f : EvtSt → EvtSt) : (s.mEvt f).ctl = s.ctl := (rfl)
@[simp] theorem State.mEvt_vms (s : State) (f : EvtSt → EvtSt) : (s.mEvt f).vms = s.vms := (rfl)
@[simp] theorem State.mEvt_lnk (s : State) (f : EvtSt → EvtSt) : (s.mEvt f).lnk = s.lnk := (rfl)
@[simp] theorem State.mEvt_qp (s : State) (f : EvtSt → EvtSt) : (s.mEvt f).qp = s.qp := (rfl)
@[simp] theorem State.mEvt_rings (s : State) (f : EvtSt → EvtSt) : (s.mEvt f).rings = s.rings := (rfl)
@[simp] theorem State.mEvt_can (s : State) (f : EvtSt → EvtSt) : (s.mEvt f).can = s.can := (rfl)
@[simp] theorem State.mEvt_net (s : State) (f : EvtSt → EvtSt) : (s.mEvt f).net = s.net := (rfl)
@[simp] theorem State.mEvt_ser (s : State) (f : EvtSt → EvtSt) : (s.mEvt f).ser = s.ser := (rfl)
@[simp] theorem State.mEvt_ckp (s : State) (f : EvtSt → EvtSt) : (s.mEvt f).ckp = s.ckp := (rfl)
@[simp] theorem State.mEvt_free (s : State) (f : EvtSt → EvtSt) : (s.mEvt f).free = s.free := (rfl)

@[simp] theorem State.mSaf_pending (s : State) (f : SafSt → SafSt) : (s.mSaf f).pending = s.pending := (rfl)
@[simp] theorem State.mSaf_regs (s : State) (f : SafSt → SafSt) : (s.mSaf f).regs = s.regs := (rfl)
@[simp] theorem State.mSaf_hold (s : State) (f : SafSt → SafSt) : (s.mSaf f).hold = s.hold := (rfl)
@[simp] theorem State.mSaf_readback (s : State) (f : SafSt → SafSt) : (s.mSaf f).readback = s.readback := (rfl)
@[simp] theorem State.mSaf_mem (s : State) (f : SafSt → SafSt) : (s.mSaf f).mem = s.mem := (rfl)
@[simp] theorem State.mSaf_msgs (s : State) (f : SafSt → SafSt) : (s.mSaf f).msgs = s.msgs := (rfl)
@[simp] theorem State.mSaf_out (s : State) (f : SafSt → SafSt) : (s.mSaf f).out = s.out := (rfl)
@[simp] theorem State.mSaf_core (s : State) (f : SafSt → SafSt) : (s.mSaf f).core = s.core := (rfl)
@[simp] theorem State.mSaf_memory (s : State) (f : SafSt → SafSt) : (s.mSaf f).memory = s.memory := (rfl)
@[simp] theorem State.mSaf_part (s : State) (f : SafSt → SafSt) : (s.mSaf f).part = s.part := (rfl)
@[simp] theorem State.mSaf_tim (s : State) (f : SafSt → SafSt) : (s.mSaf f).tim = s.tim := (rfl)
@[simp] theorem State.mSaf_evt (s : State) (f : SafSt → SafSt) : (s.mSaf f).evt = s.evt := (rfl)
@[simp] theorem State.mSaf_saf (s : State) (f : SafSt → SafSt) : (s.mSaf f).saf = f s.saf := (rfl)
@[simp] theorem State.mSaf_sys (s : State) (f : SafSt → SafSt) : (s.mSaf f).sys = s.sys := (rfl)
@[simp] theorem State.mSaf_pwr (s : State) (f : SafSt → SafSt) : (s.mSaf f).pwr = s.pwr := (rfl)
@[simp] theorem State.mSaf_queues (s : State) (f : SafSt → SafSt) : (s.mSaf f).queues = s.queues := (rfl)
@[simp] theorem State.mSaf_vis (s : State) (f : SafSt → SafSt) : (s.mSaf f).vis = s.vis := (rfl)
@[simp] theorem State.mSaf_sol (s : State) (f : SafSt → SafSt) : (s.mSaf f).sol = s.sol := (rfl)
@[simp] theorem State.mSaf_ctl (s : State) (f : SafSt → SafSt) : (s.mSaf f).ctl = s.ctl := (rfl)
@[simp] theorem State.mSaf_vms (s : State) (f : SafSt → SafSt) : (s.mSaf f).vms = s.vms := (rfl)
@[simp] theorem State.mSaf_lnk (s : State) (f : SafSt → SafSt) : (s.mSaf f).lnk = s.lnk := (rfl)
@[simp] theorem State.mSaf_qp (s : State) (f : SafSt → SafSt) : (s.mSaf f).qp = s.qp := (rfl)
@[simp] theorem State.mSaf_rings (s : State) (f : SafSt → SafSt) : (s.mSaf f).rings = s.rings := (rfl)
@[simp] theorem State.mSaf_can (s : State) (f : SafSt → SafSt) : (s.mSaf f).can = s.can := (rfl)
@[simp] theorem State.mSaf_net (s : State) (f : SafSt → SafSt) : (s.mSaf f).net = s.net := (rfl)
@[simp] theorem State.mSaf_ser (s : State) (f : SafSt → SafSt) : (s.mSaf f).ser = s.ser := (rfl)
@[simp] theorem State.mSaf_ckp (s : State) (f : SafSt → SafSt) : (s.mSaf f).ckp = s.ckp := (rfl)
@[simp] theorem State.mSaf_free (s : State) (f : SafSt → SafSt) : (s.mSaf f).free = s.free := (rfl)

@[simp] theorem State.mSys_pending (s : State) (f : SysSt → SysSt) : (s.mSys f).pending = s.pending := (rfl)
@[simp] theorem State.mSys_regs (s : State) (f : SysSt → SysSt) : (s.mSys f).regs = s.regs := (rfl)
@[simp] theorem State.mSys_hold (s : State) (f : SysSt → SysSt) : (s.mSys f).hold = s.hold := (rfl)
@[simp] theorem State.mSys_readback (s : State) (f : SysSt → SysSt) : (s.mSys f).readback = s.readback := (rfl)
@[simp] theorem State.mSys_mem (s : State) (f : SysSt → SysSt) : (s.mSys f).mem = s.mem := (rfl)
@[simp] theorem State.mSys_msgs (s : State) (f : SysSt → SysSt) : (s.mSys f).msgs = s.msgs := (rfl)
@[simp] theorem State.mSys_out (s : State) (f : SysSt → SysSt) : (s.mSys f).out = s.out := (rfl)
@[simp] theorem State.mSys_core (s : State) (f : SysSt → SysSt) : (s.mSys f).core = s.core := (rfl)
@[simp] theorem State.mSys_memory (s : State) (f : SysSt → SysSt) : (s.mSys f).memory = s.memory := (rfl)
@[simp] theorem State.mSys_part (s : State) (f : SysSt → SysSt) : (s.mSys f).part = s.part := (rfl)
@[simp] theorem State.mSys_tim (s : State) (f : SysSt → SysSt) : (s.mSys f).tim = s.tim := (rfl)
@[simp] theorem State.mSys_evt (s : State) (f : SysSt → SysSt) : (s.mSys f).evt = s.evt := (rfl)
@[simp] theorem State.mSys_saf (s : State) (f : SysSt → SysSt) : (s.mSys f).saf = s.saf := (rfl)
@[simp] theorem State.mSys_sys (s : State) (f : SysSt → SysSt) : (s.mSys f).sys = f s.sys := (rfl)
@[simp] theorem State.mSys_pwr (s : State) (f : SysSt → SysSt) : (s.mSys f).pwr = s.pwr := (rfl)
@[simp] theorem State.mSys_queues (s : State) (f : SysSt → SysSt) : (s.mSys f).queues = s.queues := (rfl)
@[simp] theorem State.mSys_vis (s : State) (f : SysSt → SysSt) : (s.mSys f).vis = s.vis := (rfl)
@[simp] theorem State.mSys_sol (s : State) (f : SysSt → SysSt) : (s.mSys f).sol = s.sol := (rfl)
@[simp] theorem State.mSys_ctl (s : State) (f : SysSt → SysSt) : (s.mSys f).ctl = s.ctl := (rfl)
@[simp] theorem State.mSys_vms (s : State) (f : SysSt → SysSt) : (s.mSys f).vms = s.vms := (rfl)
@[simp] theorem State.mSys_lnk (s : State) (f : SysSt → SysSt) : (s.mSys f).lnk = s.lnk := (rfl)
@[simp] theorem State.mSys_qp (s : State) (f : SysSt → SysSt) : (s.mSys f).qp = s.qp := (rfl)
@[simp] theorem State.mSys_rings (s : State) (f : SysSt → SysSt) : (s.mSys f).rings = s.rings := (rfl)
@[simp] theorem State.mSys_can (s : State) (f : SysSt → SysSt) : (s.mSys f).can = s.can := (rfl)
@[simp] theorem State.mSys_net (s : State) (f : SysSt → SysSt) : (s.mSys f).net = s.net := (rfl)
@[simp] theorem State.mSys_ser (s : State) (f : SysSt → SysSt) : (s.mSys f).ser = s.ser := (rfl)
@[simp] theorem State.mSys_ckp (s : State) (f : SysSt → SysSt) : (s.mSys f).ckp = s.ckp := (rfl)
@[simp] theorem State.mSys_free (s : State) (f : SysSt → SysSt) : (s.mSys f).free = s.free := (rfl)

@[simp] theorem State.mPwr_pending (s : State) (f : PwrSt → PwrSt) : (s.mPwr f).pending = s.pending := (rfl)
@[simp] theorem State.mPwr_regs (s : State) (f : PwrSt → PwrSt) : (s.mPwr f).regs = s.regs := (rfl)
@[simp] theorem State.mPwr_hold (s : State) (f : PwrSt → PwrSt) : (s.mPwr f).hold = s.hold := (rfl)
@[simp] theorem State.mPwr_readback (s : State) (f : PwrSt → PwrSt) : (s.mPwr f).readback = s.readback := (rfl)
@[simp] theorem State.mPwr_mem (s : State) (f : PwrSt → PwrSt) : (s.mPwr f).mem = s.mem := (rfl)
@[simp] theorem State.mPwr_msgs (s : State) (f : PwrSt → PwrSt) : (s.mPwr f).msgs = s.msgs := (rfl)
@[simp] theorem State.mPwr_out (s : State) (f : PwrSt → PwrSt) : (s.mPwr f).out = s.out := (rfl)
@[simp] theorem State.mPwr_core (s : State) (f : PwrSt → PwrSt) : (s.mPwr f).core = s.core := (rfl)
@[simp] theorem State.mPwr_memory (s : State) (f : PwrSt → PwrSt) : (s.mPwr f).memory = s.memory := (rfl)
@[simp] theorem State.mPwr_part (s : State) (f : PwrSt → PwrSt) : (s.mPwr f).part = s.part := (rfl)
@[simp] theorem State.mPwr_tim (s : State) (f : PwrSt → PwrSt) : (s.mPwr f).tim = s.tim := (rfl)
@[simp] theorem State.mPwr_evt (s : State) (f : PwrSt → PwrSt) : (s.mPwr f).evt = s.evt := (rfl)
@[simp] theorem State.mPwr_saf (s : State) (f : PwrSt → PwrSt) : (s.mPwr f).saf = s.saf := (rfl)
@[simp] theorem State.mPwr_sys (s : State) (f : PwrSt → PwrSt) : (s.mPwr f).sys = s.sys := (rfl)
@[simp] theorem State.mPwr_pwr (s : State) (f : PwrSt → PwrSt) : (s.mPwr f).pwr = f s.pwr := (rfl)
@[simp] theorem State.mPwr_queues (s : State) (f : PwrSt → PwrSt) : (s.mPwr f).queues = s.queues := (rfl)
@[simp] theorem State.mPwr_vis (s : State) (f : PwrSt → PwrSt) : (s.mPwr f).vis = s.vis := (rfl)
@[simp] theorem State.mPwr_sol (s : State) (f : PwrSt → PwrSt) : (s.mPwr f).sol = s.sol := (rfl)
@[simp] theorem State.mPwr_ctl (s : State) (f : PwrSt → PwrSt) : (s.mPwr f).ctl = s.ctl := (rfl)
@[simp] theorem State.mPwr_vms (s : State) (f : PwrSt → PwrSt) : (s.mPwr f).vms = s.vms := (rfl)
@[simp] theorem State.mPwr_lnk (s : State) (f : PwrSt → PwrSt) : (s.mPwr f).lnk = s.lnk := (rfl)
@[simp] theorem State.mPwr_qp (s : State) (f : PwrSt → PwrSt) : (s.mPwr f).qp = s.qp := (rfl)
@[simp] theorem State.mPwr_rings (s : State) (f : PwrSt → PwrSt) : (s.mPwr f).rings = s.rings := (rfl)
@[simp] theorem State.mPwr_can (s : State) (f : PwrSt → PwrSt) : (s.mPwr f).can = s.can := (rfl)
@[simp] theorem State.mPwr_net (s : State) (f : PwrSt → PwrSt) : (s.mPwr f).net = s.net := (rfl)
@[simp] theorem State.mPwr_ser (s : State) (f : PwrSt → PwrSt) : (s.mPwr f).ser = s.ser := (rfl)
@[simp] theorem State.mPwr_ckp (s : State) (f : PwrSt → PwrSt) : (s.mPwr f).ckp = s.ckp := (rfl)
@[simp] theorem State.mPwr_free (s : State) (f : PwrSt → PwrSt) : (s.mPwr f).free = s.free := (rfl)

@[simp] theorem State.mCtl_pending (s : State) (f : CtlSt → CtlSt) : (s.mCtl f).pending = s.pending := (rfl)
@[simp] theorem State.mCtl_regs (s : State) (f : CtlSt → CtlSt) : (s.mCtl f).regs = s.regs := (rfl)
@[simp] theorem State.mCtl_hold (s : State) (f : CtlSt → CtlSt) : (s.mCtl f).hold = s.hold := (rfl)
@[simp] theorem State.mCtl_readback (s : State) (f : CtlSt → CtlSt) : (s.mCtl f).readback = s.readback := (rfl)
@[simp] theorem State.mCtl_mem (s : State) (f : CtlSt → CtlSt) : (s.mCtl f).mem = s.mem := (rfl)
@[simp] theorem State.mCtl_msgs (s : State) (f : CtlSt → CtlSt) : (s.mCtl f).msgs = s.msgs := (rfl)
@[simp] theorem State.mCtl_out (s : State) (f : CtlSt → CtlSt) : (s.mCtl f).out = s.out := (rfl)
@[simp] theorem State.mCtl_core (s : State) (f : CtlSt → CtlSt) : (s.mCtl f).core = s.core := (rfl)
@[simp] theorem State.mCtl_memory (s : State) (f : CtlSt → CtlSt) : (s.mCtl f).memory = s.memory := (rfl)
@[simp] theorem State.mCtl_part (s : State) (f : CtlSt → CtlSt) : (s.mCtl f).part = s.part := (rfl)
@[simp] theorem State.mCtl_tim (s : State) (f : CtlSt → CtlSt) : (s.mCtl f).tim = s.tim := (rfl)
@[simp] theorem State.mCtl_evt (s : State) (f : CtlSt → CtlSt) : (s.mCtl f).evt = s.evt := (rfl)
@[simp] theorem State.mCtl_saf (s : State) (f : CtlSt → CtlSt) : (s.mCtl f).saf = s.saf := (rfl)
@[simp] theorem State.mCtl_sys (s : State) (f : CtlSt → CtlSt) : (s.mCtl f).sys = s.sys := (rfl)
@[simp] theorem State.mCtl_pwr (s : State) (f : CtlSt → CtlSt) : (s.mCtl f).pwr = s.pwr := (rfl)
@[simp] theorem State.mCtl_queues (s : State) (f : CtlSt → CtlSt) : (s.mCtl f).queues = s.queues := (rfl)
@[simp] theorem State.mCtl_vis (s : State) (f : CtlSt → CtlSt) : (s.mCtl f).vis = s.vis := (rfl)
@[simp] theorem State.mCtl_sol (s : State) (f : CtlSt → CtlSt) : (s.mCtl f).sol = s.sol := (rfl)
@[simp] theorem State.mCtl_ctl (s : State) (f : CtlSt → CtlSt) : (s.mCtl f).ctl = f s.ctl := (rfl)
@[simp] theorem State.mCtl_vms (s : State) (f : CtlSt → CtlSt) : (s.mCtl f).vms = s.vms := (rfl)
@[simp] theorem State.mCtl_lnk (s : State) (f : CtlSt → CtlSt) : (s.mCtl f).lnk = s.lnk := (rfl)
@[simp] theorem State.mCtl_qp (s : State) (f : CtlSt → CtlSt) : (s.mCtl f).qp = s.qp := (rfl)
@[simp] theorem State.mCtl_rings (s : State) (f : CtlSt → CtlSt) : (s.mCtl f).rings = s.rings := (rfl)
@[simp] theorem State.mCtl_can (s : State) (f : CtlSt → CtlSt) : (s.mCtl f).can = s.can := (rfl)
@[simp] theorem State.mCtl_net (s : State) (f : CtlSt → CtlSt) : (s.mCtl f).net = s.net := (rfl)
@[simp] theorem State.mCtl_ser (s : State) (f : CtlSt → CtlSt) : (s.mCtl f).ser = s.ser := (rfl)
@[simp] theorem State.mCtl_ckp (s : State) (f : CtlSt → CtlSt) : (s.mCtl f).ckp = s.ckp := (rfl)
@[simp] theorem State.mCtl_free (s : State) (f : CtlSt → CtlSt) : (s.mCtl f).free = s.free := (rfl)

@[simp] theorem State.mLnk_pending (s : State) (f : LnkSt → LnkSt) : (s.mLnk f).pending = s.pending := (rfl)
@[simp] theorem State.mLnk_regs (s : State) (f : LnkSt → LnkSt) : (s.mLnk f).regs = s.regs := (rfl)
@[simp] theorem State.mLnk_hold (s : State) (f : LnkSt → LnkSt) : (s.mLnk f).hold = s.hold := (rfl)
@[simp] theorem State.mLnk_readback (s : State) (f : LnkSt → LnkSt) : (s.mLnk f).readback = s.readback := (rfl)
@[simp] theorem State.mLnk_mem (s : State) (f : LnkSt → LnkSt) : (s.mLnk f).mem = s.mem := (rfl)
@[simp] theorem State.mLnk_msgs (s : State) (f : LnkSt → LnkSt) : (s.mLnk f).msgs = s.msgs := (rfl)
@[simp] theorem State.mLnk_out (s : State) (f : LnkSt → LnkSt) : (s.mLnk f).out = s.out := (rfl)
@[simp] theorem State.mLnk_core (s : State) (f : LnkSt → LnkSt) : (s.mLnk f).core = s.core := (rfl)
@[simp] theorem State.mLnk_memory (s : State) (f : LnkSt → LnkSt) : (s.mLnk f).memory = s.memory := (rfl)
@[simp] theorem State.mLnk_part (s : State) (f : LnkSt → LnkSt) : (s.mLnk f).part = s.part := (rfl)
@[simp] theorem State.mLnk_tim (s : State) (f : LnkSt → LnkSt) : (s.mLnk f).tim = s.tim := (rfl)
@[simp] theorem State.mLnk_evt (s : State) (f : LnkSt → LnkSt) : (s.mLnk f).evt = s.evt := (rfl)
@[simp] theorem State.mLnk_saf (s : State) (f : LnkSt → LnkSt) : (s.mLnk f).saf = s.saf := (rfl)
@[simp] theorem State.mLnk_sys (s : State) (f : LnkSt → LnkSt) : (s.mLnk f).sys = s.sys := (rfl)
@[simp] theorem State.mLnk_pwr (s : State) (f : LnkSt → LnkSt) : (s.mLnk f).pwr = s.pwr := (rfl)
@[simp] theorem State.mLnk_queues (s : State) (f : LnkSt → LnkSt) : (s.mLnk f).queues = s.queues := (rfl)
@[simp] theorem State.mLnk_vis (s : State) (f : LnkSt → LnkSt) : (s.mLnk f).vis = s.vis := (rfl)
@[simp] theorem State.mLnk_sol (s : State) (f : LnkSt → LnkSt) : (s.mLnk f).sol = s.sol := (rfl)
@[simp] theorem State.mLnk_ctl (s : State) (f : LnkSt → LnkSt) : (s.mLnk f).ctl = s.ctl := (rfl)
@[simp] theorem State.mLnk_vms (s : State) (f : LnkSt → LnkSt) : (s.mLnk f).vms = s.vms := (rfl)
@[simp] theorem State.mLnk_lnk (s : State) (f : LnkSt → LnkSt) : (s.mLnk f).lnk = f s.lnk := (rfl)
@[simp] theorem State.mLnk_qp (s : State) (f : LnkSt → LnkSt) : (s.mLnk f).qp = s.qp := (rfl)
@[simp] theorem State.mLnk_rings (s : State) (f : LnkSt → LnkSt) : (s.mLnk f).rings = s.rings := (rfl)
@[simp] theorem State.mLnk_can (s : State) (f : LnkSt → LnkSt) : (s.mLnk f).can = s.can := (rfl)
@[simp] theorem State.mLnk_net (s : State) (f : LnkSt → LnkSt) : (s.mLnk f).net = s.net := (rfl)
@[simp] theorem State.mLnk_ser (s : State) (f : LnkSt → LnkSt) : (s.mLnk f).ser = s.ser := (rfl)
@[simp] theorem State.mLnk_ckp (s : State) (f : LnkSt → LnkSt) : (s.mLnk f).ckp = s.ckp := (rfl)
@[simp] theorem State.mLnk_free (s : State) (f : LnkSt → LnkSt) : (s.mLnk f).free = s.free := (rfl)

@[simp] theorem State.mCkp_pending (s : State) (f : CkpSt → CkpSt) : (s.mCkp f).pending = s.pending := (rfl)
@[simp] theorem State.mCkp_regs (s : State) (f : CkpSt → CkpSt) : (s.mCkp f).regs = s.regs := (rfl)
@[simp] theorem State.mCkp_hold (s : State) (f : CkpSt → CkpSt) : (s.mCkp f).hold = s.hold := (rfl)
@[simp] theorem State.mCkp_readback (s : State) (f : CkpSt → CkpSt) : (s.mCkp f).readback = s.readback := (rfl)
@[simp] theorem State.mCkp_mem (s : State) (f : CkpSt → CkpSt) : (s.mCkp f).mem = s.mem := (rfl)
@[simp] theorem State.mCkp_msgs (s : State) (f : CkpSt → CkpSt) : (s.mCkp f).msgs = s.msgs := (rfl)
@[simp] theorem State.mCkp_out (s : State) (f : CkpSt → CkpSt) : (s.mCkp f).out = s.out := (rfl)
@[simp] theorem State.mCkp_core (s : State) (f : CkpSt → CkpSt) : (s.mCkp f).core = s.core := (rfl)
@[simp] theorem State.mCkp_memory (s : State) (f : CkpSt → CkpSt) : (s.mCkp f).memory = s.memory := (rfl)
@[simp] theorem State.mCkp_part (s : State) (f : CkpSt → CkpSt) : (s.mCkp f).part = s.part := (rfl)
@[simp] theorem State.mCkp_tim (s : State) (f : CkpSt → CkpSt) : (s.mCkp f).tim = s.tim := (rfl)
@[simp] theorem State.mCkp_evt (s : State) (f : CkpSt → CkpSt) : (s.mCkp f).evt = s.evt := (rfl)
@[simp] theorem State.mCkp_saf (s : State) (f : CkpSt → CkpSt) : (s.mCkp f).saf = s.saf := (rfl)
@[simp] theorem State.mCkp_sys (s : State) (f : CkpSt → CkpSt) : (s.mCkp f).sys = s.sys := (rfl)
@[simp] theorem State.mCkp_pwr (s : State) (f : CkpSt → CkpSt) : (s.mCkp f).pwr = s.pwr := (rfl)
@[simp] theorem State.mCkp_queues (s : State) (f : CkpSt → CkpSt) : (s.mCkp f).queues = s.queues := (rfl)
@[simp] theorem State.mCkp_vis (s : State) (f : CkpSt → CkpSt) : (s.mCkp f).vis = s.vis := (rfl)
@[simp] theorem State.mCkp_sol (s : State) (f : CkpSt → CkpSt) : (s.mCkp f).sol = s.sol := (rfl)
@[simp] theorem State.mCkp_ctl (s : State) (f : CkpSt → CkpSt) : (s.mCkp f).ctl = s.ctl := (rfl)
@[simp] theorem State.mCkp_vms (s : State) (f : CkpSt → CkpSt) : (s.mCkp f).vms = s.vms := (rfl)
@[simp] theorem State.mCkp_lnk (s : State) (f : CkpSt → CkpSt) : (s.mCkp f).lnk = s.lnk := (rfl)
@[simp] theorem State.mCkp_qp (s : State) (f : CkpSt → CkpSt) : (s.mCkp f).qp = s.qp := (rfl)
@[simp] theorem State.mCkp_rings (s : State) (f : CkpSt → CkpSt) : (s.mCkp f).rings = s.rings := (rfl)
@[simp] theorem State.mCkp_can (s : State) (f : CkpSt → CkpSt) : (s.mCkp f).can = s.can := (rfl)
@[simp] theorem State.mCkp_net (s : State) (f : CkpSt → CkpSt) : (s.mCkp f).net = s.net := (rfl)
@[simp] theorem State.mCkp_ser (s : State) (f : CkpSt → CkpSt) : (s.mCkp f).ser = s.ser := (rfl)
@[simp] theorem State.mCkp_ckp (s : State) (f : CkpSt → CkpSt) : (s.mCkp f).ckp = f s.ckp := (rfl)
@[simp] theorem State.mCkp_free (s : State) (f : CkpSt → CkpSt) : (s.mCkp f).free = s.free := (rfl)

@[simp] theorem State.mVms_pending (s : State) (f : VmsSt → VmsSt) : (s.mVms f).pending = s.pending := (rfl)
@[simp] theorem State.mVms_regs (s : State) (f : VmsSt → VmsSt) : (s.mVms f).regs = s.regs := (rfl)
@[simp] theorem State.mVms_hold (s : State) (f : VmsSt → VmsSt) : (s.mVms f).hold = s.hold := (rfl)
@[simp] theorem State.mVms_readback (s : State) (f : VmsSt → VmsSt) : (s.mVms f).readback = s.readback := (rfl)
@[simp] theorem State.mVms_mem (s : State) (f : VmsSt → VmsSt) : (s.mVms f).mem = s.mem := (rfl)
@[simp] theorem State.mVms_msgs (s : State) (f : VmsSt → VmsSt) : (s.mVms f).msgs = s.msgs := (rfl)
@[simp] theorem State.mVms_out (s : State) (f : VmsSt → VmsSt) : (s.mVms f).out = s.out := (rfl)
@[simp] theorem State.mVms_core (s : State) (f : VmsSt → VmsSt) : (s.mVms f).core = s.core := (rfl)
@[simp] theorem State.mVms_memory (s : State) (f : VmsSt → VmsSt) : (s.mVms f).memory = s.memory := (rfl)
@[simp] theorem State.mVms_part (s : State) (f : VmsSt → VmsSt) : (s.mVms f).part = s.part := (rfl)
@[simp] theorem State.mVms_tim (s : State) (f : VmsSt → VmsSt) : (s.mVms f).tim = s.tim := (rfl)
@[simp] theorem State.mVms_evt (s : State) (f : VmsSt → VmsSt) : (s.mVms f).evt = s.evt := (rfl)
@[simp] theorem State.mVms_saf (s : State) (f : VmsSt → VmsSt) : (s.mVms f).saf = s.saf := (rfl)
@[simp] theorem State.mVms_sys (s : State) (f : VmsSt → VmsSt) : (s.mVms f).sys = s.sys := (rfl)
@[simp] theorem State.mVms_pwr (s : State) (f : VmsSt → VmsSt) : (s.mVms f).pwr = s.pwr := (rfl)
@[simp] theorem State.mVms_queues (s : State) (f : VmsSt → VmsSt) : (s.mVms f).queues = s.queues := (rfl)
@[simp] theorem State.mVms_vis (s : State) (f : VmsSt → VmsSt) : (s.mVms f).vis = s.vis := (rfl)
@[simp] theorem State.mVms_sol (s : State) (f : VmsSt → VmsSt) : (s.mVms f).sol = s.sol := (rfl)
@[simp] theorem State.mVms_ctl (s : State) (f : VmsSt → VmsSt) : (s.mVms f).ctl = s.ctl := (rfl)
@[simp] theorem State.mVms_vms (s : State) (f : VmsSt → VmsSt) : (s.mVms f).vms = f s.vms := (rfl)
@[simp] theorem State.mVms_lnk (s : State) (f : VmsSt → VmsSt) : (s.mVms f).lnk = s.lnk := (rfl)
@[simp] theorem State.mVms_qp (s : State) (f : VmsSt → VmsSt) : (s.mVms f).qp = s.qp := (rfl)
@[simp] theorem State.mVms_rings (s : State) (f : VmsSt → VmsSt) : (s.mVms f).rings = s.rings := (rfl)
@[simp] theorem State.mVms_can (s : State) (f : VmsSt → VmsSt) : (s.mVms f).can = s.can := (rfl)
@[simp] theorem State.mVms_net (s : State) (f : VmsSt → VmsSt) : (s.mVms f).net = s.net := (rfl)
@[simp] theorem State.mVms_ser (s : State) (f : VmsSt → VmsSt) : (s.mVms f).ser = s.ser := (rfl)
@[simp] theorem State.mVms_ckp (s : State) (f : VmsSt → VmsSt) : (s.mVms f).ckp = s.ckp := (rfl)
@[simp] theorem State.mVms_free (s : State) (f : VmsSt → VmsSt) : (s.mVms f).free = s.free := (rfl)

@[simp] theorem State.mCan_pending (s : State) (f : CanSt → CanSt) : (s.mCan f).pending = s.pending := (rfl)
@[simp] theorem State.mCan_regs (s : State) (f : CanSt → CanSt) : (s.mCan f).regs = s.regs := (rfl)
@[simp] theorem State.mCan_hold (s : State) (f : CanSt → CanSt) : (s.mCan f).hold = s.hold := (rfl)
@[simp] theorem State.mCan_readback (s : State) (f : CanSt → CanSt) : (s.mCan f).readback = s.readback := (rfl)
@[simp] theorem State.mCan_mem (s : State) (f : CanSt → CanSt) : (s.mCan f).mem = s.mem := (rfl)
@[simp] theorem State.mCan_msgs (s : State) (f : CanSt → CanSt) : (s.mCan f).msgs = s.msgs := (rfl)
@[simp] theorem State.mCan_out (s : State) (f : CanSt → CanSt) : (s.mCan f).out = s.out := (rfl)
@[simp] theorem State.mCan_core (s : State) (f : CanSt → CanSt) : (s.mCan f).core = s.core := (rfl)
@[simp] theorem State.mCan_memory (s : State) (f : CanSt → CanSt) : (s.mCan f).memory = s.memory := (rfl)
@[simp] theorem State.mCan_part (s : State) (f : CanSt → CanSt) : (s.mCan f).part = s.part := (rfl)
@[simp] theorem State.mCan_tim (s : State) (f : CanSt → CanSt) : (s.mCan f).tim = s.tim := (rfl)
@[simp] theorem State.mCan_evt (s : State) (f : CanSt → CanSt) : (s.mCan f).evt = s.evt := (rfl)
@[simp] theorem State.mCan_saf (s : State) (f : CanSt → CanSt) : (s.mCan f).saf = s.saf := (rfl)
@[simp] theorem State.mCan_sys (s : State) (f : CanSt → CanSt) : (s.mCan f).sys = s.sys := (rfl)
@[simp] theorem State.mCan_pwr (s : State) (f : CanSt → CanSt) : (s.mCan f).pwr = s.pwr := (rfl)
@[simp] theorem State.mCan_queues (s : State) (f : CanSt → CanSt) : (s.mCan f).queues = s.queues := (rfl)
@[simp] theorem State.mCan_vis (s : State) (f : CanSt → CanSt) : (s.mCan f).vis = s.vis := (rfl)
@[simp] theorem State.mCan_sol (s : State) (f : CanSt → CanSt) : (s.mCan f).sol = s.sol := (rfl)
@[simp] theorem State.mCan_ctl (s : State) (f : CanSt → CanSt) : (s.mCan f).ctl = s.ctl := (rfl)
@[simp] theorem State.mCan_vms (s : State) (f : CanSt → CanSt) : (s.mCan f).vms = s.vms := (rfl)
@[simp] theorem State.mCan_lnk (s : State) (f : CanSt → CanSt) : (s.mCan f).lnk = s.lnk := (rfl)
@[simp] theorem State.mCan_qp (s : State) (f : CanSt → CanSt) : (s.mCan f).qp = s.qp := (rfl)
@[simp] theorem State.mCan_rings (s : State) (f : CanSt → CanSt) : (s.mCan f).rings = s.rings := (rfl)
@[simp] theorem State.mCan_can (s : State) (f : CanSt → CanSt) : (s.mCan f).can = f s.can := (rfl)
@[simp] theorem State.mCan_net (s : State) (f : CanSt → CanSt) : (s.mCan f).net = s.net := (rfl)
@[simp] theorem State.mCan_ser (s : State) (f : CanSt → CanSt) : (s.mCan f).ser = s.ser := (rfl)
@[simp] theorem State.mCan_ckp (s : State) (f : CanSt → CanSt) : (s.mCan f).ckp = s.ckp := (rfl)
@[simp] theorem State.mCan_free (s : State) (f : CanSt → CanSt) : (s.mCan f).free = s.free := (rfl)

@[simp] theorem State.mNet_pending (s : State) (f : NetSt → NetSt) : (s.mNet f).pending = s.pending := (rfl)
@[simp] theorem State.mNet_regs (s : State) (f : NetSt → NetSt) : (s.mNet f).regs = s.regs := (rfl)
@[simp] theorem State.mNet_hold (s : State) (f : NetSt → NetSt) : (s.mNet f).hold = s.hold := (rfl)
@[simp] theorem State.mNet_readback (s : State) (f : NetSt → NetSt) : (s.mNet f).readback = s.readback := (rfl)
@[simp] theorem State.mNet_mem (s : State) (f : NetSt → NetSt) : (s.mNet f).mem = s.mem := (rfl)
@[simp] theorem State.mNet_msgs (s : State) (f : NetSt → NetSt) : (s.mNet f).msgs = s.msgs := (rfl)
@[simp] theorem State.mNet_out (s : State) (f : NetSt → NetSt) : (s.mNet f).out = s.out := (rfl)
@[simp] theorem State.mNet_core (s : State) (f : NetSt → NetSt) : (s.mNet f).core = s.core := (rfl)
@[simp] theorem State.mNet_memory (s : State) (f : NetSt → NetSt) : (s.mNet f).memory = s.memory := (rfl)
@[simp] theorem State.mNet_part (s : State) (f : NetSt → NetSt) : (s.mNet f).part = s.part := (rfl)
@[simp] theorem State.mNet_tim (s : State) (f : NetSt → NetSt) : (s.mNet f).tim = s.tim := (rfl)
@[simp] theorem State.mNet_evt (s : State) (f : NetSt → NetSt) : (s.mNet f).evt = s.evt := (rfl)
@[simp] theorem State.mNet_saf (s : State) (f : NetSt → NetSt) : (s.mNet f).saf = s.saf := (rfl)
@[simp] theorem State.mNet_sys (s : State) (f : NetSt → NetSt) : (s.mNet f).sys = s.sys := (rfl)
@[simp] theorem State.mNet_pwr (s : State) (f : NetSt → NetSt) : (s.mNet f).pwr = s.pwr := (rfl)
@[simp] theorem State.mNet_queues (s : State) (f : NetSt → NetSt) : (s.mNet f).queues = s.queues := (rfl)
@[simp] theorem State.mNet_vis (s : State) (f : NetSt → NetSt) : (s.mNet f).vis = s.vis := (rfl)
@[simp] theorem State.mNet_sol (s : State) (f : NetSt → NetSt) : (s.mNet f).sol = s.sol := (rfl)
@[simp] theorem State.mNet_ctl (s : State) (f : NetSt → NetSt) : (s.mNet f).ctl = s.ctl := (rfl)
@[simp] theorem State.mNet_vms (s : State) (f : NetSt → NetSt) : (s.mNet f).vms = s.vms := (rfl)
@[simp] theorem State.mNet_lnk (s : State) (f : NetSt → NetSt) : (s.mNet f).lnk = s.lnk := (rfl)
@[simp] theorem State.mNet_qp (s : State) (f : NetSt → NetSt) : (s.mNet f).qp = s.qp := (rfl)
@[simp] theorem State.mNet_rings (s : State) (f : NetSt → NetSt) : (s.mNet f).rings = s.rings := (rfl)
@[simp] theorem State.mNet_can (s : State) (f : NetSt → NetSt) : (s.mNet f).can = s.can := (rfl)
@[simp] theorem State.mNet_net (s : State) (f : NetSt → NetSt) : (s.mNet f).net = f s.net := (rfl)
@[simp] theorem State.mNet_ser (s : State) (f : NetSt → NetSt) : (s.mNet f).ser = s.ser := (rfl)
@[simp] theorem State.mNet_ckp (s : State) (f : NetSt → NetSt) : (s.mNet f).ckp = s.ckp := (rfl)
@[simp] theorem State.mNet_free (s : State) (f : NetSt → NetSt) : (s.mNet f).free = s.free := (rfl)

@[simp] theorem State.mSer_pending (s : State) (f : SerSt → SerSt) : (s.mSer f).pending = s.pending := (rfl)
@[simp] theorem State.mSer_regs (s : State) (f : SerSt → SerSt) : (s.mSer f).regs = s.regs := (rfl)
@[simp] theorem State.mSer_hold (s : State) (f : SerSt → SerSt) : (s.mSer f).hold = s.hold := (rfl)
@[simp] theorem State.mSer_readback (s : State) (f : SerSt → SerSt) : (s.mSer f).readback = s.readback := (rfl)
@[simp] theorem State.mSer_mem (s : State) (f : SerSt → SerSt) : (s.mSer f).mem = s.mem := (rfl)
@[simp] theorem State.mSer_msgs (s : State) (f : SerSt → SerSt) : (s.mSer f).msgs = s.msgs := (rfl)
@[simp] theorem State.mSer_out (s : State) (f : SerSt → SerSt) : (s.mSer f).out = s.out := (rfl)
@[simp] theorem State.mSer_core (s : State) (f : SerSt → SerSt) : (s.mSer f).core = s.core := (rfl)
@[simp] theorem State.mSer_memory (s : State) (f : SerSt → SerSt) : (s.mSer f).memory = s.memory := (rfl)
@[simp] theorem State.mSer_part (s : State) (f : SerSt → SerSt) : (s.mSer f).part = s.part := (rfl)
@[simp] theorem State.mSer_tim (s : State) (f : SerSt → SerSt) : (s.mSer f).tim = s.tim := (rfl)
@[simp] theorem State.mSer_evt (s : State) (f : SerSt → SerSt) : (s.mSer f).evt = s.evt := (rfl)
@[simp] theorem State.mSer_saf (s : State) (f : SerSt → SerSt) : (s.mSer f).saf = s.saf := (rfl)
@[simp] theorem State.mSer_sys (s : State) (f : SerSt → SerSt) : (s.mSer f).sys = s.sys := (rfl)
@[simp] theorem State.mSer_pwr (s : State) (f : SerSt → SerSt) : (s.mSer f).pwr = s.pwr := (rfl)
@[simp] theorem State.mSer_queues (s : State) (f : SerSt → SerSt) : (s.mSer f).queues = s.queues := (rfl)
@[simp] theorem State.mSer_vis (s : State) (f : SerSt → SerSt) : (s.mSer f).vis = s.vis := (rfl)
@[simp] theorem State.mSer_sol (s : State) (f : SerSt → SerSt) : (s.mSer f).sol = s.sol := (rfl)
@[simp] theorem State.mSer_ctl (s : State) (f : SerSt → SerSt) : (s.mSer f).ctl = s.ctl := (rfl)
@[simp] theorem State.mSer_vms (s : State) (f : SerSt → SerSt) : (s.mSer f).vms = s.vms := (rfl)
@[simp] theorem State.mSer_lnk (s : State) (f : SerSt → SerSt) : (s.mSer f).lnk = s.lnk := (rfl)
@[simp] theorem State.mSer_qp (s : State) (f : SerSt → SerSt) : (s.mSer f).qp = s.qp := (rfl)
@[simp] theorem State.mSer_rings (s : State) (f : SerSt → SerSt) : (s.mSer f).rings = s.rings := (rfl)
@[simp] theorem State.mSer_can (s : State) (f : SerSt → SerSt) : (s.mSer f).can = s.can := (rfl)
@[simp] theorem State.mSer_net (s : State) (f : SerSt → SerSt) : (s.mSer f).net = s.net := (rfl)
@[simp] theorem State.mSer_ser (s : State) (f : SerSt → SerSt) : (s.mSer f).ser = f s.ser := (rfl)
@[simp] theorem State.mSer_ckp (s : State) (f : SerSt → SerSt) : (s.mSer f).ckp = s.ckp := (rfl)
@[simp] theorem State.mSer_free (s : State) (f : SerSt → SerSt) : (s.mSer f).free = s.free := (rfl)

@[simp] theorem State.mSol_pending (s : State) (f : SolSt → SolSt) : (s.mSol f).pending = s.pending := (rfl)
@[simp] theorem State.mSol_regs (s : State) (f : SolSt → SolSt) : (s.mSol f).regs = s.regs := (rfl)
@[simp] theorem State.mSol_hold (s : State) (f : SolSt → SolSt) : (s.mSol f).hold = s.hold := (rfl)
@[simp] theorem State.mSol_readback (s : State) (f : SolSt → SolSt) : (s.mSol f).readback = s.readback := (rfl)
@[simp] theorem State.mSol_mem (s : State) (f : SolSt → SolSt) : (s.mSol f).mem = s.mem := (rfl)
@[simp] theorem State.mSol_msgs (s : State) (f : SolSt → SolSt) : (s.mSol f).msgs = s.msgs := (rfl)
@[simp] theorem State.mSol_out (s : State) (f : SolSt → SolSt) : (s.mSol f).out = s.out := (rfl)
@[simp] theorem State.mSol_core (s : State) (f : SolSt → SolSt) : (s.mSol f).core = s.core := (rfl)
@[simp] theorem State.mSol_memory (s : State) (f : SolSt → SolSt) : (s.mSol f).memory = s.memory := (rfl)
@[simp] theorem State.mSol_part (s : State) (f : SolSt → SolSt) : (s.mSol f).part = s.part := (rfl)
@[simp] theorem State.mSol_tim (s : State) (f : SolSt → SolSt) : (s.mSol f).tim = s.tim := (rfl)
@[simp] theorem State.mSol_evt (s : State) (f : SolSt → SolSt) : (s.mSol f).evt = s.evt := (rfl)
@[simp] theorem State.mSol_saf (s : State) (f : SolSt → SolSt) : (s.mSol f).saf = s.saf := (rfl)
@[simp] theorem State.mSol_sys (s : State) (f : SolSt → SolSt) : (s.mSol f).sys = s.sys := (rfl)
@[simp] theorem State.mSol_pwr (s : State) (f : SolSt → SolSt) : (s.mSol f).pwr = s.pwr := (rfl)
@[simp] theorem State.mSol_queues (s : State) (f : SolSt → SolSt) : (s.mSol f).queues = s.queues := (rfl)
@[simp] theorem State.mSol_vis (s : State) (f : SolSt → SolSt) : (s.mSol f).vis = s.vis := (rfl)
@[simp] theorem State.mSol_sol (s : State) (f : SolSt → SolSt) : (s.mSol f).sol = f s.sol := (rfl)
@[simp] theorem State.mSol_ctl (s : State) (f : SolSt → SolSt) : (s.mSol f).ctl = s.ctl := (rfl)
@[simp] theorem State.mSol_vms (s : State) (f : SolSt → SolSt) : (s.mSol f).vms = s.vms := (rfl)
@[simp] theorem State.mSol_lnk (s : State) (f : SolSt → SolSt) : (s.mSol f).lnk = s.lnk := (rfl)
@[simp] theorem State.mSol_qp (s : State) (f : SolSt → SolSt) : (s.mSol f).qp = s.qp := (rfl)
@[simp] theorem State.mSol_rings (s : State) (f : SolSt → SolSt) : (s.mSol f).rings = s.rings := (rfl)
@[simp] theorem State.mSol_can (s : State) (f : SolSt → SolSt) : (s.mSol f).can = s.can := (rfl)
@[simp] theorem State.mSol_net (s : State) (f : SolSt → SolSt) : (s.mSol f).net = s.net := (rfl)
@[simp] theorem State.mSol_ser (s : State) (f : SolSt → SolSt) : (s.mSol f).ser = s.ser := (rfl)
@[simp] theorem State.mSol_ckp (s : State) (f : SolSt → SolSt) : (s.mSol f).ckp = s.ckp := (rfl)
@[simp] theorem State.mSol_free (s : State) (f : SolSt → SolSt) : (s.mSol f).free = s.free := (rfl)

@[simp] theorem State.mVis_pending (s : State) (f : VisSt → VisSt) : (s.mVis f).pending = s.pending := (rfl)
@[simp] theorem State.mVis_regs (s : State) (f : VisSt → VisSt) : (s.mVis f).regs = s.regs := (rfl)
@[simp] theorem State.mVis_hold (s : State) (f : VisSt → VisSt) : (s.mVis f).hold = s.hold := (rfl)
@[simp] theorem State.mVis_readback (s : State) (f : VisSt → VisSt) : (s.mVis f).readback = s.readback := (rfl)
@[simp] theorem State.mVis_mem (s : State) (f : VisSt → VisSt) : (s.mVis f).mem = s.mem := (rfl)
@[simp] theorem State.mVis_msgs (s : State) (f : VisSt → VisSt) : (s.mVis f).msgs = s.msgs := (rfl)
@[simp] theorem State.mVis_out (s : State) (f : VisSt → VisSt) : (s.mVis f).out = s.out := (rfl)
@[simp] theorem State.mVis_core (s : State) (f : VisSt → VisSt) : (s.mVis f).core = s.core := (rfl)
@[simp] theorem State.mVis_memory (s : State) (f : VisSt → VisSt) : (s.mVis f).memory = s.memory := (rfl)
@[simp] theorem State.mVis_part (s : State) (f : VisSt → VisSt) : (s.mVis f).part = s.part := (rfl)
@[simp] theorem State.mVis_tim (s : State) (f : VisSt → VisSt) : (s.mVis f).tim = s.tim := (rfl)
@[simp] theorem State.mVis_evt (s : State) (f : VisSt → VisSt) : (s.mVis f).evt = s.evt := (rfl)
@[simp] theorem State.mVis_saf (s : State) (f : VisSt → VisSt) : (s.mVis f).saf = s.saf := (rfl)
@[simp] theorem State.mVis_sys (s : State) (f : VisSt → VisSt) : (s.mVis f).sys = s.sys := (rfl)
@[simp] theorem State.mVis_pwr (s : State) (f : VisSt → VisSt) : (s.mVis f).pwr = s.pwr := (rfl)
@[simp] theorem State.mVis_queues (s : State) (f : VisSt → VisSt) : (s.mVis f).queues = s.queues := (rfl)
@[simp] theorem State.mVis_vis (s : State) (f : VisSt → VisSt) : (s.mVis f).vis = f s.vis := (rfl)
@[simp] theorem State.mVis_sol (s : State) (f : VisSt → VisSt) : (s.mVis f).sol = s.sol := (rfl)
@[simp] theorem State.mVis_ctl (s : State) (f : VisSt → VisSt) : (s.mVis f).ctl = s.ctl := (rfl)
@[simp] theorem State.mVis_vms (s : State) (f : VisSt → VisSt) : (s.mVis f).vms = s.vms := (rfl)
@[simp] theorem State.mVis_lnk (s : State) (f : VisSt → VisSt) : (s.mVis f).lnk = s.lnk := (rfl)
@[simp] theorem State.mVis_qp (s : State) (f : VisSt → VisSt) : (s.mVis f).qp = s.qp := (rfl)
@[simp] theorem State.mVis_rings (s : State) (f : VisSt → VisSt) : (s.mVis f).rings = s.rings := (rfl)
@[simp] theorem State.mVis_can (s : State) (f : VisSt → VisSt) : (s.mVis f).can = s.can := (rfl)
@[simp] theorem State.mVis_net (s : State) (f : VisSt → VisSt) : (s.mVis f).net = s.net := (rfl)
@[simp] theorem State.mVis_ser (s : State) (f : VisSt → VisSt) : (s.mVis f).ser = s.ser := (rfl)
@[simp] theorem State.mVis_ckp (s : State) (f : VisSt → VisSt) : (s.mVis f).ckp = s.ckp := (rfl)
@[simp] theorem State.mVis_free (s : State) (f : VisSt → VisSt) : (s.mVis f).free = s.free := (rfl)

@[simp] theorem State.setWord_pending (s : State) (off v : Nat) : (s.setWord off v).pending = s.pending := (rfl)
@[simp] theorem State.setWord_hold (s : State) (off v : Nat) : (s.setWord off v).hold = s.hold := (rfl)
@[simp] theorem State.setWord_readback (s : State) (off v : Nat) : (s.setWord off v).readback = s.readback := (rfl)
@[simp] theorem State.setWord_mem (s : State) (off v : Nat) : (s.setWord off v).mem = s.mem := (rfl)
@[simp] theorem State.setWord_msgs (s : State) (off v : Nat) : (s.setWord off v).msgs = s.msgs := (rfl)
@[simp] theorem State.setWord_out (s : State) (off v : Nat) : (s.setWord off v).out = s.out := (rfl)
@[simp] theorem State.setWord_core (s : State) (off v : Nat) : (s.setWord off v).core = s.core := (rfl)
@[simp] theorem State.setWord_memory (s : State) (off v : Nat) : (s.setWord off v).memory = s.memory := (rfl)
@[simp] theorem State.setWord_part (s : State) (off v : Nat) : (s.setWord off v).part = s.part := (rfl)
@[simp] theorem State.setWord_tim (s : State) (off v : Nat) : (s.setWord off v).tim = s.tim := (rfl)
@[simp] theorem State.setWord_evt (s : State) (off v : Nat) : (s.setWord off v).evt = s.evt := (rfl)
@[simp] theorem State.setWord_saf (s : State) (off v : Nat) : (s.setWord off v).saf = s.saf := (rfl)
@[simp] theorem State.setWord_sys (s : State) (off v : Nat) : (s.setWord off v).sys = s.sys := (rfl)
@[simp] theorem State.setWord_pwr (s : State) (off v : Nat) : (s.setWord off v).pwr = s.pwr := (rfl)
@[simp] theorem State.setWord_queues (s : State) (off v : Nat) : (s.setWord off v).queues = s.queues := (rfl)
@[simp] theorem State.setWord_vis (s : State) (off v : Nat) : (s.setWord off v).vis = s.vis := (rfl)
@[simp] theorem State.setWord_sol (s : State) (off v : Nat) : (s.setWord off v).sol = s.sol := (rfl)
@[simp] theorem State.setWord_ctl (s : State) (off v : Nat) : (s.setWord off v).ctl = s.ctl := (rfl)
@[simp] theorem State.setWord_vms (s : State) (off v : Nat) : (s.setWord off v).vms = s.vms := (rfl)
@[simp] theorem State.setWord_lnk (s : State) (off v : Nat) : (s.setWord off v).lnk = s.lnk := (rfl)
@[simp] theorem State.setWord_qp (s : State) (off v : Nat) : (s.setWord off v).qp = s.qp := (rfl)
@[simp] theorem State.setWord_rings (s : State) (off v : Nat) : (s.setWord off v).rings = s.rings := (rfl)
@[simp] theorem State.setWord_can (s : State) (off v : Nat) : (s.setWord off v).can = s.can := (rfl)
@[simp] theorem State.setWord_net (s : State) (off v : Nat) : (s.setWord off v).net = s.net := (rfl)
@[simp] theorem State.setWord_ser (s : State) (off v : Nat) : (s.setWord off v).ser = s.ser := (rfl)
@[simp] theorem State.setWord_ckp (s : State) (off v : Nat) : (s.setWord off v).ckp = s.ckp := (rfl)
@[simp] theorem State.setWord_free (s : State) (off v : Nat) : (s.setWord off v).free = s.free := (rfl)

@[simp] theorem State.wr_pending (s : State) (x : Fld) (v : Nat) : (s.wr x v).pending = s.pending := by by_cases h : x.wide = true <;> simp [State.wr, h]
@[simp] theorem State.wr_hold (s : State) (x : Fld) (v : Nat) : (s.wr x v).hold = s.hold := by by_cases h : x.wide = true <;> simp [State.wr, h]
@[simp] theorem State.wr_readback (s : State) (x : Fld) (v : Nat) : (s.wr x v).readback = s.readback := by by_cases h : x.wide = true <;> simp [State.wr, h]
@[simp] theorem State.wr_mem (s : State) (x : Fld) (v : Nat) : (s.wr x v).mem = s.mem := by by_cases h : x.wide = true <;> simp [State.wr, h]
@[simp] theorem State.wr_msgs (s : State) (x : Fld) (v : Nat) : (s.wr x v).msgs = s.msgs := by by_cases h : x.wide = true <;> simp [State.wr, h]
@[simp] theorem State.wr_out (s : State) (x : Fld) (v : Nat) : (s.wr x v).out = s.out := by by_cases h : x.wide = true <;> simp [State.wr, h]
@[simp] theorem State.wr_core (s : State) (x : Fld) (v : Nat) : (s.wr x v).core = s.core := by by_cases h : x.wide = true <;> simp [State.wr, h]
@[simp] theorem State.wr_memory (s : State) (x : Fld) (v : Nat) : (s.wr x v).memory = s.memory := by by_cases h : x.wide = true <;> simp [State.wr, h]
@[simp] theorem State.wr_part (s : State) (x : Fld) (v : Nat) : (s.wr x v).part = s.part := by by_cases h : x.wide = true <;> simp [State.wr, h]
@[simp] theorem State.wr_tim (s : State) (x : Fld) (v : Nat) : (s.wr x v).tim = s.tim := by by_cases h : x.wide = true <;> simp [State.wr, h]
@[simp] theorem State.wr_evt (s : State) (x : Fld) (v : Nat) : (s.wr x v).evt = s.evt := by by_cases h : x.wide = true <;> simp [State.wr, h]
@[simp] theorem State.wr_saf (s : State) (x : Fld) (v : Nat) : (s.wr x v).saf = s.saf := by by_cases h : x.wide = true <;> simp [State.wr, h]
@[simp] theorem State.wr_sys (s : State) (x : Fld) (v : Nat) : (s.wr x v).sys = s.sys := by by_cases h : x.wide = true <;> simp [State.wr, h]
@[simp] theorem State.wr_pwr (s : State) (x : Fld) (v : Nat) : (s.wr x v).pwr = s.pwr := by by_cases h : x.wide = true <;> simp [State.wr, h]
@[simp] theorem State.wr_queues (s : State) (x : Fld) (v : Nat) : (s.wr x v).queues = s.queues := by by_cases h : x.wide = true <;> simp [State.wr, h]
@[simp] theorem State.wr_vis (s : State) (x : Fld) (v : Nat) : (s.wr x v).vis = s.vis := by by_cases h : x.wide = true <;> simp [State.wr, h]
@[simp] theorem State.wr_sol (s : State) (x : Fld) (v : Nat) : (s.wr x v).sol = s.sol := by by_cases h : x.wide = true <;> simp [State.wr, h]
@[simp] theorem State.wr_ctl (s : State) (x : Fld) (v : Nat) : (s.wr x v).ctl = s.ctl := by by_cases h : x.wide = true <;> simp [State.wr, h]
@[simp] theorem State.wr_vms (s : State) (x : Fld) (v : Nat) : (s.wr x v).vms = s.vms := by by_cases h : x.wide = true <;> simp [State.wr, h]
@[simp] theorem State.wr_lnk (s : State) (x : Fld) (v : Nat) : (s.wr x v).lnk = s.lnk := by by_cases h : x.wide = true <;> simp [State.wr, h]
@[simp] theorem State.wr_qp (s : State) (x : Fld) (v : Nat) : (s.wr x v).qp = s.qp := by by_cases h : x.wide = true <;> simp [State.wr, h]
@[simp] theorem State.wr_rings (s : State) (x : Fld) (v : Nat) : (s.wr x v).rings = s.rings := by by_cases h : x.wide = true <;> simp [State.wr, h]
@[simp] theorem State.wr_can (s : State) (x : Fld) (v : Nat) : (s.wr x v).can = s.can := by by_cases h : x.wide = true <;> simp [State.wr, h]
@[simp] theorem State.wr_net (s : State) (x : Fld) (v : Nat) : (s.wr x v).net = s.net := by by_cases h : x.wide = true <;> simp [State.wr, h]
@[simp] theorem State.wr_ser (s : State) (x : Fld) (v : Nat) : (s.wr x v).ser = s.ser := by by_cases h : x.wide = true <;> simp [State.wr, h]
@[simp] theorem State.wr_ckp (s : State) (x : Fld) (v : Nat) : (s.wr x v).ckp = s.ckp := by by_cases h : x.wide = true <;> simp [State.wr, h]
@[simp] theorem State.wr_free (s : State) (x : Fld) (v : Nat) : (s.wr x v).free = s.free := by by_cases h : x.wide = true <;> simp [State.wr, h]

@[simp] theorem State.bump_pending (s : State) (x : Fld) : (s.bump x).pending = s.pending := by unfold State.bump State.bumpBy; simp
@[simp] theorem State.bump_hold (s : State) (x : Fld) : (s.bump x).hold = s.hold := by unfold State.bump State.bumpBy; simp
@[simp] theorem State.bump_readback (s : State) (x : Fld) : (s.bump x).readback = s.readback := by unfold State.bump State.bumpBy; simp
@[simp] theorem State.bump_mem (s : State) (x : Fld) : (s.bump x).mem = s.mem := by unfold State.bump State.bumpBy; simp
@[simp] theorem State.bump_msgs (s : State) (x : Fld) : (s.bump x).msgs = s.msgs := by unfold State.bump State.bumpBy; simp
@[simp] theorem State.bump_out (s : State) (x : Fld) : (s.bump x).out = s.out := by unfold State.bump State.bumpBy; simp
@[simp] theorem State.bump_core (s : State) (x : Fld) : (s.bump x).core = s.core := by unfold State.bump State.bumpBy; simp
@[simp] theorem State.bump_memory (s : State) (x : Fld) : (s.bump x).memory = s.memory := by unfold State.bump State.bumpBy; simp
@[simp] theorem State.bump_part (s : State) (x : Fld) : (s.bump x).part = s.part := by unfold State.bump State.bumpBy; simp
@[simp] theorem State.bump_tim (s : State) (x : Fld) : (s.bump x).tim = s.tim := by unfold State.bump State.bumpBy; simp
@[simp] theorem State.bump_evt (s : State) (x : Fld) : (s.bump x).evt = s.evt := by unfold State.bump State.bumpBy; simp
@[simp] theorem State.bump_saf (s : State) (x : Fld) : (s.bump x).saf = s.saf := by unfold State.bump State.bumpBy; simp
@[simp] theorem State.bump_sys (s : State) (x : Fld) : (s.bump x).sys = s.sys := by unfold State.bump State.bumpBy; simp
@[simp] theorem State.bump_pwr (s : State) (x : Fld) : (s.bump x).pwr = s.pwr := by unfold State.bump State.bumpBy; simp
@[simp] theorem State.bump_queues (s : State) (x : Fld) : (s.bump x).queues = s.queues := by unfold State.bump State.bumpBy; simp
@[simp] theorem State.bump_vis (s : State) (x : Fld) : (s.bump x).vis = s.vis := by unfold State.bump State.bumpBy; simp
@[simp] theorem State.bump_sol (s : State) (x : Fld) : (s.bump x).sol = s.sol := by unfold State.bump State.bumpBy; simp
@[simp] theorem State.bump_ctl (s : State) (x : Fld) : (s.bump x).ctl = s.ctl := by unfold State.bump State.bumpBy; simp
@[simp] theorem State.bump_vms (s : State) (x : Fld) : (s.bump x).vms = s.vms := by unfold State.bump State.bumpBy; simp
@[simp] theorem State.bump_lnk (s : State) (x : Fld) : (s.bump x).lnk = s.lnk := by unfold State.bump State.bumpBy; simp
@[simp] theorem State.bump_qp (s : State) (x : Fld) : (s.bump x).qp = s.qp := by unfold State.bump State.bumpBy; simp
@[simp] theorem State.bump_rings (s : State) (x : Fld) : (s.bump x).rings = s.rings := by unfold State.bump State.bumpBy; simp
@[simp] theorem State.bump_can (s : State) (x : Fld) : (s.bump x).can = s.can := by unfold State.bump State.bumpBy; simp
@[simp] theorem State.bump_net (s : State) (x : Fld) : (s.bump x).net = s.net := by unfold State.bump State.bumpBy; simp
@[simp] theorem State.bump_ser (s : State) (x : Fld) : (s.bump x).ser = s.ser := by unfold State.bump State.bumpBy; simp
@[simp] theorem State.bump_ckp (s : State) (x : Fld) : (s.bump x).ckp = s.ckp := by unfold State.bump State.bumpBy; simp
@[simp] theorem State.bump_free (s : State) (x : Fld) : (s.bump x).free = s.free := by unfold State.bump State.bumpBy; simp
@[simp] theorem State.bumpBy_pending (s : State) (x : Fld) (n : Nat) : (s.bumpBy x n).pending = s.pending := by unfold State.bumpBy; simp
@[simp] theorem State.bumpBy_hold (s : State) (x : Fld) (n : Nat) : (s.bumpBy x n).hold = s.hold := by unfold State.bumpBy; simp
@[simp] theorem State.bumpBy_readback (s : State) (x : Fld) (n : Nat) : (s.bumpBy x n).readback = s.readback := by unfold State.bumpBy; simp
@[simp] theorem State.bumpBy_mem (s : State) (x : Fld) (n : Nat) : (s.bumpBy x n).mem = s.mem := by unfold State.bumpBy; simp
@[simp] theorem State.bumpBy_msgs (s : State) (x : Fld) (n : Nat) : (s.bumpBy x n).msgs = s.msgs := by unfold State.bumpBy; simp
@[simp] theorem State.bumpBy_out (s : State) (x : Fld) (n : Nat) : (s.bumpBy x n).out = s.out := by unfold State.bumpBy; simp
@[simp] theorem State.bumpBy_core (s : State) (x : Fld) (n : Nat) : (s.bumpBy x n).core = s.core := by unfold State.bumpBy; simp
@[simp] theorem State.bumpBy_memory (s : State) (x : Fld) (n : Nat) : (s.bumpBy x n).memory = s.memory := by unfold State.bumpBy; simp
@[simp] theorem State.bumpBy_part (s : State) (x : Fld) (n : Nat) : (s.bumpBy x n).part = s.part := by unfold State.bumpBy; simp
@[simp] theorem State.bumpBy_tim (s : State) (x : Fld) (n : Nat) : (s.bumpBy x n).tim = s.tim := by unfold State.bumpBy; simp
@[simp] theorem State.bumpBy_evt (s : State) (x : Fld) (n : Nat) : (s.bumpBy x n).evt = s.evt := by unfold State.bumpBy; simp
@[simp] theorem State.bumpBy_saf (s : State) (x : Fld) (n : Nat) : (s.bumpBy x n).saf = s.saf := by unfold State.bumpBy; simp
@[simp] theorem State.bumpBy_sys (s : State) (x : Fld) (n : Nat) : (s.bumpBy x n).sys = s.sys := by unfold State.bumpBy; simp
@[simp] theorem State.bumpBy_pwr (s : State) (x : Fld) (n : Nat) : (s.bumpBy x n).pwr = s.pwr := by unfold State.bumpBy; simp
@[simp] theorem State.bumpBy_queues (s : State) (x : Fld) (n : Nat) : (s.bumpBy x n).queues = s.queues := by unfold State.bumpBy; simp
@[simp] theorem State.bumpBy_vis (s : State) (x : Fld) (n : Nat) : (s.bumpBy x n).vis = s.vis := by unfold State.bumpBy; simp
@[simp] theorem State.bumpBy_sol (s : State) (x : Fld) (n : Nat) : (s.bumpBy x n).sol = s.sol := by unfold State.bumpBy; simp
@[simp] theorem State.bumpBy_ctl (s : State) (x : Fld) (n : Nat) : (s.bumpBy x n).ctl = s.ctl := by unfold State.bumpBy; simp
@[simp] theorem State.bumpBy_vms (s : State) (x : Fld) (n : Nat) : (s.bumpBy x n).vms = s.vms := by unfold State.bumpBy; simp
@[simp] theorem State.bumpBy_lnk (s : State) (x : Fld) (n : Nat) : (s.bumpBy x n).lnk = s.lnk := by unfold State.bumpBy; simp
@[simp] theorem State.bumpBy_qp (s : State) (x : Fld) (n : Nat) : (s.bumpBy x n).qp = s.qp := by unfold State.bumpBy; simp
@[simp] theorem State.bumpBy_rings (s : State) (x : Fld) (n : Nat) : (s.bumpBy x n).rings = s.rings := by unfold State.bumpBy; simp
@[simp] theorem State.bumpBy_can (s : State) (x : Fld) (n : Nat) : (s.bumpBy x n).can = s.can := by unfold State.bumpBy; simp
@[simp] theorem State.bumpBy_net (s : State) (x : Fld) (n : Nat) : (s.bumpBy x n).net = s.net := by unfold State.bumpBy; simp
@[simp] theorem State.bumpBy_ser (s : State) (x : Fld) (n : Nat) : (s.bumpBy x n).ser = s.ser := by unfold State.bumpBy; simp
@[simp] theorem State.bumpBy_ckp (s : State) (x : Fld) (n : Nat) : (s.bumpBy x n).ckp = s.ckp := by unfold State.bumpBy; simp
@[simp] theorem State.bumpBy_free (s : State) (x : Fld) (n : Nat) : (s.bumpBy x n).free = s.free := by unfold State.bumpBy; simp
@[simp] theorem State.bumpWrap_pending (s : State) (x : Fld) (n : Nat) : (s.bumpWrap x n).pending = s.pending := by unfold State.bumpWrap; simp
@[simp] theorem State.bumpWrap_hold (s : State) (x : Fld) (n : Nat) : (s.bumpWrap x n).hold = s.hold := by unfold State.bumpWrap; simp
@[simp] theorem State.bumpWrap_readback (s : State) (x : Fld) (n : Nat) : (s.bumpWrap x n).readback = s.readback := by unfold State.bumpWrap; simp
@[simp] theorem State.bumpWrap_mem (s : State) (x : Fld) (n : Nat) : (s.bumpWrap x n).mem = s.mem := by unfold State.bumpWrap; simp
@[simp] theorem State.bumpWrap_msgs (s : State) (x : Fld) (n : Nat) : (s.bumpWrap x n).msgs = s.msgs := by unfold State.bumpWrap; simp
@[simp] theorem State.bumpWrap_out (s : State) (x : Fld) (n : Nat) : (s.bumpWrap x n).out = s.out := by unfold State.bumpWrap; simp
@[simp] theorem State.bumpWrap_core (s : State) (x : Fld) (n : Nat) : (s.bumpWrap x n).core = s.core := by unfold State.bumpWrap; simp
@[simp] theorem State.bumpWrap_memory (s : State) (x : Fld) (n : Nat) : (s.bumpWrap x n).memory = s.memory := by unfold State.bumpWrap; simp
@[simp] theorem State.bumpWrap_part (s : State) (x : Fld) (n : Nat) : (s.bumpWrap x n).part = s.part := by unfold State.bumpWrap; simp
@[simp] theorem State.bumpWrap_tim (s : State) (x : Fld) (n : Nat) : (s.bumpWrap x n).tim = s.tim := by unfold State.bumpWrap; simp
@[simp] theorem State.bumpWrap_evt (s : State) (x : Fld) (n : Nat) : (s.bumpWrap x n).evt = s.evt := by unfold State.bumpWrap; simp
@[simp] theorem State.bumpWrap_saf (s : State) (x : Fld) (n : Nat) : (s.bumpWrap x n).saf = s.saf := by unfold State.bumpWrap; simp
@[simp] theorem State.bumpWrap_sys (s : State) (x : Fld) (n : Nat) : (s.bumpWrap x n).sys = s.sys := by unfold State.bumpWrap; simp
@[simp] theorem State.bumpWrap_pwr (s : State) (x : Fld) (n : Nat) : (s.bumpWrap x n).pwr = s.pwr := by unfold State.bumpWrap; simp
@[simp] theorem State.bumpWrap_queues (s : State) (x : Fld) (n : Nat) : (s.bumpWrap x n).queues = s.queues := by unfold State.bumpWrap; simp
@[simp] theorem State.bumpWrap_vis (s : State) (x : Fld) (n : Nat) : (s.bumpWrap x n).vis = s.vis := by unfold State.bumpWrap; simp
@[simp] theorem State.bumpWrap_sol (s : State) (x : Fld) (n : Nat) : (s.bumpWrap x n).sol = s.sol := by unfold State.bumpWrap; simp
@[simp] theorem State.bumpWrap_ctl (s : State) (x : Fld) (n : Nat) : (s.bumpWrap x n).ctl = s.ctl := by unfold State.bumpWrap; simp
@[simp] theorem State.bumpWrap_vms (s : State) (x : Fld) (n : Nat) : (s.bumpWrap x n).vms = s.vms := by unfold State.bumpWrap; simp
@[simp] theorem State.bumpWrap_lnk (s : State) (x : Fld) (n : Nat) : (s.bumpWrap x n).lnk = s.lnk := by unfold State.bumpWrap; simp
@[simp] theorem State.bumpWrap_qp (s : State) (x : Fld) (n : Nat) : (s.bumpWrap x n).qp = s.qp := by unfold State.bumpWrap; simp
@[simp] theorem State.bumpWrap_rings (s : State) (x : Fld) (n : Nat) : (s.bumpWrap x n).rings = s.rings := by unfold State.bumpWrap; simp
@[simp] theorem State.bumpWrap_can (s : State) (x : Fld) (n : Nat) : (s.bumpWrap x n).can = s.can := by unfold State.bumpWrap; simp
@[simp] theorem State.bumpWrap_net (s : State) (x : Fld) (n : Nat) : (s.bumpWrap x n).net = s.net := by unfold State.bumpWrap; simp
@[simp] theorem State.bumpWrap_ser (s : State) (x : Fld) (n : Nat) : (s.bumpWrap x n).ser = s.ser := by unfold State.bumpWrap; simp
@[simp] theorem State.bumpWrap_ckp (s : State) (x : Fld) (n : Nat) : (s.bumpWrap x n).ckp = s.ckp := by unfold State.bumpWrap; simp
@[simp] theorem State.bumpWrap_free (s : State) (x : Fld) (n : Nat) : (s.bumpWrap x n).free = s.free := by unfold State.bumpWrap; simp

@[simp] theorem State.emit_pending (s : State) (e : Ext) : (s.emit e).pending = s.pending := (rfl)
@[simp] theorem State.emit_regs (s : State) (e : Ext) : (s.emit e).regs = s.regs := (rfl)
@[simp] theorem State.emit_hold (s : State) (e : Ext) : (s.emit e).hold = s.hold := (rfl)
@[simp] theorem State.emit_readback (s : State) (e : Ext) : (s.emit e).readback = s.readback := (rfl)
@[simp] theorem State.emit_mem (s : State) (e : Ext) : (s.emit e).mem = s.mem := (rfl)
@[simp] theorem State.emit_msgs (s : State) (e : Ext) : (s.emit e).msgs = s.msgs := (rfl)
@[simp] theorem State.emit_out (s : State) (e : Ext) : (s.emit e).out = s.out ++ [e] := (rfl)
@[simp] theorem State.emit_core (s : State) (e : Ext) : (s.emit e).core = s.core := (rfl)
@[simp] theorem State.emit_memory (s : State) (e : Ext) : (s.emit e).memory = s.memory := (rfl)
@[simp] theorem State.emit_part (s : State) (e : Ext) : (s.emit e).part = s.part := (rfl)
@[simp] theorem State.emit_tim (s : State) (e : Ext) : (s.emit e).tim = s.tim := (rfl)
@[simp] theorem State.emit_evt (s : State) (e : Ext) : (s.emit e).evt = s.evt := (rfl)
@[simp] theorem State.emit_saf (s : State) (e : Ext) : (s.emit e).saf = s.saf := (rfl)
@[simp] theorem State.emit_sys (s : State) (e : Ext) : (s.emit e).sys = s.sys := (rfl)
@[simp] theorem State.emit_pwr (s : State) (e : Ext) : (s.emit e).pwr = s.pwr := (rfl)
@[simp] theorem State.emit_queues (s : State) (e : Ext) : (s.emit e).queues = s.queues := (rfl)
@[simp] theorem State.emit_vis (s : State) (e : Ext) : (s.emit e).vis = s.vis := (rfl)
@[simp] theorem State.emit_sol (s : State) (e : Ext) : (s.emit e).sol = s.sol := (rfl)
@[simp] theorem State.emit_ctl (s : State) (e : Ext) : (s.emit e).ctl = s.ctl := (rfl)
@[simp] theorem State.emit_vms (s : State) (e : Ext) : (s.emit e).vms = s.vms := (rfl)
@[simp] theorem State.emit_lnk (s : State) (e : Ext) : (s.emit e).lnk = s.lnk := (rfl)
@[simp] theorem State.emit_qp (s : State) (e : Ext) : (s.emit e).qp = s.qp := (rfl)
@[simp] theorem State.emit_rings (s : State) (e : Ext) : (s.emit e).rings = s.rings := (rfl)
@[simp] theorem State.emit_can (s : State) (e : Ext) : (s.emit e).can = s.can := (rfl)
@[simp] theorem State.emit_net (s : State) (e : Ext) : (s.emit e).net = s.net := (rfl)
@[simp] theorem State.emit_ser (s : State) (e : Ext) : (s.emit e).ser = s.ser := (rfl)
@[simp] theorem State.emit_ckp (s : State) (e : Ext) : (s.emit e).ckp = s.ckp := (rfl)
@[simp] theorem State.emit_free (s : State) (e : Ext) : (s.emit e).free = s.free := (rfl)
@[simp] theorem State.draw_pending (s : State)  : s.draw.2.pending = s.pending := (rfl)
@[simp] theorem State.draw_regs (s : State)  : s.draw.2.regs = s.regs := (rfl)
@[simp] theorem State.draw_hold (s : State)  : s.draw.2.hold = s.hold := (rfl)
@[simp] theorem State.draw_readback (s : State)  : s.draw.2.readback = s.readback := (rfl)
@[simp] theorem State.draw_mem (s : State)  : s.draw.2.mem = s.mem := (rfl)
@[simp] theorem State.draw_msgs (s : State)  : s.draw.2.msgs = s.msgs := (rfl)
@[simp] theorem State.draw_out (s : State)  : s.draw.2.out = s.out := (rfl)
@[simp] theorem State.draw_core (s : State)  : s.draw.2.core = s.core := (rfl)
@[simp] theorem State.draw_memory (s : State)  : s.draw.2.memory = s.memory := (rfl)
@[simp] theorem State.draw_part (s : State)  : s.draw.2.part = s.part := (rfl)
@[simp] theorem State.draw_tim (s : State)  : s.draw.2.tim = s.tim := (rfl)
@[simp] theorem State.draw_evt (s : State)  : s.draw.2.evt = s.evt := (rfl)
@[simp] theorem State.draw_saf (s : State)  : s.draw.2.saf = s.saf := (rfl)
@[simp] theorem State.draw_sys (s : State)  : s.draw.2.sys = s.sys := (rfl)
@[simp] theorem State.draw_pwr (s : State)  : s.draw.2.pwr = s.pwr := (rfl)
@[simp] theorem State.draw_queues (s : State)  : s.draw.2.queues = s.queues := (rfl)
@[simp] theorem State.draw_vis (s : State)  : s.draw.2.vis = s.vis := (rfl)
@[simp] theorem State.draw_sol (s : State)  : s.draw.2.sol = s.sol := (rfl)
@[simp] theorem State.draw_ctl (s : State)  : s.draw.2.ctl = s.ctl := (rfl)
@[simp] theorem State.draw_vms (s : State)  : s.draw.2.vms = s.vms := (rfl)
@[simp] theorem State.draw_lnk (s : State)  : s.draw.2.lnk = s.lnk := (rfl)
@[simp] theorem State.draw_qp (s : State)  : s.draw.2.qp = s.qp := (rfl)
@[simp] theorem State.draw_rings (s : State)  : s.draw.2.rings = s.rings := (rfl)
@[simp] theorem State.draw_can (s : State)  : s.draw.2.can = s.can := (rfl)
@[simp] theorem State.draw_net (s : State)  : s.draw.2.net = s.net := (rfl)
@[simp] theorem State.draw_ser (s : State)  : s.draw.2.ser = s.ser := (rfl)
@[simp] theorem State.draw_ckp (s : State)  : s.draw.2.ckp = s.ckp := (rfl)
@[simp] theorem State.draw_free (s : State)  : s.draw.2.free = s.free + 1 := (rfl)
@[simp] theorem State.sendAll_pending (s : State) (l : List Msg) : (s.sendAll l).pending = s.pending := (rfl)
@[simp] theorem State.sendAll_regs (s : State) (l : List Msg) : (s.sendAll l).regs = s.regs := (rfl)
@[simp] theorem State.sendAll_hold (s : State) (l : List Msg) : (s.sendAll l).hold = s.hold := (rfl)
@[simp] theorem State.sendAll_readback (s : State) (l : List Msg) : (s.sendAll l).readback = s.readback := (rfl)
@[simp] theorem State.sendAll_mem (s : State) (l : List Msg) : (s.sendAll l).mem = s.mem := (rfl)
@[simp] theorem State.sendAll_msgs (s : State) (l : List Msg) : (s.sendAll l).msgs = s.msgs ++ l := (rfl)
@[simp] theorem State.sendAll_out (s : State) (l : List Msg) : (s.sendAll l).out = s.out := (rfl)
@[simp] theorem State.sendAll_core (s : State) (l : List Msg) : (s.sendAll l).core = s.core := (rfl)
@[simp] theorem State.sendAll_memory (s : State) (l : List Msg) : (s.sendAll l).memory = s.memory := (rfl)
@[simp] theorem State.sendAll_part (s : State) (l : List Msg) : (s.sendAll l).part = s.part := (rfl)
@[simp] theorem State.sendAll_tim (s : State) (l : List Msg) : (s.sendAll l).tim = s.tim := (rfl)
@[simp] theorem State.sendAll_evt (s : State) (l : List Msg) : (s.sendAll l).evt = s.evt := (rfl)
@[simp] theorem State.sendAll_saf (s : State) (l : List Msg) : (s.sendAll l).saf = s.saf := (rfl)
@[simp] theorem State.sendAll_sys (s : State) (l : List Msg) : (s.sendAll l).sys = s.sys := (rfl)
@[simp] theorem State.sendAll_pwr (s : State) (l : List Msg) : (s.sendAll l).pwr = s.pwr := (rfl)
@[simp] theorem State.sendAll_queues (s : State) (l : List Msg) : (s.sendAll l).queues = s.queues := (rfl)
@[simp] theorem State.sendAll_vis (s : State) (l : List Msg) : (s.sendAll l).vis = s.vis := (rfl)
@[simp] theorem State.sendAll_sol (s : State) (l : List Msg) : (s.sendAll l).sol = s.sol := (rfl)
@[simp] theorem State.sendAll_ctl (s : State) (l : List Msg) : (s.sendAll l).ctl = s.ctl := (rfl)
@[simp] theorem State.sendAll_vms (s : State) (l : List Msg) : (s.sendAll l).vms = s.vms := (rfl)
@[simp] theorem State.sendAll_lnk (s : State) (l : List Msg) : (s.sendAll l).lnk = s.lnk := (rfl)
@[simp] theorem State.sendAll_qp (s : State) (l : List Msg) : (s.sendAll l).qp = s.qp := (rfl)
@[simp] theorem State.sendAll_rings (s : State) (l : List Msg) : (s.sendAll l).rings = s.rings := (rfl)
@[simp] theorem State.sendAll_can (s : State) (l : List Msg) : (s.sendAll l).can = s.can := (rfl)
@[simp] theorem State.sendAll_net (s : State) (l : List Msg) : (s.sendAll l).net = s.net := (rfl)
@[simp] theorem State.sendAll_ser (s : State) (l : List Msg) : (s.sendAll l).ser = s.ser := (rfl)
@[simp] theorem State.sendAll_ckp (s : State) (l : List Msg) : (s.sendAll l).ckp = s.ckp := (rfl)
@[simp] theorem State.sendAll_free (s : State) (l : List Msg) : (s.sendAll l).free = s.free := (rfl)

@[simp] theorem State.setRaw_pending (s : State) (k v : Nat) : (s.setRaw k v).pending = s.pending := (rfl)
@[simp] theorem State.setRaw_regs (s : State) (k v : Nat) : (s.setRaw k v).regs = s.regs := (rfl)
@[simp] theorem State.setRaw_hold (s : State) (k v : Nat) : (s.setRaw k v).hold = s.hold := (rfl)
@[simp] theorem State.setRaw_readback (s : State) (k v : Nat) : (s.setRaw k v).readback = s.readback := (rfl)
@[simp] theorem State.setRaw_msgs (s : State) (k v : Nat) : (s.setRaw k v).msgs = s.msgs := (rfl)
@[simp] theorem State.setRaw_out (s : State) (k v : Nat) : (s.setRaw k v).out = s.out := (rfl)
@[simp] theorem State.setRaw_core (s : State) (k v : Nat) : (s.setRaw k v).core = s.core := (rfl)
@[simp] theorem State.setRaw_memory (s : State) (k v : Nat) : (s.setRaw k v).memory = s.memory := (rfl)
@[simp] theorem State.setRaw_part (s : State) (k v : Nat) : (s.setRaw k v).part = s.part := (rfl)
@[simp] theorem State.setRaw_tim (s : State) (k v : Nat) : (s.setRaw k v).tim = s.tim := (rfl)
@[simp] theorem State.setRaw_evt (s : State) (k v : Nat) : (s.setRaw k v).evt = s.evt := (rfl)
@[simp] theorem State.setRaw_saf (s : State) (k v : Nat) : (s.setRaw k v).saf = s.saf := (rfl)
@[simp] theorem State.setRaw_sys (s : State) (k v : Nat) : (s.setRaw k v).sys = s.sys := (rfl)
@[simp] theorem State.setRaw_pwr (s : State) (k v : Nat) : (s.setRaw k v).pwr = s.pwr := (rfl)
@[simp] theorem State.setRaw_queues (s : State) (k v : Nat) : (s.setRaw k v).queues = s.queues := (rfl)
@[simp] theorem State.setRaw_vis (s : State) (k v : Nat) : (s.setRaw k v).vis = s.vis := (rfl)
@[simp] theorem State.setRaw_sol (s : State) (k v : Nat) : (s.setRaw k v).sol = s.sol := (rfl)
@[simp] theorem State.setRaw_ctl (s : State) (k v : Nat) : (s.setRaw k v).ctl = s.ctl := (rfl)
@[simp] theorem State.setRaw_vms (s : State) (k v : Nat) : (s.setRaw k v).vms = s.vms := (rfl)
@[simp] theorem State.setRaw_lnk (s : State) (k v : Nat) : (s.setRaw k v).lnk = s.lnk := (rfl)
@[simp] theorem State.setRaw_qp (s : State) (k v : Nat) : (s.setRaw k v).qp = s.qp := (rfl)
@[simp] theorem State.setRaw_rings (s : State) (k v : Nat) : (s.setRaw k v).rings = s.rings := (rfl)
@[simp] theorem State.setRaw_can (s : State) (k v : Nat) : (s.setRaw k v).can = s.can := (rfl)
@[simp] theorem State.setRaw_net (s : State) (k v : Nat) : (s.setRaw k v).net = s.net := (rfl)
@[simp] theorem State.setRaw_ser (s : State) (k v : Nat) : (s.setRaw k v).ser = s.ser := (rfl)
@[simp] theorem State.setRaw_ckp (s : State) (k v : Nat) : (s.setRaw k v).ckp = s.ckp := (rfl)
@[simp] theorem State.setRaw_free (s : State) (k v : Nat) : (s.setRaw k v).free = s.free := (rfl)
@[simp] theorem State.setSynd_pending (s : State) (k v : Nat) : (s.setSynd k v).pending = s.pending := (rfl)
@[simp] theorem State.setSynd_regs (s : State) (k v : Nat) : (s.setSynd k v).regs = s.regs := (rfl)
@[simp] theorem State.setSynd_hold (s : State) (k v : Nat) : (s.setSynd k v).hold = s.hold := (rfl)
@[simp] theorem State.setSynd_readback (s : State) (k v : Nat) : (s.setSynd k v).readback = s.readback := (rfl)
@[simp] theorem State.setSynd_mem (s : State) (k v : Nat) : (s.setSynd k v).mem = s.mem := (rfl)
@[simp] theorem State.setSynd_msgs (s : State) (k v : Nat) : (s.setSynd k v).msgs = s.msgs := (rfl)
@[simp] theorem State.setSynd_out (s : State) (k v : Nat) : (s.setSynd k v).out = s.out := (rfl)
@[simp] theorem State.setSynd_core (s : State) (k v : Nat) : (s.setSynd k v).core = s.core := (rfl)
@[simp] theorem State.setSynd_part (s : State) (k v : Nat) : (s.setSynd k v).part = s.part := (rfl)
@[simp] theorem State.setSynd_tim (s : State) (k v : Nat) : (s.setSynd k v).tim = s.tim := (rfl)
@[simp] theorem State.setSynd_evt (s : State) (k v : Nat) : (s.setSynd k v).evt = s.evt := (rfl)
@[simp] theorem State.setSynd_saf (s : State) (k v : Nat) : (s.setSynd k v).saf = s.saf := (rfl)
@[simp] theorem State.setSynd_sys (s : State) (k v : Nat) : (s.setSynd k v).sys = s.sys := (rfl)
@[simp] theorem State.setSynd_pwr (s : State) (k v : Nat) : (s.setSynd k v).pwr = s.pwr := (rfl)
@[simp] theorem State.setSynd_queues (s : State) (k v : Nat) : (s.setSynd k v).queues = s.queues := (rfl)
@[simp] theorem State.setSynd_vis (s : State) (k v : Nat) : (s.setSynd k v).vis = s.vis := (rfl)
@[simp] theorem State.setSynd_sol (s : State) (k v : Nat) : (s.setSynd k v).sol = s.sol := (rfl)
@[simp] theorem State.setSynd_ctl (s : State) (k v : Nat) : (s.setSynd k v).ctl = s.ctl := (rfl)
@[simp] theorem State.setSynd_vms (s : State) (k v : Nat) : (s.setSynd k v).vms = s.vms := (rfl)
@[simp] theorem State.setSynd_lnk (s : State) (k v : Nat) : (s.setSynd k v).lnk = s.lnk := (rfl)
@[simp] theorem State.setSynd_qp (s : State) (k v : Nat) : (s.setSynd k v).qp = s.qp := (rfl)
@[simp] theorem State.setSynd_rings (s : State) (k v : Nat) : (s.setSynd k v).rings = s.rings := (rfl)
@[simp] theorem State.setSynd_can (s : State) (k v : Nat) : (s.setSynd k v).can = s.can := (rfl)
@[simp] theorem State.setSynd_net (s : State) (k v : Nat) : (s.setSynd k v).net = s.net := (rfl)
@[simp] theorem State.setSynd_ser (s : State) (k v : Nat) : (s.setSynd k v).ser = s.ser := (rfl)
@[simp] theorem State.setSynd_ckp (s : State) (k v : Nat) : (s.setSynd k v).ckp = s.ckp := (rfl)
@[simp] theorem State.setSynd_free (s : State) (k v : Nat) : (s.setSynd k v).free = s.free := (rfl)
@[simp] theorem State.fillRange_pending (s : State) (lo hi : Nat) : (s.fillRange lo hi).pending = s.pending := (rfl)
@[simp] theorem State.fillRange_regs (s : State) (lo hi : Nat) : (s.fillRange lo hi).regs = s.regs := (rfl)
@[simp] theorem State.fillRange_hold (s : State) (lo hi : Nat) : (s.fillRange lo hi).hold = s.hold := (rfl)
@[simp] theorem State.fillRange_readback (s : State) (lo hi : Nat) : (s.fillRange lo hi).readback = s.readback := (rfl)
@[simp] theorem State.fillRange_msgs (s : State) (lo hi : Nat) : (s.fillRange lo hi).msgs = s.msgs := (rfl)
@[simp] theorem State.fillRange_out (s : State) (lo hi : Nat) : (s.fillRange lo hi).out = s.out := (rfl)
@[simp] theorem State.fillRange_core (s : State) (lo hi : Nat) : (s.fillRange lo hi).core = s.core := (rfl)
@[simp] theorem State.fillRange_part (s : State) (lo hi : Nat) : (s.fillRange lo hi).part = s.part := (rfl)
@[simp] theorem State.fillRange_tim (s : State) (lo hi : Nat) : (s.fillRange lo hi).tim = s.tim := (rfl)
@[simp] theorem State.fillRange_evt (s : State) (lo hi : Nat) : (s.fillRange lo hi).evt = s.evt := (rfl)
@[simp] theorem State.fillRange_saf (s : State) (lo hi : Nat) : (s.fillRange lo hi).saf = s.saf := (rfl)
@[simp] theorem State.fillRange_sys (s : State) (lo hi : Nat) : (s.fillRange lo hi).sys = s.sys := (rfl)
@[simp] theorem State.fillRange_pwr (s : State) (lo hi : Nat) : (s.fillRange lo hi).pwr = s.pwr := (rfl)
@[simp] theorem State.fillRange_queues (s : State) (lo hi : Nat) : (s.fillRange lo hi).queues = s.queues := (rfl)
@[simp] theorem State.fillRange_vis (s : State) (lo hi : Nat) : (s.fillRange lo hi).vis = s.vis := (rfl)
@[simp] theorem State.fillRange_sol (s : State) (lo hi : Nat) : (s.fillRange lo hi).sol = s.sol := (rfl)
@[simp] theorem State.fillRange_ctl (s : State) (lo hi : Nat) : (s.fillRange lo hi).ctl = s.ctl := (rfl)
@[simp] theorem State.fillRange_vms (s : State) (lo hi : Nat) : (s.fillRange lo hi).vms = s.vms := (rfl)
@[simp] theorem State.fillRange_lnk (s : State) (lo hi : Nat) : (s.fillRange lo hi).lnk = s.lnk := (rfl)
@[simp] theorem State.fillRange_qp (s : State) (lo hi : Nat) : (s.fillRange lo hi).qp = s.qp := (rfl)
@[simp] theorem State.fillRange_rings (s : State) (lo hi : Nat) : (s.fillRange lo hi).rings = s.rings := (rfl)
@[simp] theorem State.fillRange_can (s : State) (lo hi : Nat) : (s.fillRange lo hi).can = s.can := (rfl)
@[simp] theorem State.fillRange_net (s : State) (lo hi : Nat) : (s.fillRange lo hi).net = s.net := (rfl)
@[simp] theorem State.fillRange_ser (s : State) (lo hi : Nat) : (s.fillRange lo hi).ser = s.ser := (rfl)
@[simp] theorem State.fillRange_ckp (s : State) (lo hi : Nat) : (s.fillRange lo hi).ckp = s.ckp := (rfl)
@[simp] theorem State.fillRange_free (s : State) (lo hi : Nat) : (s.fillRange lo hi).free = s.free := (rfl)
@[simp] theorem State.setQueue_pending (s : State) (b : Nat) (v : QueueSt) : (s.setQueue b v).pending = s.pending := (rfl)
@[simp] theorem State.setQueue_regs (s : State) (b : Nat) (v : QueueSt) : (s.setQueue b v).regs = s.regs := (rfl)
@[simp] theorem State.setQueue_hold (s : State) (b : Nat) (v : QueueSt) : (s.setQueue b v).hold = s.hold := (rfl)
@[simp] theorem State.setQueue_readback (s : State) (b : Nat) (v : QueueSt) : (s.setQueue b v).readback = s.readback := (rfl)
@[simp] theorem State.setQueue_mem (s : State) (b : Nat) (v : QueueSt) : (s.setQueue b v).mem = s.mem := (rfl)
@[simp] theorem State.setQueue_msgs (s : State) (b : Nat) (v : QueueSt) : (s.setQueue b v).msgs = s.msgs := (rfl)
@[simp] theorem State.setQueue_out (s : State) (b : Nat) (v : QueueSt) : (s.setQueue b v).out = s.out := (rfl)
@[simp] theorem State.setQueue_core (s : State) (b : Nat) (v : QueueSt) : (s.setQueue b v).core = s.core := (rfl)
@[simp] theorem State.setQueue_memory (s : State) (b : Nat) (v : QueueSt) : (s.setQueue b v).memory = s.memory := (rfl)
@[simp] theorem State.setQueue_part (s : State) (b : Nat) (v : QueueSt) : (s.setQueue b v).part = s.part := (rfl)
@[simp] theorem State.setQueue_tim (s : State) (b : Nat) (v : QueueSt) : (s.setQueue b v).tim = s.tim := (rfl)
@[simp] theorem State.setQueue_evt (s : State) (b : Nat) (v : QueueSt) : (s.setQueue b v).evt = s.evt := (rfl)
@[simp] theorem State.setQueue_saf (s : State) (b : Nat) (v : QueueSt) : (s.setQueue b v).saf = s.saf := (rfl)
@[simp] theorem State.setQueue_sys (s : State) (b : Nat) (v : QueueSt) : (s.setQueue b v).sys = s.sys := (rfl)
@[simp] theorem State.setQueue_pwr (s : State) (b : Nat) (v : QueueSt) : (s.setQueue b v).pwr = s.pwr := (rfl)
@[simp] theorem State.setQueue_vis (s : State) (b : Nat) (v : QueueSt) : (s.setQueue b v).vis = s.vis := (rfl)
@[simp] theorem State.setQueue_sol (s : State) (b : Nat) (v : QueueSt) : (s.setQueue b v).sol = s.sol := (rfl)
@[simp] theorem State.setQueue_ctl (s : State) (b : Nat) (v : QueueSt) : (s.setQueue b v).ctl = s.ctl := (rfl)
@[simp] theorem State.setQueue_vms (s : State) (b : Nat) (v : QueueSt) : (s.setQueue b v).vms = s.vms := (rfl)
@[simp] theorem State.setQueue_lnk (s : State) (b : Nat) (v : QueueSt) : (s.setQueue b v).lnk = s.lnk := (rfl)
@[simp] theorem State.setQueue_qp (s : State) (b : Nat) (v : QueueSt) : (s.setQueue b v).qp = s.qp := (rfl)
@[simp] theorem State.setQueue_rings (s : State) (b : Nat) (v : QueueSt) : (s.setQueue b v).rings = s.rings := (rfl)
@[simp] theorem State.setQueue_can (s : State) (b : Nat) (v : QueueSt) : (s.setQueue b v).can = s.can := (rfl)
@[simp] theorem State.setQueue_net (s : State) (b : Nat) (v : QueueSt) : (s.setQueue b v).net = s.net := (rfl)
@[simp] theorem State.setQueue_ser (s : State) (b : Nat) (v : QueueSt) : (s.setQueue b v).ser = s.ser := (rfl)
@[simp] theorem State.setQueue_ckp (s : State) (b : Nat) (v : QueueSt) : (s.setQueue b v).ckp = s.ckp := (rfl)
@[simp] theorem State.setQueue_free (s : State) (b : Nat) (v : QueueSt) : (s.setQueue b v).free = s.free := (rfl)
@[simp] theorem State.setRing_pending (s : State) (b : Nat) (v : RingSt) : (s.setRing b v).pending = s.pending := (rfl)
@[simp] theorem State.setRing_regs (s : State) (b : Nat) (v : RingSt) : (s.setRing b v).regs = s.regs := (rfl)
@[simp] theorem State.setRing_hold (s : State) (b : Nat) (v : RingSt) : (s.setRing b v).hold = s.hold := (rfl)
@[simp] theorem State.setRing_readback (s : State) (b : Nat) (v : RingSt) : (s.setRing b v).readback = s.readback := (rfl)
@[simp] theorem State.setRing_mem (s : State) (b : Nat) (v : RingSt) : (s.setRing b v).mem = s.mem := (rfl)
@[simp] theorem State.setRing_msgs (s : State) (b : Nat) (v : RingSt) : (s.setRing b v).msgs = s.msgs := (rfl)
@[simp] theorem State.setRing_out (s : State) (b : Nat) (v : RingSt) : (s.setRing b v).out = s.out := (rfl)
@[simp] theorem State.setRing_core (s : State) (b : Nat) (v : RingSt) : (s.setRing b v).core = s.core := (rfl)
@[simp] theorem State.setRing_memory (s : State) (b : Nat) (v : RingSt) : (s.setRing b v).memory = s.memory := (rfl)
@[simp] theorem State.setRing_part (s : State) (b : Nat) (v : RingSt) : (s.setRing b v).part = s.part := (rfl)
@[simp] theorem State.setRing_tim (s : State) (b : Nat) (v : RingSt) : (s.setRing b v).tim = s.tim := (rfl)
@[simp] theorem State.setRing_evt (s : State) (b : Nat) (v : RingSt) : (s.setRing b v).evt = s.evt := (rfl)
@[simp] theorem State.setRing_saf (s : State) (b : Nat) (v : RingSt) : (s.setRing b v).saf = s.saf := (rfl)
@[simp] theorem State.setRing_sys (s : State) (b : Nat) (v : RingSt) : (s.setRing b v).sys = s.sys := (rfl)
@[simp] theorem State.setRing_pwr (s : State) (b : Nat) (v : RingSt) : (s.setRing b v).pwr = s.pwr := (rfl)
@[simp] theorem State.setRing_queues (s : State) (b : Nat) (v : RingSt) : (s.setRing b v).queues = s.queues := (rfl)
@[simp] theorem State.setRing_vis (s : State) (b : Nat) (v : RingSt) : (s.setRing b v).vis = s.vis := (rfl)
@[simp] theorem State.setRing_sol (s : State) (b : Nat) (v : RingSt) : (s.setRing b v).sol = s.sol := (rfl)
@[simp] theorem State.setRing_ctl (s : State) (b : Nat) (v : RingSt) : (s.setRing b v).ctl = s.ctl := (rfl)
@[simp] theorem State.setRing_vms (s : State) (b : Nat) (v : RingSt) : (s.setRing b v).vms = s.vms := (rfl)
@[simp] theorem State.setRing_lnk (s : State) (b : Nat) (v : RingSt) : (s.setRing b v).lnk = s.lnk := (rfl)
@[simp] theorem State.setRing_qp (s : State) (b : Nat) (v : RingSt) : (s.setRing b v).qp = s.qp := (rfl)
@[simp] theorem State.setRing_can (s : State) (b : Nat) (v : RingSt) : (s.setRing b v).can = s.can := (rfl)
@[simp] theorem State.setRing_net (s : State) (b : Nat) (v : RingSt) : (s.setRing b v).net = s.net := (rfl)
@[simp] theorem State.setRing_ser (s : State) (b : Nat) (v : RingSt) : (s.setRing b v).ser = s.ser := (rfl)
@[simp] theorem State.setRing_ckp (s : State) (b : Nat) (v : RingSt) : (s.setRing b v).ckp = s.ckp := (rfl)
@[simp] theorem State.setRing_free (s : State) (b : Nat) (v : RingSt) : (s.setRing b v).free = s.free := (rfl)
@[simp] theorem State.setQp_pending (s : State) (b : Nat) (v : QpSt) : (s.setQp b v).pending = s.pending := (rfl)
@[simp] theorem State.setQp_regs (s : State) (b : Nat) (v : QpSt) : (s.setQp b v).regs = s.regs := (rfl)
@[simp] theorem State.setQp_hold (s : State) (b : Nat) (v : QpSt) : (s.setQp b v).hold = s.hold := (rfl)
@[simp] theorem State.setQp_readback (s : State) (b : Nat) (v : QpSt) : (s.setQp b v).readback = s.readback := (rfl)
@[simp] theorem State.setQp_mem (s : State) (b : Nat) (v : QpSt) : (s.setQp b v).mem = s.mem := (rfl)
@[simp] theorem State.setQp_msgs (s : State) (b : Nat) (v : QpSt) : (s.setQp b v).msgs = s.msgs := (rfl)
@[simp] theorem State.setQp_out (s : State) (b : Nat) (v : QpSt) : (s.setQp b v).out = s.out := (rfl)
@[simp] theorem State.setQp_core (s : State) (b : Nat) (v : QpSt) : (s.setQp b v).core = s.core := (rfl)
@[simp] theorem State.setQp_memory (s : State) (b : Nat) (v : QpSt) : (s.setQp b v).memory = s.memory := (rfl)
@[simp] theorem State.setQp_part (s : State) (b : Nat) (v : QpSt) : (s.setQp b v).part = s.part := (rfl)
@[simp] theorem State.setQp_tim (s : State) (b : Nat) (v : QpSt) : (s.setQp b v).tim = s.tim := (rfl)
@[simp] theorem State.setQp_evt (s : State) (b : Nat) (v : QpSt) : (s.setQp b v).evt = s.evt := (rfl)
@[simp] theorem State.setQp_saf (s : State) (b : Nat) (v : QpSt) : (s.setQp b v).saf = s.saf := (rfl)
@[simp] theorem State.setQp_sys (s : State) (b : Nat) (v : QpSt) : (s.setQp b v).sys = s.sys := (rfl)
@[simp] theorem State.setQp_pwr (s : State) (b : Nat) (v : QpSt) : (s.setQp b v).pwr = s.pwr := (rfl)
@[simp] theorem State.setQp_queues (s : State) (b : Nat) (v : QpSt) : (s.setQp b v).queues = s.queues := (rfl)
@[simp] theorem State.setQp_vis (s : State) (b : Nat) (v : QpSt) : (s.setQp b v).vis = s.vis := (rfl)
@[simp] theorem State.setQp_sol (s : State) (b : Nat) (v : QpSt) : (s.setQp b v).sol = s.sol := (rfl)
@[simp] theorem State.setQp_ctl (s : State) (b : Nat) (v : QpSt) : (s.setQp b v).ctl = s.ctl := (rfl)
@[simp] theorem State.setQp_vms (s : State) (b : Nat) (v : QpSt) : (s.setQp b v).vms = s.vms := (rfl)
@[simp] theorem State.setQp_lnk (s : State) (b : Nat) (v : QpSt) : (s.setQp b v).lnk = s.lnk := (rfl)
@[simp] theorem State.setQp_rings (s : State) (b : Nat) (v : QpSt) : (s.setQp b v).rings = s.rings := (rfl)
@[simp] theorem State.setQp_can (s : State) (b : Nat) (v : QpSt) : (s.setQp b v).can = s.can := (rfl)
@[simp] theorem State.setQp_net (s : State) (b : Nat) (v : QpSt) : (s.setQp b v).net = s.net := (rfl)
@[simp] theorem State.setQp_ser (s : State) (b : Nat) (v : QpSt) : (s.setQp b v).ser = s.ser := (rfl)
@[simp] theorem State.setQp_ckp (s : State) (b : Nat) (v : QpSt) : (s.setQp b v).ckp = s.ckp := (rfl)
@[simp] theorem State.setQp_free (s : State) (b : Nat) (v : QpSt) : (s.setQp b v).free = s.free := (rfl)

end Sys2Proof.Machine
end

