-- ==== Sys2Proof/Laws/Memory.lean ====
section
/-! SUPPORT. Every operation over memory keeps the canonical form, and stores touch nothing else. -/

namespace Sys2Proof.Machine

/-- Memory with its syndromes in canonical form. -/
def State.memCanon (s : State) : Bool := Memory.wf s.mem && mwf (fun _ => (0 : Byte)) s.memory.ecc

theorem State.memCanon_congr {s t : State} (h1 : t.mem = s.mem) (h2 : t.memory.ecc = s.memory.ecc) (h : s.memCanon = true) :
    t.memCanon = true := by
  unfold State.memCanon at *
  rw [h1, h2]
  exact h

/-- A fold of an operation that keeps a property keeps it. -/
theorem foldl_keeps {σ α : Type} (P : σ → Prop) (f : σ → α → σ) (hf : ∀ a x, P a → P (f a x)) (l : List α) (s : σ) (h : P s) :
    P (l.foldl f s) := by
  induction l generalizing s with
  | nil => exact h
  | cons x t ih => exact ih _ (hf _ _ h)

theorem State.setRaw_memCanon (s : State) (k v : Nat) (h : s.memCanon = true) : (s.setRaw k v).memCanon = true := by
  unfold State.memCanon Memory.wf at *
  rw [Bool.and_eq_true] at *
  refine ⟨?_, h.2⟩
  exact foldl_keeps (fun m => mwf (fun _ => (0 : Byte)) m = true) _ (fun _ _ hm => mwf_mset _ _ _ _ hm) _ _ h.1

theorem State.setSynd_memCanon (s : State) (k v : Nat) (h : s.memCanon = true) : (s.setSynd k v).memCanon = true := by
  unfold State.memCanon at *
  rw [Bool.and_eq_true] at *
  exact ⟨h.1, mwf_mset _ _ _ _ h.2⟩

theorem State.fillRange_memCanon (s : State) (lo hi : Nat) (h : s.memCanon = true) : (s.fillRange lo hi).memCanon = true := by
  unfold State.memCanon Memory.wf at *
  rw [Bool.and_eq_true] at *
  exact ⟨mwf_mdrop (fun _ => (0 : Byte)) s.mem (fun k => decide (lo ≤ k ∧ k < hi)) h.1,
    mwf_mdrop (fun _ => (0 : Byte)) s.memory.ecc (fun k => decide (lo ≤ k ∧ k < hi)) h.2⟩

theorem State.wr_memCanon (s : State) (f : Fld) (v : Nat) (h : s.memCanon = true) : (s.wr f v).memCanon = true :=
  State.memCanon_congr (by simp) (by simp) h

theorem State.bump_memCanon (s : State) (f : Fld) (h : s.memCanon = true) : (s.bump f).memCanon = true :=
  State.memCanon_congr (by simp) (by simp) h

theorem State.log_memCanon (s : State) (t : Nat) (d : List Nat) (h : s.memCanon = true) : (s.log t d).memCanon = true := by
  unfold State.log State.setLogQ
  split
  · exact State.bump_memCanon _ _ h
  · exact State.wr_memCanon _ _ _ (State.memCanon_congr (by simp) (by simp) h)

theorem State.countCE_memCanon (s : State) (i : Nat) (h : s.memCanon = true) : (s.countCE i).memCanon = true := by
  unfold State.countCE
  have h1 := State.wr_memCanon _ (instST i 0) 1 (State.bump_memCanon s (instCE i) h)
  split
  · exact State.log_memCanon _ _ _ (State.wr_memCanon _ _ _ (State.wr_memCanon _ _ _ (State.wr_memCanon _ _ _ h1)))
  · exact h1

theorem State.eccFirst_memCanon (s : State) (g : Nat) (h : s.memCanon = true) : (s.eccFirst g).memCanon = true := by
  unfold State.eccFirst
  dsimp only
  split
  · exact State.wr_memCanon _ _ _ (State.wr_memCanon _ _ _ h)
  · exact h

theorem State.countUE_memCanon (s : State) (g : Nat) (h : s.memCanon = true) : (s.countUE g).memCanon = true := by
  unfold State.countUE
  dsimp only
  have h1 := State.eccFirst_memCanon _ g (State.wr_memCanon _ SAF_WARN_UE 1 (State.wr_memCanon _ MEM_EVENT_UE 1
    (State.wr_memCanon _ (instST (instOf g) 1) 1 (State.bump_memCanon s (instUE (instOf g)) h))))
  split
  · exact h1
  · split <;> exact State.wr_memCanon _ _ _ (State.wr_memCanon _ _ _ (State.wr_memCanon _ _ _ (State.wr_memCanon _ _ _ h1)))

theorem State.countPS_memCanon (s : State) (g : Nat) (h : s.memCanon = true) : (s.countPS g).memCanon = true := by
  unfold State.countPS
  exact State.eccFirst_memCanon _ _ (State.wr_memCanon _ _ _ (State.bump_memCanon _ _ h))

theorem State.judge_memCanon (s : State) (g : Nat) (h : s.memCanon = true) : (s.judge g).memCanon = true := by
  unfold State.judge
  split
  · exact State.countPS_memCanon _ _ h
  · split
    · exact State.countUE_memCanon _ _ h
    · exact h

theorem State.countRead_memCanon (s : State) (l : List Nat) (h : s.memCanon = true) : (s.countRead l).memCanon = true := by
  unfold State.countRead
  refine foldl_keeps (fun t : State => t.memCanon = true) _ (fun a g ha => State.judge_memCanon a g ha) _ _ ?_
  refine foldl_keeps (fun t : State => t.memCanon = true) _ (fun a w ha => ?_) _ _ h
  split
  · exact State.countCE_memCanon _ _ ha
  · exact ha

/-- A read through a port keeps memory canonical. -/
theorem State.readKeys_memCanon (s : State) (w : Nat) (l : List Nat) (h : s.memCanon = true) : (s.readKeys w l).2.memCanon = true :=
  foldl_keeps (fun t : State => t.memCanon = true) _ (fun a r ha => State.countRead_memCanon a r ha) _ _ h

theorem State.readRun_memCanon (s : State) (k n : Nat) (h : s.memCanon = true) : (s.readRun k n).2.memCanon = true :=
  State.readKeys_memCanon _ _ _ h

theorem State.writeWord_memCanon (s : State) (w : Nat) (l : List NibW) (h : s.memCanon = true) : (s.writeWord w l).memCanon = true := by
  unfold State.writeWord
  dsimp only
  refine State.setSynd_memCanon _ _ _ (State.setRaw_memCanon _ _ _ ?_)
  split
  · exact h
  · split
    · exact State.countCE_memCanon _ _ h
    · split
      · exact State.judge_memCanon _ _ h
      · exact h

theorem State.inject_memCanon (s : State) (w : Nat) (h : s.memCanon = true) : (s.inject w).memCanon = true := by
  unfold State.inject
  split
  · have h1 : (s.wr MEM_INJ_CTL_ARM 0).memCanon = true := State.wr_memCanon _ _ _ h
    dsimp only
    split
    · split
      · exact State.setSynd_memCanon _ _ _ (State.setRaw_memCanon _ _ _ h1)
      · exact State.setSynd_memCanon _ _ _ h1
    · split
      · exact State.setSynd_memCanon _ _ _ (State.setRaw_memCanon _ _ _ h1)
      · exact State.setSynd_memCanon _ _ _ h1
    · have h2 : ∀ t : State, t.memCanon = true → ∀ p : Nat,
          (if p < 64 then (t.setRaw w (t.rawWord w ^^^ 2 ^ p)).setSynd w (t.synd w ^^^ hcol p)
            else t.setSynd w (t.synd w ^^^ 2 ^ (p - 64))).memCanon = true := by
        intro t ht p
        split
        · exact State.setSynd_memCanon _ _ _ (State.setRaw_memCanon _ _ _ ht)
        · exact State.setSynd_memCanon _ _ _ ht
      exact h2 _ (h2 _ h1 _) _
    · exact State.setSynd_memCanon _ _ _ h1
  · exact h

/-- A store keeps memory canonical. -/
theorem State.writeNibs_memCanon (s : State) (l : List NibW) (h : s.memCanon = true) : (s.writeNibs l).memCanon = true :=
  foldl_keeps (fun t : State => t.memCanon = true) _
    (fun a w ha => State.inject_memCanon _ w (State.writeWord_memCanon a w _ ha)) _ _ h

theorem State.writeKeys_memCanon (s : State) (l : List (Nat × MByte)) (h : s.memCanon = true) : (s.writeKeys l).memCanon = true :=
  State.writeNibs_memCanon _ _ h

theorem State.writeRun_memCanon (s : State) (k : Nat) (l : List MByte) (h : s.memCanon = true) : (s.writeRun k l).memCanon = true :=
  State.writeKeys_memCanon _ _ h

/-- Memory without an error bit has no poisoned granule. -/
theorem State.poisoned_of_clean (s : State) (h : s.memory.ecc = []) (g : Nat) : s.poisoned g = false := by
  have hs : ∀ k, s.synd k = 0 := fun k => by simp [State.synd, h, mget]
  simp [State.poisoned, State.carried, State.newBad, hs, classify, granuleWords]

/-- Nothing read from memory without an error bit is poisoned. -/
theorem anyPois_of_clean (s : State) (h : s.memory.ecc = []) (l : List Nat) : anyPois (l.map s.byteAt) = false := by
  simp [anyPois, State.byteAt, State.poisoned_of_clean s h]

end Sys2Proof.Machine
end

