-- ==== Sys2Proof/Laws/Regs.lean ====
section
/-! SUPPORT. The laws of the register file: bit fields, words and named fields read after a write. -/

namespace Sys2Proof.Machine

theorem testBit_bits (w hi lo i : Nat) : (bits w hi lo).testBit i = (decide (i < hi + 1 - lo) && w.testBit (lo + i)) := by
  simp [bits, Nat.testBit_mod_two_pow, Nat.testBit_shiftRight]

/-- A number as its bits below a field, the field, and the bits above it. -/
theorem setBits_eq (w hi lo v : Nat) :
    setBits w hi lo v = 2 ^ lo * (2 ^ (hi + 1 - lo) * (w / 2 ^ lo / 2 ^ (hi + 1 - lo)) + v % 2 ^ (hi + 1 - lo)) + w % 2 ^ lo := by
  unfold setBits bits
  rw [Nat.shiftRight_eq_div_pow, Nat.shiftLeft_eq, Nat.shiftLeft_eq]
  generalize hi + 1 - lo = n
  have h1 := Nat.div_add_mod w (2 ^ lo)
  have h2 := Nat.div_add_mod (w / 2 ^ lo) (2 ^ n)
  generalize w / 2 ^ lo = q at *
  generalize w % 2 ^ lo = a at *
  have h3 : w - q % 2 ^ n * 2 ^ lo = 2 ^ lo * (2 ^ n * (q / 2 ^ n)) + a := by
    have h4 : w = 2 ^ lo * (2 ^ n * (q / 2 ^ n)) + q % 2 ^ n * 2 ^ lo + a := by
      rw [← h1]
      conv_lhs => rw [← h2]
      ring
    omega
  rw [h3]
  ring

theorem testBit_setBits (w hi lo v i : Nat) (h : lo ≤ hi + 1) :
    (setBits w hi lo v).testBit i = if lo ≤ i ∧ i ≤ hi then v.testBit (i - lo) else w.testBit i := by
  rw [setBits_eq, Nat.testBit_two_pow_mul_add _ (Nat.mod_lt _ (by positivity)),
    Nat.testBit_two_pow_mul_add _ (Nat.mod_lt _ (by positivity))]
  by_cases h1 : i < lo
  · simp [h1, show ¬ lo ≤ i from by omega, Nat.testBit_mod_two_pow]
  · by_cases h2 : i ≤ hi
    · simp [h1, show i - lo < hi + 1 - lo from by omega, h2, show lo ≤ i from by omega, Nat.testBit_mod_two_pow]
    · have h3 : lo + (hi + 1 - lo + (i - lo - (hi + 1 - lo))) = i := by omega
      simp only [h1, if_false, show ¬ i - lo < hi + 1 - lo from by omega, show ¬ (lo ≤ i ∧ i ≤ hi) from by omega]
      rw [Nat.testBit_div_two_pow, Nat.testBit_div_two_pow]
      congr 1
      omega

/-- The field just put reads back, in its width. -/
@[simp] theorem bits_setBits_same (w hi lo v : Nat) (h : lo ≤ hi + 1) : bits (setBits w hi lo v) hi lo = v % 2 ^ (hi + 1 - lo) := by
  apply Nat.eq_of_testBit_eq
  intro i
  rw [testBit_bits, testBit_setBits _ _ _ _ _ h, Nat.testBit_mod_two_pow]
  by_cases hi' : i < hi + 1 - lo
  · have : lo ≤ lo + i ∧ lo + i ≤ hi := by omega
    simp [hi', this]
  · simp [hi']

/-- A field beside the one just put reads as before. -/
theorem bits_setBits_other (w hi lo v hi' lo' : Nat) (h : lo ≤ hi + 1) (hd : hi < lo' ∨ hi' < lo) :
    bits (setBits w hi lo v) hi' lo' = bits w hi' lo' := by
  apply Nat.eq_of_testBit_eq
  intro i
  rw [testBit_bits, testBit_bits, testBit_setBits _ _ _ _ _ h]
  by_cases hi' : i < hi' + 1 - lo'
  · have : ¬ (lo ≤ lo' + i ∧ lo' + i ≤ hi) := by omega
    simp [this]
  · simp [hi']

theorem setBits_lt (w hi lo v n : Nat) (h : lo ≤ hi + 1) (hn : hi < n) (hw : w < 2 ^ n) : setBits w hi lo v < 2 ^ n := by
  apply Nat.lt_pow_two_of_testBit
  intro i hi'
  rw [testBit_setBits _ _ _ _ _ h, if_neg (by omega)]
  exact Nat.testBit_lt_two_pow (Nat.lt_of_lt_of_le hw (Nat.pow_le_pow_right (by decide) hi'))

/-! ### Words -/

theorem State.word_lt (s : State) (off : Nat) : s.word off < 2 ^ 32 := (mget regReset s.regs off).isLt

/-- A word read after a word write. -/
@[simp] theorem State.word_setWord (s : State) (off v o : Nat) :
    (s.setWord off v).word o = if o = off then v % 2 ^ 32 else s.word o := by
  unfold State.word State.setWord
  simp only [mget_mset]
  split <;> simp

/-- Words of the state after a change of a narrow field. -/
theorem State.word_wr (s : State) (f : Fld) (v o : Nat) (hw : f.wide = false) :
    (s.wr f v).word o = if o = f.off then setBits (s.word f.off) f.hi f.lo v % 2 ^ 32 else s.word o := by
  unfold State.wr
  simp [hw]

/-! ### Named fields -/

/-- A field that lies in one word and has a width. -/
def Fld.narrow (f : Fld) : Bool := !f.wide && decide (f.lo ≤ f.hi ∧ f.hi < 32)

theorem State.rd_narrow (s : State) (f : Fld) (h : f.narrow = true) : s.rd f = bits (s.word f.off) f.hi f.lo := by
  unfold State.rd
  have : f.wide = false := by simp [Fld.narrow] at h; exact h.1
  simp [this]

/-- A narrow field reads back what was put into it, in its width. -/
theorem State.rd_wr_same (s : State) (f : Fld) (v : Nat) (h : f.narrow = true) :
    (s.wr f v).rd f = v % 2 ^ (f.hi + 1 - f.lo) := by
  rw [State.rd_narrow _ _ h]
  simp only [Fld.narrow, Bool.and_eq_true, Bool.not_eq_true', decide_eq_true_eq] at h
  rw [State.word_wr _ _ _ _ h.1, if_pos rfl, Nat.mod_eq_of_lt (setBits_lt _ _ _ _ _ (by omega) h.2.2 (s.word_lt _)),
    bits_setBits_same _ _ _ _ (by omega)]

/-- A narrow field of another word, or beside the field put, reads as before. -/
theorem State.rd_wr_other (s : State) (f g : Fld) (v : Nat) (hf : f.narrow = true) (hg : g.narrow = true)
    (hd : f.off ≠ g.off ∨ f.hi < g.lo ∨ g.hi < f.lo) : (s.wr f v).rd g = s.rd g := by
  rw [State.rd_narrow _ _ hg, State.rd_narrow _ _ hg]
  simp only [Fld.narrow, Bool.and_eq_true, Bool.not_eq_true', decide_eq_true_eq] at hf hg
  rw [State.word_wr _ _ _ _ hf.1]
  by_cases ho : g.off = f.off
  · have hx : f.hi < g.lo ∨ g.hi < f.lo := hd.resolve_left fun hne => hne ho.symm
    rw [if_pos ho, ho, Nat.mod_eq_of_lt (setBits_lt _ _ _ _ _ (by omega) hf.2.2 (s.word_lt _)),
      bits_setBits_other _ _ _ _ _ _ (by omega) hx]
  · rw [if_neg ho]

/-- A change of a field keeps the register file canonical. -/
theorem State.setWord_regs_wf (s : State) (off v : Nat) (h : mwf regReset s.regs = true) : mwf regReset (s.setWord off v).regs = true :=
  mwf_mset _ _ _ _ h

theorem State.wr_regs_wf (s : State) (f : Fld) (v : Nat) (h : mwf regReset s.regs = true) : mwf regReset (s.wr f v).regs = true := by
  unfold State.wr
  split
  · exact State.setWord_regs_wf _ _ _ (State.setWord_regs_wf _ _ _ h)
  · exact State.setWord_regs_wf _ _ _ h

end Sys2Proof.Machine
end

