-- ==== Sys2Proof/WellFormed.lean ====
section
/-! DEFINITION. Which terms of Instr are commands at all: the checks that the types of the operands do not make. -/

namespace Sys2Proof

open Machine

/-- An endpoint of the mesh: a requester, a slice, a controller, the host, a chip, or a requester of another chip. -/
def okEndpoint (e : Nat) : Bool := decide (e < 269 ∨ (512 ≤ e ∧ e < 768) ∨ (800 ≤ e ∧ e < 804) ∨ (832 ≤ e ∧ e < 848) ∨ (2000 ≤ e ∧ e < 10192))

/-- A register access: within the 64 MiB of register space, of 1 to 8 bytes (R15, R16). -/
def okAccess (off bytes : Nat) : Bool := decide (off < 2 ^ 26) && [1, 2, 4, 8].contains bytes

/-- Bytes that a DLC stands for (ISO 11898-1). -/
def dlcLen (fd : Bool) (d : Nat) : Nat := if d ≤ 8 then d else if fd then [12, 16, 20, 24, 32, 48, 64].getD (d - 9) 64 else 8

/-- A CAN frame that a bus can carry: a base identifier stands in [28:18], remote and classical frames have no FD flags, and the
data is as long as its DLC says. -/
def okCan (f : CanFrame) : Bool :=
  (f.ide || f.id.toNat % 2 ^ 18 == 0) && !(f.fdf && f.rtr) && (f.fdf || (!f.brs && !f.esi)) &&
    f.data.length == (if f.rtr then 0 else dlcLen f.fdf f.dlc.toNat)

/-- A PCIe memory request (R422, R430): a read or a write, of at most 4 KiB, within a 4 KiB page. -/
def okInbound (r : Inbound) : Bool :=
  let n := r.read.getD r.data.length
  (r.read.isNone || (r.data.isEmpty && !r.ep)) && decide (1 ≤ n ∧ r.off % 4096 + n ≤ 4096 ∧ r.off < 2 ^ 37)

/-- A ring frame (R449). -/
def okRing (f : RingFrame) : Bool :=
  decide (f.vc < 4 ∧ f.dst < 8 ∧ f.src < 8 ∧ f.part < 16 ∧ f.source < 512 ∧ f.tag < 64 ∧ f.op < 16 ∧ f.addr < 2 ^ 48 ∧ f.data.length ≤ 128)

/-- A header's lists are as long as it says (R531). -/
def okHeader (h : ImgHeader) : Bool := h.comps.length == h.ncomp.toNat && h.early.length == h.nearly.toNat

/-- A command of the block. -/
def Instr.wf (i : Instr) : Bool :=
  match i with
  | .pageClaim _ g => decide (g < 2 ^ 32)
  | .notificationArrival _ e => okEndpoint e
  | .tunRequest _ e _ => okEndpoint e
  | .readDataArrival _ e _ => okEndpoint e
  | .writeAckArrival _ e => okEndpoint e
  | .errorResponse _ e => okEndpoint e
  | .lateResponse _ e => okEndpoint e
  | .reg64LowerRead _ off => okAccess off 4 && off % 8 == 0
  | .reg64UpperRead _ off => okAccess off 4 && off % 8 == 4
  | .registerWrite _ off n _ => okAccess off n
  | .pidxWrite _ off _ => okAccess off 4
  | .ctlCfgWrite _ off _ => okAccess off 4
  | .evtRingEnable _ off _ => okAccess off 4
  | .pwordPoll b => okAccess b 4
  | .partitionStop _ t => decide (t < 269)
  | .inboundRequest r => okInbound r
  | .ringFrame _ f _ => okRing f
  | .canFrameReceived _ f _ => okCan f
  | .canWakeDecode _ (.frame f _) => okCan f
  | .ethFrameReceived _ f _ _ => decide (2 ≤ f.body.length)
  | .uartCharacter _ l _ => decide (l.length ≤ 13)
  | .headerCheck h => okHeader h
  | .imageFrame (.header h) => okHeader h
  | .componentRead _ _ (some (h, _, _)) => okHeader h
  | _ => true

end Sys2Proof
end

