-- ==== Sys2Proof/Tests/Slice0.lean ====
section
/-! SUPPORT. Tests of the model: ill-formed terms that the check refuses, values that the spec gives, and for each statement states and
operands that meet its hypotheses. -/

namespace Sys2Proof.Machine.Tests

set_option Elab.async false

/-! ### Helpers -/

/-- A check of what a computation answers. -/
def okB {ε α : Type} (x : Except ε α) (f : α → Bool) : Bool :=
  match x with
  | .ok a => f a
  | .error _ => false

/-- A check of what is there. -/
def someB {α : Type} (x : Option α) (f : α → Bool) : Bool :=
  match x with
  | some a => f a
  | none => false

/-- A check of the next state. -/
def nextB (o : Out) (f : State → Bool) : Bool :=
  match o with
  | .next t => f t
  | _ => false

/-- An address descriptor: base, format, counts and strides of its loops, innermost first. -/
def desc (base fmt : Nat) (loops : List (Nat × Nat)) : Nat :=
  loops.zipIdx.foldl (fun a x => a + ((x.1.1 - 1) + x.1.2 * 2 ^ 16) * 2 ^ (64 + 64 * x.2)) (base + fmt * 2 ^ 48)

/-- Core 0 of partition 0 runs this plan word: bank 0 is bound to the transfer port, bank 1 to the vector port, bank 2 to the transfer port, the
others to the matrix port. -/
def runs (w : Nat) : State :=
  ((((State.reset.wr (CORE_STATE_STATE 0) 1).wr (CORE_BIND_BIND 0) 0x26).wr (PART_CORE_EN_EN 0) 3).wr (PART_CFG_EN 0) 1
    |>.wr (PART_STATUS_STATE 0) stRunning).writeRun (coreKey 0 0) (leBytes 16 w)

/-- A slot of core 0 holds a descriptor. -/
def withDesc (s : State) (i d : Nat) : State := s.setSlot 0 i ⟨BitVec.ofNat 512 d, false, false, 0⟩

/-- A message on its way. -/
def withMsg (s : State) (m : Msg) : State := { s with msgs := [m] }

/-! ### Ill-formed commands: each check refuses one -/

theorem test_illformed_group : Instr.wf (.pageClaim 0 (2 ^ 32)) = false := by decide
theorem test_illformed_endpoint : Instr.wf (.notificationArrival 0 300) = false ∧ Instr.wf (.notificationArrival 0 268) = true := by decide
theorem test_illformed_latch : Instr.wf (.reg64LowerRead .image 4) = false ∧ Instr.wf (.reg64UpperRead .image 8) = false ∧
    Instr.wf (.reg64LowerRead .image 8) = true ∧ Instr.wf (.reg64UpperRead .image 12) = true := by decide
theorem test_illformed_access : Instr.wf (.registerWrite .image (2 ^ 26) 4 0) = false ∧ Instr.wf (.registerWrite .image 0 3 0) = false ∧
    Instr.wf (.registerWrite .image 0 8 0) = true := by decide
theorem test_illformed_stop : Instr.wf (.partitionStop 0 269) = false ∧ Instr.wf (.partitionStop 0 268) = true := by decide
theorem test_illformed_inbound : Instr.wf (.inboundRequest ⟨false, none, 0, 4094, some 4, [], false⟩) = false ∧
    Instr.wf (.inboundRequest ⟨false, none, 0, 0, some 0, [], false⟩) = false ∧ Instr.wf (.inboundRequest ⟨false, none, 0, 4092, some 4, [], false⟩) = true ∧
    Instr.wf (.inboundRequest ⟨false, none, 0, 0, some 4, [1], false⟩) = false := by decide
theorem test_illformed_ring : Instr.wf (.ringFrame 0 ⟨4, 0, 0, false, 0, 0, 0, 0, 0, 0, [], none, 0⟩ true) = false ∧
    Instr.wf (.ringFrame 0 ⟨3, 0, 0, false, 0, 0, 0, 0, 0, 0, [], none, 0⟩ true) = true := by decide
theorem test_illformed_can : Instr.wf (.canFrameReceived 0 ⟨1, false, false, false, false, false, 0, []⟩ 0) = false ∧
    Instr.wf (.canFrameReceived 0 ⟨1, true, false, false, false, false, 1, []⟩ 0) = false ∧
    Instr.wf (.canFrameReceived 0 ⟨1, true, true, true, false, false, 0, []⟩ 0) = false ∧
    Instr.wf (.canFrameReceived 0 ⟨1, true, false, false, true, false, 0, []⟩ 0) = false ∧
    Instr.wf (.canFrameReceived 0 ⟨1, true, false, true, true, false, 9, List.replicate 12 0⟩ 0) = true := by decide
theorem test_illformed_ethernet : Instr.wf (.ethFrameReceived 0 ⟨0, 0, none, [1]⟩ true 0) = false := by decide
theorem test_illformed_uart : Instr.wf (.uartCharacter 0 (List.replicate 14 0) false) = false := by decide
theorem test_illformed_header : Instr.wf (.headerCheck ⟨0, 0, 1, 0, 0, 0, 0, 0, true, 0, true, [], []⟩) = false := by decide

/-! ### Values that the spec's examples give -/

/-- R42, Locating three addresses. -/
theorem test_locating : State.reset.decode 0x010A345680 = .tun 81 ∧ State.reset.decode 0x0B150040 = .core 88 0x150040 ∧
    State.reset.decode 0x0B180000 = .buffer 88 0x180000 := by decide +kernel

/-- R158, window 3 at 0x12_0001_2345: channel 12, 0x4000_4B45. -/
theorem test_window : (((((((State.reset.wr MEM_LP_CFG_DENSITY 2).wr (MEM_LPW_CFG_EN 3) 1).wr (MEM_LPW_CFG_BASE 3) 8).wr (MEM_LPW_CFG_SIZE 3) 3).wr
    (MEM_LPW_CFG_GRAN 3) 1).wr (MEM_LPW_MAP_CHMASK 3) 0xF000).wr (MEM_LPW_MAP_CHBASE 3) 16).decode 0x1200012345 = .lpddr 3 12 0x40004B45 := by
  decide +kernel

/-- R60, two scale codes and two row scales: 11/32, 1/2, 1 and 1/8. -/
theorem test_scales : fp32.encode (scaleVal 0x6B) = 0x3EB00000 ∧ fp32.encode (scaleVal 0x70) = 0x3F000000 ∧ fp32.encode (bf16.decode 0x3F80) = 0x3F800000 ∧
    fp32.encode (bf16.decode 0x3E00) = 0x3E000000 := by decide

/-- R64: 37 × 0.34375 × 0.5 × 0.125 = 407 × 2⁻⁹. -/
theorem test_contribution : fp32.encode ((((FVal.ofInt 37).mul (scaleVal 0x6B)).mul (scaleVal 0x70)).mul (bf16.decode 0x3E00)) = 0x3F4B8000 := by decide

/-- R68, FP32 to FP8-E4M3: 300.7, 500.0 and 449.0. -/
theorem test_narrowing :
    outStage ⟨2, 0, false, 0, 0, 0⟩ (f32 0x4396599A) = ⟨0x79, false, false, false⟩ ∧
    outStage ⟨2, 0, false, 0, 0, 0⟩ (f32 0x43FA0000) = ⟨0x7E, true, false, false⟩ ∧
    outStage ⟨2, 0, false, 0, 0, 0⟩ (f32 0x43E08000) = ⟨0x7E, false, false, false⟩ := by decide

/-- R67, INT32 to INT8 with OSHIFT 7. -/
theorem test_requantise :
    outStage ⟨0, 7, false, 0, 0, 0⟩ (.ofInt 11712) = ⟨92, false, false, false⟩ ∧
    outStage ⟨0, 7, false, 0, 0, 0⟩ (.ofInt (-11840)) = ⟨0xA4, false, false, false⟩ ∧
    outStage ⟨0, 7, false, 0, 0, 0⟩ (.ofInt 17000) = ⟨127, true, false, false⟩ ∧
    outStage ⟨0, 7, true, 0, 127, 0⟩ (.ofInt (-11840)) = ⟨0, false, false, false⟩ := by decide

/-- R163, data word 0x0100_0000_0000_0001. -/
theorem test_code : checkByte 0x0100000000000001 = 0x18 ∧ checkByte 1 = 0x07 ∧ classify (0x18 ^^^ 0x07) = .dataBit 56 ∧
    classify (0x18 ^^^ 0x67) = .poison ∧ classify 0x18 = .bad := by decide +kernel

/-- R376: four values summed on 4 cores and on 2. -/
theorem test_order : f32add (f32add (f32add 0x4B800000 0x3F800000) 0x3F800000) 0x3F800000 = 0x4B800000 ∧
    f32add (f32add 0x4B800000 0x3F800000) (f32add 0x3F800000 0x3F800000) = 0x4B800001 := by decide

/-- R257: x ← x + αp in exponents -20, -24 and -18. -/
theorem test_update : (roundTo (-20) ((⟨1000000, -20⟩ : Dy).add ((⟨3145728, -24⟩ : Dy).mul ⟨2097153, -18⟩))).1 = 2572865 := by decide

/-- R289: bipolar, PERIOD 2,500. -/
theorem test_compare : cmpOf 1 15 2500 0x4000 = 30000 := by decide

/-- R323 to R325: readings after a RATE commit. -/
theorem test_reading :
    (let s := ((State.reset.wr (TIM_AOFF_VALUE 1) 5000000000).wr (TIM_ABASE_VALUE 1) 5000000000).wr (TIM_ARATE_VALUE 1) 0x400001000000
     s.readingAt 1 6000000000 = 6000000238 ∧ s.readingAt 1 5999999992 = 6000000230 ∧ s.exactAt 1 6000000000 % 2 ^ 46 = 0x1ACA00000000) ∧
    (let s := (((State.reset.wr (TIM_AOFF_VALUE 1) 5999999938).wr (TIM_AFRAC_VALUE 1) 0x1ACA00000000).wr (TIM_ABASE_VALUE 1) 6000000000).wr
       (TIM_ARATE_VALUE 1) 0x400001000000
     s.readingAt 1 6000000000 = 5999999938 ∧ s.readingAt 1 6000000008 = 5999999946) := by decide +kernel

/-- R437: 16 cores and 2 slice groups. -/
theorem test_record : recordSize 16 2 = 95216640 := by decide

/-- R17: the reset values of SYS_ID and of the TIM rates. -/
theorem test_reset : State.reset.word 0 = 0x92560021 ∧ State.reset.rd (TIM_RATE_VALUE 3) = 0x400000000000 ∧ State.reset.canonical = true := by decide +kernel

/-- R319, R320: with nothing to do, 64 edges of CLK_AO are 64 × 30,517 + 37 counts. -/
theorem test_idle : okB (match step State.reset with | .next t => .ok t | _ => .error ()) (fun t => t.now == 30517 && t.tim.frac == 37) = true := by decide +kernel

/-- The front of the queue is the command that steps. -/
theorem test_queue : nextB (step { State.reset with pending := [.tripInAssert 1, .flr 0] }) (fun t => t.pending == [.flr 0] && t.on SAF_STATE_SAFE) = true := by
  decide +kernel

/-! ### Plan words -/

theorem wit_SequencerWords : (∀ w ∈ [0, 2, 4, 0xA, 0xB, 0xE], (runs w).issuing 0 w ∧ wOp w = w) ∧ (runs 2).attnBusy 0 = false ∧
    (∀ g, g < 32 → (runs 2).tagBusy 0 g = false) ∧ loopsOf (runs 4) 0 = [] := by
  unfold State.issuing; decide +kernel

theorem wit_SequencerWords_next : let s := (runs 5).mCore fun y => { y with loops := [(0, [⟨0, 3⟩])] }
    s.issuing 0 5 ∧ loopsOf s 0 = [⟨0, 3⟩] := by
  unfold State.issuing; decide +kernel

theorem wit_SlotWordsAndEnd : (∀ w ∈ [1, 6, 3 + 0x40000 * 2 ^ 12], (runs w).issuing 0 w ∧ wOp w = w % 256) ∧ (runs 1).rd (CORE_TAG_BUSY_BUSY 0) = 0 ∧
    (runs 1).attnBusy 0 = false ∧ okB ((runs 3).runLocal 0 pTransfer 0x40000 64) (fun ks => ks.length == 64) = true ∧
    (runs 3).awaitAt 0 0x40000 = none ∧ dKind ((runs 6).slot 0 0).desc.toNat = 0 ∧ dFmt ((runs 6).slot 0 0).desc.toNat ≤ 9 := by
  unfold State.issuing; decide +kernel

theorem wit_BarrierAndCredit : (∀ w ∈ [7, 0xC + 1 * 2 ^ 12 + 5 * 2 ^ 20], (runs w).issuing 0 w ∧ wOp w = w % 256) ∧
    (runs 0xC).coreOwner 1 = some ((runs 0xC).partOf 0) ∧ (runs 0xC).on (CORE_WIN_BASE_GUARD 0 0) = false := by
  unfold State.issuing; decide +kernel

theorem wit_BarrierAndCredit_arrivals :
    (let m : Msg := ⟨.req, 0, 0, 0, 0, false, 0, .barArr 0⟩
     (withMsg (runs 0) m).take (fun m => m.part == 0 && m.src == 0 && m.body == .barArr 0) = some (m, runs 0)) ∧
    (let m : Msg := ⟨.rsp, 0, 0, 0, 0, false, 0, .barRel 3⟩
     let s := (((runs 7).wr (CORE_SEQ_STATUS_STALL 0) stBarrier).wr (CORE_SEQ_STATUS_STALL_IDX 0) 3)
     (withMsg s m).take (fun m => m.dst == 0 && m.body == .barRel 3) = some (m, s) ∧ (withMsg s m).rd (CORE_STATE_STATE 0) = 1 ∧
       (withMsg s m).rd (CORE_SEQ_STATUS_STALL 0) = stBarrier ∧ (withMsg s m).rd (CORE_SEQ_STATUS_STALL_IDX 0) = 3) ∧
    (let m : Msg := ⟨.crd, 1, 0, 0, 0, false, 0, .credit 2 9⟩
     let s := (((runs 0).wr (CORE_CRD_TGT_VALID 0 4) 1).wr (CORE_CRD_TGT_DST 0 4) 1).wr (CORE_CRD_TGT_WIN 0 4) 2
     (withMsg s m).take (fun m => m.dst == 0 && m.src == 1 && m.cls == .crd) = some (m, s) ∧ (withMsg s m).entryFor 0 1 2 = some 4 ∧
       (withMsg s m).rd (CORE_CRD_BAL_CREDIT 0 4) + 9 ≤ 2 ^ 20) := by
  decide +kernel

theorem wit_ReportWord : let w := 8 + 0x11 * 2 ^ 8
    let s := ((runs w).wr (PART_RPT_CFG_EN 0) 1).wr (PART_RPT_CFG_LOG2SIZE 0) 4
    (runs w).issuing 0 w ∧ s.issuing 0 w ∧ wOp w = 8 ∧ bit w 16 = false ∧ bits w 15 8 < 0xC0 ∧ (runs w).on (PART_RPT_CFG_EN 0) = false ∧
      s.on (PART_RPT_CFG_EN 0) = true ∧ s.rptFull 0 (mget (fun _ => 0) s.part.rptRead 0) = false := by
  unfold State.issuing; decide +kernel

theorem wit_StalledWords : let s := (runs 0xA).wr (CORE_SEQ_STATUS_STALL 0) stCounter
    let u := (runs 2).wr (CORE_SEQ_STATUS_STALL 0) stPhase
    s.mayIssue 0 = true ∧ wOp (s.planWord 0) = 0xA ∧ s.rd (CORE_SEQ_STATUS_STALL 0) = stCounter ∧ u.mayIssue 0 = true ∧
      wOp (u.planWord 0) = 2 ∧ u.rd (CORE_SEQ_STATUS_STALL 0) = stPhase ∧ u.attnBusy 0 = false := by
  decide +kernel

/-! ### Engines -/

theorem wit_VectorElementWords :
    ∀ w ∈ [0x22 + 127 * 2 ^ 8 + 2 ^ 15 + 2 ^ 23 + 5 * 2 ^ 40, 0x23 + 127 * 2 ^ 8 + 2 ^ 15 + 2 ^ 23 + 2 ^ 30 + 5 * 2 ^ 40,
      0x24 + 127 * 2 ^ 8 + 2 ^ 15 + 2 ^ 23 + 5 * 2 ^ 40, 0x25 + 127 * 2 ^ 8 + 2 ^ 15 + 2 ^ 23 + 2 ^ 30 + 5 * 2 ^ 40,
      0x26 + 127 * 2 ^ 8 + 2 ^ 15 + 5 * 2 ^ 40, 0x28 + 127 * 2 ^ 8 + 2 ^ 15 + 5 * 2 ^ 40, 0x2A + 127 * 2 ^ 8 + 9 * 2 ^ 64, 0x2B + 127 * 2 ^ 8 + 2 ^ 15],
    (runs w).issuing 0 w ∧ (runs w).attnBusy 0 = false ∧ wVD w + wREP w = 127 ∧ wSUB w ≠ 2 := by
  unfold State.issuing; decide +kernel

theorem wit_VectorMoveWords :
    (let w := 0x2B + 120 * 2 ^ 8 + 8 * 2 ^ 15 + 2 * 2 ^ 36
     (runs w).issuing 0 w ∧ (runs w).attnBusy 0 = false ∧ wSUB w = 2 ∧ wVD w ≤ 120) ∧
    (let w := 0x29 + 2 ^ 24 + 511 * 2 ^ 15
     (runs w).issuing 0 w ∧ bit w 24 = true ∧ bits w 23 15 * 64 + 64 * (bits w 31 25 + 1) ≤ 32768) ∧
    (let w := 0x29 + 126 * 2 ^ 8 + 1 * 2 ^ 25
     (runs w).issuing 0 w ∧ bit w 24 = false ∧ wVD w + bits w 31 25 ≤ 127) ∧
    (let w := 0x27 + 4 * 2 ^ 8 + 3 * 2 ^ 40 + 5 * 2 ^ 52
     (runs w).issuing 0 w ∧ wVD w + wREP w ≤ 127 ∧ ∀ i j, j < i → i ≤ wREP w → wVD w + j ≠ wVA w + i) := by
  unfold State.issuing; refine ⟨by decide +kernel, by decide +kernel, by decide +kernel, ?_⟩
  refine ⟨by decide +kernel, by decide +kernel, fun i j h1 h2 => ?_⟩
  have : i ≤ 0 := h2
  omega

/-- A descriptor of four 32-bit elements in the vector bank. -/
def four : Nat := desc (coreKey 0 0x20000) 5 [(4, 1)]

theorem wit_VectorStore : ∀ op ∈ [0x20, 0x21], let s := withDesc (runs op) 0 four
    s.issuing 0 op ∧ s.attnBusy 0 = false ∧ s.on MEM_INJ_CTL_ARM = false ∧ okB (s.useSlot 0 (wAGV op) false) (fun (d : Nat × Bool) =>
      decide (agCount d.1 * fmtNibs (dFmt d.1) ≤ (wREP op + 1) * 512) &&
      okB (s.elsKeys 0 pVector (fmtNibs (dFmt d.1)) (agElems d.1 d.2 (fmtNibs (dFmt d.1)))) fun ks =>
        decide (ks.length = 4 ∧ (ks.flatMap fun k => k.getD []).Nodup)) = true := by
  unfold State.issuing; decide +kernel

theorem wit_MatrixDrain : let w := 0x11 + 1 * 2 ^ 31 + 1 * 2 ^ 21 + 5 * 2 ^ 37
    let s := withDesc (runs w) 0 four
    s.issuing 0 w ∧ s.attnBusy 0 = false ∧ s.on MEM_INJ_CTL_ARM = false ∧ bits w 36 31 + 1 = 2 ∧ bits w 30 21 + 1 = 2 ∧
    okB (s.useSlot 0 0 false) (fun (d : Nat × Bool) => decide (agCount d.1 = 4 ∧ fmtNibs (dFmt d.1) = fmtNibs 5) &&
      okB (s.elsKeys 0 pVector 8 (agElems d.1 d.2 8)) fun ks => decide (ks.length = 4)) = true ∧
    (∀ i, i < 2 → ∀ j, j < 2 → s.outFaults 0 (outStage ⟨5, 0, false, 0, 0, 0⟩ (FVal.ofInt (toSigned 32 (accGet s 0 (i * 64 + j))))) = false) := by
  unfold State.issuing; decide +kernel

theorem wit_OutputStageInteger : fmtFp 0 = none ∧ (⟨0, 1, true, 0x80, 127, 0⟩ : OutCfg).scale = 0 ∧
    toSigned (intBits 0) 0x80 ≤ toSigned (intBits 0) 127 ∧ (f32 0x3FC00000 = .fin false 0xC00000 (-23)) ∧ f32 0xFF800000 = .inf true ∧
    f32 0x7FC00001 = .nan := by
  decide +kernel

theorem wit_CodeClasses : (0x40 ∈ granuleWords 0x40 ∧ classify ((State.reset.setSynd 0x40 0x18).synd 0x40) = .bad) ∧
    classify ((State.reset.setSynd 0x40 0x0B).synd 0x40) = .dataBit 1 ∧ classify (State.reset.synd 0x40) = .clean := by
  decide +kernel

/-- Operands of the smallest MMUL of pairing 3. -/
def mmW : Nat := 0x10 + 1 * 2 ^ 12 + 3 * 2 ^ 28 + 1 * 2 ^ 38
def mmS : State := withDesc (withDesc (runs mmW) 0 (desc (coreKey 0 0x60000) 4 [(16, 1)])) 1 (desc (coreKey 0 0x80000) 4 [(16, 1), (32, 16)])

theorem wit_MatrixMultiply : mmS.issuing 0 mmW ∧ wOp mmW = 0x10 ∧ mmS.attnBusy 0 = false ∧ mmS.core.upsets = [] ∧
    okB (mmS.mmPlan 0 mmW) (fun x => decide (x.1.k = 16 ∧ x.1.m = 1 ∧ x.1.n = 32)) = true ∧ bit mmW 31 = false ∧ pairInt (bits mmW 30 28) = false := by
  unfold State.issuing; decide +kernel

/-- A region operator whose descriptor lies in the vector bank. -/
def region (op d : Nat) : State := (runs (op + 0x20000 * 2 ^ 12)).writeRun (coreKey 0 0x20000) (leBytes 64 d)

theorem wit_BoxesAndSuppression_boxdec : let d := 0x20100 + 0x20200 * 2 ^ 32 + 0x20300 * 2 ^ 64 + 1 * 2 ^ 96
    let w := 0x41 + 0x20000 * 2 ^ 12
    let s := region 0x41 d
    s.issuing 0 w ∧ s.attnBusy 0 = false ∧ s.on MEM_INJ_CTL_ARM = false ∧ wOp w = 0x41 ∧ okB (s.regionDesc 0 w) (fun (x : Nat × State) => x.1 == d) = true ∧
    boxOk d = true ∧ bit d (8 * 0xC + 16) = false ∧ (∀ a ∈ [0, 4, 8], okB (s.runHalves 0 (2 * rdWord d a) 32) (fun ks => decide ks.Nodup) = true) := by
  unfold State.issuing; decide +kernel

theorem wit_BoxesAndSuppression_nms : let d := 0x20100 + 0x20200 * 2 ^ 32 + 0x20300 * 2 ^ 64 + (1 + 1 * 2 ^ 16 + 1 * 2 ^ 32) * 2 ^ 96 + 0x20400 * 2 ^ 224
    let w := 0x42 + 0x20000 * 2 ^ 12
    let s := region 0x42 d
    s.issuing 0 w ∧ wOp w = 0x42 ∧ okB (s.regionDesc 0 w) (fun (x : Nat × State) => x.1 == d) = true ∧
    nmsOk d = true ∧ rdHalf d 0xC = 1 ∧ rdHalf d 0xE = 1 ∧ okB (s.runHalves 0 (2 * rdWord d 0) 32) (fun _ => true) = true ∧
    okB (s.runHalves 0 (2 * rdWord d 4) 8) (fun _ => true) = true ∧ okB (s.runHalves 0 (2 * rdWord d 8) (2 * nmsRec d)) (fun _ => true) = true ∧
    okB (s.runHalves 0 (2 * rdWord d 0x1C) 16) (fun _ => true) = true := by
  unfold State.issuing; decide +kernel

theorem wit_CropAndResize : let d := 0x20100 + (1 + 1 * 2 ^ 16 + 1 * 2 ^ 32) * 2 ^ 32 + 0x20200 * 2 ^ 96 + (1 + (1 + 2 ^ 8) * 2 ^ 16) * 2 ^ 128 + 0x20300 * 2 ^ 160 +
      0x20400 * 2 ^ 256
    let w := 0x40 + 0x20000 * 2 ^ 12
    let s := region 0x40 d
    s.issuing 0 w ∧ wOp w = 0x40 ∧ okB (s.regionDesc 0 w) (fun (x : Nat × State) => x.1 == d) = true ∧ cropOk d = true ∧ cropOk 0 = false ∧
    s.on (CORE_ARITH_CFG_OUTSAT_FAULT 0) = false ∧ s.on (CORE_ARITH_CFG_NAN_FAULT 0) = false ∧
    okB (s.cropPlan 0 d) (fun k => decide ((k.out ++ k.stat).Nodup)) = true ∧ okB ((region 0x40 0).regionDesc 0 w) (fun (x : Nat × State) => x.1 == 0) = true := by
  unfold State.issuing; decide +kernel

/-! ### Transfers and the mesh -/

/-- The slots of core 0 and partition 0's memory for a transfer word of OP with tag 5: 64 bytes in bank 2 on the local side, and as many at an address
on the remote side. -/
def moves (op there : Nat) : State :=
  withDesc (withDesc (((((runs (op + 5 * 2 ^ 8 + 1 * 2 ^ 17)).wr PART_TUN_EN_EN 1).wr (MEM_LPW_CFG_EN 0) 1).wr (MEM_LPW_CFG_SIZE 0) 1))
    0 (desc (coreKey 0 0x40000) 0 [(64, 1)])) 1 (desc there 0 [(64, 1)])

/-- What every transfer word asks for holds, and this of its sides. -/
def transfers (s : State) (w : Nat) (f : List Half → List Half → Bool) : Bool :=
  !s.tagBusy 0 (wTAG w) && !s.on MEM_INJ_CTL_ARM && okB (s.sides 0 w) fun (x : List Half × List Half) =>
    okB (s.halfKeysOf 0 x.1) fun kl => (kl.filterMap (·.1)).all (fun k => (s.awaitAt 0 (k / 2 - coreKey 0 0)).isNone) && f x.1 x.2

theorem wit_TransferWords_lcopy : let s := moves 0x30 (coreKey 0 0x40040)
    let w := 0x30 + 5 * 2 ^ 8 + 1 * 2 ^ 17
    s.issuing 0 w ∧ transfers s w (fun _ r => okB (s.halfKeysOf 0 r) fun _ => true) = true := by
  unfold State.issuing; decide +kernel

theorem wit_TransferWords_rwrite : let w := 0x31 + 5 * 2 ^ 8 + 1 * 2 ^ 17 + 1 * 2 ^ 32 + 2 * 2 ^ 40
    let s := (((((((moves (0x31 + 1 * 2 ^ 32 + 2 * 2 ^ 40) 0).wr (CORE_CRD_TGT_VALID 0 4) 1).wr (CORE_CRD_TGT_DST 0 4) 1).wr (CORE_CRD_TGT_WIN 0 4) 2).wr
      (CORE_CRD_BAL_CREDIT 0 4) 1).wr (CORE_WIN_BASE_VALID 1 2) 1).wr (CORE_WIN_GEOM_UNITS 1 2) 1)
    s.issuing 0 w ∧ s.sameP 0 1 = true ∧ s.entryFor 0 1 2 = some 4 ∧ s.on (CORE_WIN_BASE_VALID 1 2) = true ∧ transfers s w (fun l r =>
      aligned 64 (cut (r.zip l)) && ((cut (r.zip l)).filterMap fun q => q.start.map fun h => (h, q.len)) == [(0, 128)]) = true ∧
    s.rd (CORE_WIN_GEOM_UNITS 1 2) = 1 ∧ s.on (CORE_CRD_TGT_GUARDED 0 4) = false ∧ s.rd (CORE_CRD_BAL_CREDIT 0 4) = 1 := by
  unfold State.issuing; decide +kernel

theorem wit_TransferWords_far : ∀ x ∈ [(0x32, 0x100000000, false, false), (0x33, 0x100000000, false, true), (0x35, 0x1000000000, true, false),
      (0x36, 0x1000000000, true, true)],
    let s := moves x.1 x.2.1
    let w := x.1 + 5 * 2 ^ 8 + 1 * 2 ^ 17
    s.issuing 0 w ∧ bits w 23 21 = s.ownChip ∧ bit w 45 = false ∧ transfers s w (fun l r =>
      aligned 64 (cut (r.zip l)) && okB (s.farCheck 0 0 x.2.2.1 x.2.2.2 (cut (r.zip l))) fun _ => true) = true := by
  unfold State.issuing; decide +kernel

theorem wit_AtomicAndSignalWords : (let w := 0x34 + 5 * 2 ^ 8 + 1 * 2 ^ 18 + 0x40000 * 2 ^ 20 + 0x100000008 * 2 ^ 64
      let s := (runs w).wr PART_TUN_EN_EN 1
      s.issuing 0 w ∧ s.tagBusy 0 (wTAG w) = false ∧ bits w 15 13 = s.ownChip ∧ bits w 111 64 % 8 = 0 ∧
        okB (s.halfKeysOf 0 ((List.range 32).map fun i => (some (2 * bits w 40 20 + i), 0))) (fun _ => true) = true ∧
        okB (s.farCheck 0 0 false true [⟨[(some (2 * bits w 111 64), 0)], []⟩]) (fun _ => true) = true) ∧
    (let w := 0x38 + 5 * 2 ^ 8 + 1 * 2 ^ 32 + 1 * 2 ^ 64
     (runs w).issuing 0 w ∧ (runs w).tagBusy 0 (wTAG w) = false ∧ (runs w).sameP 0 1 = true) := by
  unfold State.issuing; decide +kernel

/-- Core 0 holds tag 5 with one response owed. -/
def owed : State := ((runs 0).setTag 0 5 { (runs 0).tag 0 5 with out := 1 }).wr (CORE_TAG_BUSY_BUSY 0) 32

theorem wit_DatalessArrivals :
    (let m : Msg := ⟨.req, 1, 0, 0, 0, false, 0, .signal 3 7⟩
     (withMsg (runs 0) m).awake 0 = true ∧ (withMsg (runs 0) m).take (fun m => m.src == 1 && m.dst == 0 && (match m.body with
      | .signal .. => true
      | _ => false)) = some (m, runs 0) ∧ (withMsg (runs 0) m).coreOwner 0 = some m.part) ∧
    (let m : Msg := ⟨.rsp, 264, 0, 0, 0, false, 0, .notif 3 7⟩
     (withMsg (runs 0) m).take (fun m => m.src == 264 && m.dst == 0 && (match m.body with
      | .notif .. => true
      | _ => false)) = some (m, runs 0)) ∧
    (let m : Msg := ⟨.rsp, 1, 0, 0, 5, false, 0, .ack⟩
     (withMsg owed m).take (fun x => x.src == 1 && x.dst == 0 && (withMsg owed m).current 0 x && x.body == .ack) = some (m, owed)) ∧
    (let s := owed.setTag 0 5 { owed.tag 0 5 with out := 0 }
     s.tagBusy 0 5 = true ∧ (s.tag 0 5).out = 0 ∧ s.xferLeft 0 5 = false ∧ s.attnTag 0 5 = false) ∧
    (let m : Msg := ⟨.rsp, 1, 0, 0, 5, true, 0, .ack⟩
     (withMsg owed m).take (fun x => x.src == 1 && x.dst == 0 && !(withMsg owed m).current 0 x && x.cls == .rsp && (match x.body with
      | .readData .. => true
      | .atomRes .. => true
      | .ack => true
      | .error .. => true
      | _ => false)) = some (m, owed)) := by
  decide +kernel

theorem wit_FaultArrivals :
    (let m : Msg := ⟨.rsp, 1, 0, 0, 5, false, 0, .error 3 0x100000000⟩
     (withMsg owed m).take (fun x => x.src == 1 && x.dst == 0 && (withMsg owed m).current 0 x && (match x.body with
      | .error .. => true
      | _ => false)) = some (m, owed)) ∧
    (let s := (runs 0).wr (CORE_GUARD_STATUS_STALLED 0) 1
     s.on (CORE_GUARD_STATUS_STALLED 0) = true ∧ s.on (CORE_FAULT_VALID 0) = false ∧ s.coreOwner 0 = some 0 ∧ s.rd (PART_STATUS_STATE 0) = stRunning) := by
  decide +kernel

theorem wit_DataArrivals :
    (let s := ((runs 0).wr (CORE_WIN_BASE_VALID 0 2) 1).wr (CORE_WIN_BASE_OFFSET 0 2) 0x40000
     let m : Msg := ⟨.req, 1, 0, 0, 0, false, 0, .remoteWrite 2 64 (List.replicate 64 (7, false))⟩
     let o := s.rd (CORE_WIN_BASE_OFFSET 0 2) + 64
     (withMsg s m).awake 0 = true ∧ s.on MEM_INJ_CTL_ARM = false ∧
     (withMsg s m).take (fun m => m.src == 1 && m.dst == 0 && m.cls == .req && (match m.body with
      | .remoteWrite .. => true
      | _ => false)) = some (m, s) ∧ (withMsg s m).coreOwner 0 = some m.part ∧ s.boundTo 0 (o / 0x20000) = pTransfer ∧
      s.boundTo 0 ((o + 63) / 0x20000) = pTransfer ∧ (withMsg s m).core.xfers = []) ∧
    (∀ b ∈ ([.readData [some 0x80000, some 0x80001] [(7, false)], .atomRes 0x40000 true 9 false] : List MsgBody),
     let m : Msg := ⟨.rsp, 512, 0, 0, 5, false, 0, b⟩
     (withMsg owed m).take (fun x => x.src == 512 && x.dst == 0 && (withMsg owed m).current 0 x && (match x.body with
      | .readData .. => true
      | .atomRes .. => true
      | _ => false)) = some (m, owed)) := by
  decide +kernel

theorem wit_HomeService :
    (∀ b ∈ ([.memRead 0x100000000 2 [some 0, none], .memWrite 0x100000000 [(1, false), (2, false)] (some (3, 4)),
        .atomic 0x100000008 true true 0 5 false 0x40000] : List MsgBody),
      let s := ((runs 0).wr PART_TUN_EN_EN 1).mMem fun x => { x with filling := false }
      let m : Msg := ⟨.req, 0, epSlice 0, 0, 5, false, 0, b⟩
      s.on MEM_INJ_CTL_ARM = false ∧ someB b.addr? (fun y => decide (s.checkByte 0 y.1 y.2 = .ok)) = true ∧ s.memory.filling = false ∧
        s.domState (tunDom 0) = 0 ∧ (withMsg s m).take (fun m => m.src == 0 && m.dst == epSlice 0 && m.cls == .req) = some (m, s)) ∧
    (let s := ((runs 0).wr (MEM_LPW_CFG_EN 0) 1 |>.wr (MEM_LPW_CFG_SIZE 0) 1).wr MEM_LP_FILL_FILLED 1
     let m : Msg := ⟨.req, 0, epLp 0, 0, 5, false, 0, .memRead 0x1000000000 1 [some 0, none]⟩
     (withMsg s m).checkByte 0 false 0x1000000000 = .ok ∧ (withMsg s m).lpReady 0x1000000000 = true ∧
       ((withMsg s m).msgs.filter fun x => x.dst == epLp 0 && x.cls == .req && !(withMsg s m).crosses x)[0]? = some m ∧
       (withMsg s m).take (fun x => x == m) = some (m, s)) := by
  decide +kernel

theorem wit_FailedLinks : let m : Msg := ⟨.req, 0, 15, 0, 5, false, 0, .signal 0 1⟩
    let s := (withMsg (runs 0) m).mMem fun x => { x with failed := (routeOf 0 15).take 1 }
    (s.msgs.filter s.crosses)[0]? = some m ∧ m.src < 840 ∧ bit (s.rd SAF_CAUSE_EN_EN) 7 = false := by
  decide +kernel

/-! ### Attention -/

/-- A descriptor of one sequence of at most one page: lengths at 0x100000000, page table at 0x100001000, pool at offset 0x2000, statistics in the
vector bank. -/
def attnD : Nat := 0x100000000 + (0x100001000 + 1 * 2 ^ 48) * 2 ^ 64 + (1 * 2 ^ 16 + 0x2000 * 2 ^ 32) * 2 ^ 128 + (2 * 2 ^ 16 + 4 * 2 ^ 24) * 2 ^ 192 +
  0x20200 * 2 ^ (8 * 0x44)

/-- Core 0 at an APPEND of that descriptor; its sequence holds `len` tokens and gets `new` more, its page is page 0 of slice 0, whose count is `rc`. -/
def attnS (len new rc : Nat) : State :=
  ((((((runs (0x18 + 1 * 2 ^ 8 + 0x20000 * 2 ^ 12)).wr PART_TUN_EN_EN 1).writeRun (coreKey 0 0x20000) (leBytes 128 attnD)).writeRun 0x100000000
    (leBytes 8 (len + new * 2 ^ 32))).writeRun 0x100001000 (leBytes 4 (2 ^ 31))).writeRun 0x100002000 (leBytes 4 1)).writeRun 0x100002040 (leBytes 2 rc)

def attnRun (s : State) : Except Bad (Option (Nat × Nat × Claim)) × ARun :=
  let ks := (List.range 128).map (coreKey 0 0x20000 + ·)
  let s1 := (aTags attnD).foldl (fun a t => a.holdTag 0 t 0 (s.pc 0)) (s.readKeys 128 ks).2
  let s2 := (s1.wr (CORE_SEQ_STATUS_M_BUSY 0) 1).wr (CORE_SEQ_STATUS_V_BUSY 0) 1
  (aWork 0 1 attnD (aSeqs attnD) 0).run.run ⟨s2, ⟨0, 0, 0, 0, 0, 0, 0⟩, []⟩

theorem wit_AttentionCommands : ∀ x ∈ [(1, 1, true)],
    let s := attnS x.1 x.2.1 1
    let w := 0x18 + 1 * 2 ^ 8 + 0x20000 * 2 ^ 12
    let ks := (List.range 128).map (coreKey 0 0x20000 + ·)
    s.issuing 0 w ∧ s.attnBusy 0 = false ∧ okB (s.runLocal 0 pVector (bits w 32 12) 128) (fun l => l == ks) = true ∧
      anyPois (ks.map s.byteAt) = false ∧ leNum (ks.map s.byteAt) = attnD ∧ attnOk 1 attnD = true ∧ (∀ g ∈ aTags attnD, s.tagBusy 0 g = false) ∧
      okB (attnRun s).1 (fun y => y.isSome == x.2.2) = true := by
  unfold State.issuing; decide +kernel

theorem wit_PageClaims :
    let s := (attnS 1 1 1).mCore fun y => { y with claims := [⟨0, 0, 0, 0, 1⟩], attns := [⟨0, 0, 1, attnD, 0, 0, ⟨0, 0, 0, 0, 0, 0, 0⟩⟩] }
    someB (s.core.claims.find? fun x => x.slice == 0) (fun cl => someB (s.core.attns.find? fun x => x.core == cl.core) fun j =>
      let s0 := s.mCore fun x => { x with claims := x.claims.filter fun y => !([cl].contains y) }
      let r := (aNum cl.core (rcAddr j.desc (cl.slice, cl.page)) 2).run.run ⟨s0, ⟨0, 0, 0, 0, 0, 0, 0⟩, []⟩
      okB r.1 (fun n => n == 1) && okB (((do
        let (_, nq, _) ← aLen cl.core j.desc cl.seq
        aAppendRest cl.core j.desc cl.seq j.row cl.ctx nq
        aWork cl.core j.oper j.desc ((aSeqs j.desc).filter fun q => decide (cl.seq < q)) (j.row + nq) :
          AM (Option (Nat × Nat × Claim))).run.run ⟨r.2.s, j.cnt, []⟩).1) fun y => y.isNone) = true := by
  decide +kernel

theorem wit_PageClaims_copy : let s := State.reset.mCore fun y => { y with copies := [⟨0, 0x100004000, 0x100008000, 64, 0x100002000, 3⟩] }
    s.on MEM_INJ_CTL_ARM = false ∧ s.core.copies.findIdx? (fun x => x.slice == 0) = some 0 := by
  decide +kernel

theorem wit_MaskedTiles : ∀ u ∈ (⟨#[], 1, false, [[false]]⟩ : KeyTile).unm, ∀ x ∈ u, x = false := by decide

/-! ### Memory integrity -/

theorem wit_Scrubbing :
    (∀ i ∈ [0, 256, 512],
      let s := (((State.reset.wr MEM_SCRUB_RATE_CORE 1).wr MEM_SCRUB_RATE_TUN 1).wr MEM_SCRUB_RATE_LP 1 |>.wr MEM_LP_FILL_FILLED 1).mMem
        fun x => { x with filling := false }
      s.instRate i ≠ 0 ∧ s.domState (s.instDom i) = 0 ∧ s.memory.excluded = [] ∧ s.scrubPos i = 0 ∧ 0 < s.instSize i) ∧
    (let s := ((((State.reset.wr (MEM_TS_BASE_ADDR 1) 0x100000040).wr (MEM_TS_LEN_GRANULES 1) 1).wr (MEM_TS_CTL_GO 1) 1).wr (MEM_TS_OUT_ADDR 1) 0x100000000).mMem
        fun x => { x with filling := false }
     s.memKey (s.rd (MEM_TS_BASE_ADDR 1) + 64 * (s.tsCtx 1).done) = some 0x100000040 ∧ s.on (MEM_TS_CTL_GO 1) = true ∧
       (s.tsCtx 1).done < s.rd (MEM_TS_LEN_GRANULES 1) ∧ s.lpReady 0x100000040 = true ∧
       ((s.wr (MEM_TS_LEN_GRANULES 1) 0).tsCtx 1).done = (s.wr (MEM_TS_LEN_GRANULES 1) 0).rd (MEM_TS_LEN_GRANULES 1) ∧
       s.rd (MEM_TS_OUT_ADDR 1) < 0x8000000000 ∧ s.on MEM_INJ_CTL_ARM = false) := by
  decide +kernel

theorem wit_MemoryCommands :
    (let s := State.reset
     s.blockOff ((MEM_TS_CTL_GO 0).off >>> 20) = false ∧ s.on (MEM_TS_CTL_GO 0) = false ∧ bit 0x80000000 31 = true ∧ bits 0x80000000 29 28 ≠ 3 ∧
       bits 0x80000000 4 0 ≤ 24 ∧ s.locked MEM_INJ_CTL_ARM.off = false ∧ s.locked (MEM_LPW_CFG_EN 3).off = false ∧ s.on (MEM_LPW_CFG_EN 3) = false) ∧
    (let s := State.reset.mSys fun y => { y with tested := true }
     s.memory.filling = true ∧ s.sys.stage ≠ 7) ∧
    (let s := State.reset.mMem fun x => { x with lpTrained := 0xFFFE, excluded := [512] }
     (∀ ch, ch < 16 → bit s.memory.lpTrained ch = true ∨ 512 + ch ∈ s.memory.excluded) ∧ s.rd MEM_LP_FILL_FILLED < s.lpDensity) := by
  decide +kernel

/-! ### Ingest, decoding and pre-processing -/

/-- Port 0 is enabled and locked, stream 0 takes RAW8 frames of 4 × 2, and a frame is open. -/
def camera : State :=
  (((((State.reset.wr (ING_PORT_CFG_EN 0) 1).wr (ING_PORT_STAT_LOCK 0) 1).wr (ING_STR_CFG_EN 0) 1).wr (ING_STR_CFG_DT 0) 0x2A).wr (ING_STR_GEOM_WIDTH 0) 4
    |>.wr (ING_STR_GEOM_HEIGHT 0) 2).setStr 0 { strReset 0 with frame := some ⟨0, [], [], 0, 0, none, 0, 0, none, none⟩, missAt := some 0 }

theorem wit_CameraFrames : camera.csiLive 0 = true ∧ camera.on (ING_STR_CFG_EN 0) = true ∧ (camera.str 0).frame.isSome = true ∧
    camera.rd (ING_STR_CFG_DT 0) = 0x2A ∧ 0 < camera.rd (ING_STR_GEOM_HEIGHT 0) ∧ lineBytes 0x2A (camera.rd (ING_STR_GEOM_WIDTH 0)) = 4 ∧
    (camera.str 0).missAt = some 0 ∧ 0 < (camera.wr TIM_COUNT_VALUE 9).stamp := by
  decide +kernel

theorem wit_CameraControl :
    (let s := State.reset
     s.blockOff ((ING_STR_CFG_EN 0).off >>> 20) = false ∧ s.locked (ING_STR_CFG_EN 0).off = false ∧ s.on (ING_STR_CFG_EN 0) = false ∧
       camera.word (ING_STR_CFG_EN 0).off - 2 ^ 31 = 0x2A ∧ (State.reset.wr (ING_SYNC_PERIOD_PERIOD 3) 9).rd (ING_SYNC_PERIOD_PERIOD 3) = 9 ∧
       bits 0x80000001 29 27 ≤ 4 ∧ bits 0x80000001 15 0 = 1 ∧ s.on (ING_SYNC_CFG_EN 3) = false) ∧
    (let s := ((State.reset.wr (ING_SYNC_CFG_EN 3) 1).wr (ING_SYNC_CFG_TS 3) 4).wr (ING_SYNC_PERIOD_PERIOD 3) 9
     s.on (ING_SYNC_CFG_EN 3) = true ∧ s.camNext 3 ≤ s.timeAt (s.rd (ING_SYNC_CFG_TS 3)) s.stamp ∧ 1 ≤ s.rd (ING_SYNC_PERIOD_PERIOD 3)) ∧
    (let s := State.reset.mTim fun y => { y with camOut := [(3, true)] }
     mget (fun _ => false) s.tim.camOut 3 = true ∧ mget (fun _ => 0) s.tim.camEnd 3 ≤ s.now) := by
  decide +kernel

/-- A descriptor of a context of jobs: one pixel in, one pixel out. -/
def ctxD : Nat := 1 + 3 * 2 ^ 16 + (1 + 2 ^ 16) * 2 ^ 32 + (2 + 1 * 2 ^ 8) * 2 ^ 64 + 64 * 2 ^ 96 + 0x100001000 * 2 ^ 128 + 64 * 2 ^ 192 + 0x100002000 * 2 ^ 256 +
  0x100003000 * 2 ^ 320 + 2 * 2 ^ 384 + 0x100004000 * 2 ^ 576 + (1 + 2 ^ 16) * 2 ^ 1280

theorem wit_PreContexts : let s := ((State.reset.wr PART_TUN_EN_EN 1).wr (PRE_CTX_DESC_ADDR 5) 0x100000000).writeRun 0x100000000 (leBytes 256 ctxD)
    let bytes := (s.runKeys 0x100000000 256).map s.byteAt
    s.blockOff ((PRE_CTX_CFG_EN 5).off >>> 20) = false ∧ s.locked (PRE_CTX_CFG_EN 5).off = false ∧ s.on (PRE_CTX_CFG_EN 5) = false ∧
      s.checkRun 0 false 0x100000000 256 = .ok ∧ anyPois bytes = false ∧ leNum bytes = ctxD ∧ pcOk ctxD = true ∧ pcSrc ctxD = true ∧
      s.ctxOwned 0 ctxD = true ∧ s.pipeMixed 5 0 0 = false ∧ lineMem ctxD ≤ 2 ^ 21 ∧ pcOk 0 = false := by
  decide +kernel

theorem wit_PreContexts_stripe : let c : PreCtx := ⟨BitVec.ofNat 2048 ctxD, 0, 0, [⟨0, 0, none, 1, 0, 0, none⟩]⟩
    let s := (State.reset.wr (PRE_CTX_CFG_EN 5) 1).setCtx 5 (some c)
    s.ctx 5 = some c ∧ 0 < pcStripes ctxD ∧ pcStripeRows ctxD 0 ≤ 1 ∧ s.on (PRE_CTX_CFG_EN 5) = true ∧
      s.word (PRE_CTX_CFG_EN 5).off = 2 ^ 31 := by
  decide +kernel

/-- A queue of partition 0 with one descriptor. -/
def queued (b d : Nat) : State :=
  (((((State.reset.wr (qEn b) 1).wr (qLog b) 6).wr (qSq b) 0x100000000).wr (qCq b) 0x100010000).wr PART_TUN_EN_EN 1 |>.setQueue b ⟨1, 0⟩).writeRun
    0x100000000 (leBytes 64 d)

/-- Its descriptor can be fetched. -/
def fetched (s : State) (b d : Nat) : Bool :=
  s.qReady b && decide (s.checkRun (s.qPart b) false (s.qHeadAddr b) 64 (qHost b) = .ok ∧ s.qHeadAddr b < 0x8000000000) &&
    !anyPois ((s.runKeys (s.qHeadAddr b) 64).map s.byteAt) && s.qPeek b == d

theorem wit_QueueRegisters : let b := vecQueue 17
    let s := queued b 0
    s.blockOff (b >>> 20) = false ∧ s.locked b = false ∧ s.on (qEn b) = true ∧ s.on (qPsrc b) = false ∧ s.fetchOk (s.qPart b) = true ∧
      s.word b - 2 ^ 31 = 10 * 2 ^ 15 + 6 ∧ bits (10 * 2 ^ 15 + 6) 19 15 = 10 ∧ bits (10 * 2 ^ 15 + 6) 3 0 = 6 ∧
      (let u := (s.wr (qPsrc b) 1).wr (qPword b) 0x100000000
       u.on (qEn b) = true ∧ u.on (qPsrc b) = true ∧ u.inTun (u.rd (qPword b)) = true ∧ u.checkRun (u.qPart b) false (u.rd (qPword b)) 4 = .ok ∧
         anyPois ((u.runKeys (u.rd (qPword b)) 4).map u.byteAt) = false) := by
  decide +kernel

/-- An OPEN of stream 3: one output buffer, two slots, no cache. -/
def openD : Nat := 3 * 2 ^ 4 + 1 * 2 ^ 40 + 0x100001000 * 2 ^ 64 + 64 * 2 ^ 128 + (64 + 64 * 2 ^ 16) * 2 ^ 160 + 0x100002000 * 2 ^ 192 + 2 * 2 ^ 248 +
  0x100003000 * 2 ^ 256 + 1 * 2 ^ 384

theorem wit_DecoderStreams_open : let s := queued (decQ 2) openD
    fetched s (decQ 2) openD = true ∧ dkKind openD = 0 ∧ openOk openD = true ∧ s.inTun (doRel openD) = true ∧ s.decForeign 2 openD = false ∧
      s.firstFail 0 [(true, doBase openD, doNout openD * doStride openD), (true, doDpb openD, doSlots openD * doStride openD), (false, doRel openD, 8)] = none ∧
      doCbase openD = 0 := by
  decide +kernel

/-- An open stream 3, its descriptor with a picture cache at 0x100005000, and unit 8 decoded. -/
def opened (d : Nat) : State := (queued (decQ 2) d).setDec 3 (some ⟨0, BitVec.ofNat 512 (openD + 0x100005000 * 2 ^ 320), 0, some 8, [], false, []⟩)

theorem wit_DecoderStreams : (let d := 3 + 3 * 2 ^ 4
      fetched (opened d) (decQ 2) d = true ∧ dkKind d = 3 ∧ onlyFields d [] = true ∧ (opened d).decHeld 2 d = false ∧ ((opened d).decOwn 2 d).isSome = true) ∧
    (let d := 1 + 3 * 2 ^ 4 + 0x100006000 * 2 ^ 64 + 1 * 2 ^ 128 + 9 * 2 ^ 160
     fetched (opened d) (decQ 2) d = true ∧ dkKind d = 1 ∧ (opened d).slotOpen 0 = true ∧ someB ((opened d).decOwn 2 d) (fun x => x.last == some 8) = true ∧
       onlyFields d [(64, 111), (128, 159), (160, 191), (192, 192)] = true ∧ ddLen d = 1 ∧ ddIdx d = 9 ∧ ddAddr d < 0x8000000000 ∧
       (opened d).checkRun 0 false (ddAddr d) (ddLen d) true = .ok) ∧
    (let d := 2 + 3 * 2 ^ 4 + 7 * 2 ^ 64 + 0x100007000 * 2 ^ 96
     fetched (opened d) (decQ 2) d = true ∧ dkKind d = 2 ∧ onlyFields d [(64, 95), (96, 143)] = true ∧ dfDst d % 64 = 0 ∧
       (opened d).checkRun 0 true (dfDst d) 64 true = .ok ∧ someB ((opened d).decOwn 2 d) (fun x => doCbase x.desc.toNat == 0x100005000) = true) := by
  decide +kernel

/-- The random access clause of DecoderStreams speaks of what the access unit's bytes say, which the codec's standard gives and the model leaves to
Config: it is met by a unit that is no random access point. -/
theorem wit_DecoderStreams_gap (au : List (BitVec 8)) (h : Config.decRap 0 au = false) :
    Config.decRap 0 au = false ∧ (some 8 : Option Nat) ≠ some ((8 + 2 ^ 32 - 1) % 2 ^ 32) ∧ (some 8 : Option Nat).all (fun l => decide (l < 2 ^ 32)) = true :=
  ⟨h, by decide⟩

theorem wit_DecoderStreams_resume : let x : DecStream := ⟨0, BitVec.ofNat 512 openD, 0, none, [], false, [⟨⟨64, 64, 0, 0, 0, []⟩, false, 2, 0, false⟩]⟩
    let s := State.reset.setDec 3 (some x)
    s.dec 3 = some x ∧ doRel x.desc.toNat < 0x8000000000 ∧ anyPois ((s.runKeys (doRel x.desc.toNat) 8).map s.byteAt) = false := by
  decide +kernel

/-- Frame and flush jobs of PRE queue 2. -/
def frameD : Nat := 5 + 2 * 2 ^ 8 + 0x100006000 * 2 ^ 64 + (1 + 2 ^ 16) * 2 ^ 128 + 64 * 2 ^ 160

theorem wit_SampleJobs_frame : let c : PreCtx := ⟨BitVec.ofNat 2048 ctxD, 0, 0, []⟩
    let s := (queued (preQ 2) frameD).setCtx 5 (some c)
    fetched s (preQ 2) frameD = true ∧ jKind frameD = 2 ∧ (s.preq 2).stalled = false ∧ s.jobCtx 2 frameD = some ctxD ∧ s.ctx (jCtx frameD) = some c ∧
      jW frameD = pcInW ctxD ∧ jH frameD = pcInH ctxD ∧ pcRel ctxD < 0x8000000000 ∧ pcGrid ctxD < 0x8000000000 ∧
      (c.acc + 2 ^ 64 - leNum ((s.runKeys (pcRel ctxD) 8).map s.byteAt)) % 2 ^ 64 < pcNbuf ctxD ∧
      s.checkRun 0 false (jSrc frameD) (jBytes frameD) true = .ok ∧
      anyPois ((s.runKeys (pcGrid ctxD) (8 * gridLen ctxD (pcOutW ctxD) (pcOutH ctxD))).map s.byteAt) = false := by
  decide +kernel

theorem wit_SampleJobs_flush : let s := (queued (preQ 2) (1 * 2 ^ 8)).setPreq 2 ⟨[], [], [⟨0, [4], 0⟩, ⟨1, [3, 5], 0⟩], [], [(⟨2, 1, 0, 2, 2, .ok⟩, [2])], false⟩
    fetched s (preQ 2) (1 * 2 ^ 8) = true ∧ jKind (1 * 2 ^ 8) = 1 ∧ (s.preq 2).stalled = false ∧ ((s.preq 2).partials.map fun b => b.bucket).Nodup ∧
      ((s.preq 2).partials.map fun b => b.seqs.headD 0).Nodup ∧
      ((s.preq 2).held.find? (fun h => (s.preq 2).waiting.all fun n => decide (h.1.lo ≤ n))).isSome = true := by
  decide +kernel

/-- A sample of one pixel that names no bucket of its own choosing but bucket 0. -/
def sampleD : Nat := 5 + 0x100006000 * 2 ^ 64 + (1 + 2 ^ 16) * 2 ^ 128 + 64 * 2 ^ 160 + (1 + 2 ^ 16) * 2 ^ 320

/-- Queue 2 with one bucket entry and an open batch. -/
def bucketS (e : BitVec 512) : State := (State.reset.wr TIM_COUNT_VALUE 1000).setPreq 2 ⟨[e], [], [⟨0, [4], 0⟩], [], [], false⟩

theorem sampleD_fields : jBucket sampleD = 0 ∧ jOutW sampleD = 1 ∧ jOutH sampleD = 1 := by decide +kernel

theorem bucketS_now (e : BitVec 512) : (bucketS e).now = 1000 := by
  show (State.reset.wr TIM_COUNT_VALUE 1000).now = 1000
  decide +kernel

theorem bucketS_bucket (e : BitVec 512) : (bucketS e).bucket 2 0 = e := rfl

/-- The fields of a bucket entry are Config's, for R248 gives no layout: a sample job and a timeout are met by an entry whose fields are as said. -/
theorem wit_SampleJobs_bucket (e : BitVec 512) (h : bkEn e = true) (h1 : bkH e = 1) (h2 : bkW e = 1) (h3 : bkTimeout e = 1) :
    (bucketS e).pickBucket 2 sampleD = some 0 ∧ bkTimeout ((bucketS e).bucket 2 0) ≠ 0 ∧
      0 + 1000 * bkTimeout ((bucketS e).bucket 2 0) ≤ (bucketS e).now := by
  obtain ⟨hj, hw, hh⟩ := sampleD_fields
  refine ⟨?_, ?_, ?_⟩
  · simp only [State.pickBucket, hj, bucketS_bucket, hw, hh, h, h1, h2, if_neg (show ¬ (0 = 15) by decide), Nat.le_refl, and_self, decide_true, Bool.and_self, if_true]
  · rw [bucketS_bucket, h3]; decide
  · rw [bucketS_bucket, h3, bucketS_now]

/-! ### Registers, partitions and loading -/

theorem wit_RegisterAccess :
    (let s := State.reset
     let off := PWR_ETHWAKE_CFG_EN0.off
     let u := s.wr SYS_LOCK_LOCK 1
     s.blockOff (off >>> 20) = false ∧ s.locked off = false ∧ u.blockOff (off >>> 20) = false ∧ u.locked off = true ∧
       bits 0x80000000 31 31 ≠ u.rd PWR_ETHWAKE_CFG_EN0 ∧ bits 0 31 31 = u.rd PWR_ETHWAKE_CFG_EN0 ∧ bits 0 30 30 = u.rd PWR_ETHWAKE_CFG_EN1 ∧
       s.blockOff ((PWR_CANWAKE_CFG_EN 3).off >>> 20) = false ∧ s.locked (PWR_CANWAKE_CFG_EN 3).off = false ∧ bits 0x30000000 29 28 = 3 ∧
       255 < s.nCores ∧ s.rd (CORE_STATE_STATE 255) = 0 ∧ (s.wr (CORE_STATE_STATE 255) 1).rd (CORE_STATE_STATE 255) ≠ 0) ∧
    (let off := TIM_COUNT_VALUE.off
     someB (regAt off) (fun x => x.2.2 == 0 && latches x.1 off && latches x.1 (off + 4) && someB (regAt (off + 4)) fun y => y.2.2 == 1 && y.1 == x.1) = true ∧
       State.reset.reach .image off 4 false = .ok ∧ State.reset.reach .image (off + 4) 4 false = .ok ∧
       mget (fun _ => none) ({ State.reset with hold := [(off * 512 + 2, some 7)] } : State).hold (off * 512 + State.reset.holder .image) = some 7) := by
  decide +kernel

/-- Partition 1 owns core 0 and slice group 0, and is disabled. -/
def owner : State := ((((State.reset.wr (PART_CORE_EN_EN 0) 1).wr (PART_CORE_OWN_OWN 0) 1).wr PART_TUN_EN_EN 1).wr (PART_TUN_OWN_OWN 0) 1).wr (PART_STATUS_STATE 1) 0

/-- The same, enabled in class G and EMPTY. -/
def empty1 : State := ((owner.wr (PART_CFG_EN 1) 1).wr (PART_CFG_CLASS 1) 1).wr (PART_STATUS_STATE 1) stEmpty

theorem wit_PartitionSettings :
    (let off := (PART_CFG_EN 1).off
     owner.blockOff (off >>> 20) = false ∧ owner.locked off = false ∧ owner.on (PART_CFG_EN 1) = false ∧ bit 0xA0000000 31 = true ∧
       bits 0xA0000000 30 29 = 1 ∧ owner.enableOk 1 1 = true ∧ owner.enableOk 2 1 = false ∧ owner.on (PART_CFG_EN 2) = false ∧
       empty1.on (PART_CFG_EN 1) = true ∧ empty1.locked off = false ∧ empty1.rd (PART_STATUS_STATE 1) = stEmpty ∧
       (empty1.wr (PART_STATUS_STATE 1) stRunning).rd (PART_STATUS_STATE 1) ≠ stEmpty ∧ owner.locked (PART_DET_CFG_RELAXED 1).off = false ∧
       owner.classOf 1 = 0 ∧ empty1.classOf 1 ≠ 0) ∧
    (let s := (empty1.wr (PART_RPT_BASE_ADDR 1) 0x100000000).wr (PART_RPT_RADDR_ADDR 1) 0x100010000
     let v := 0x80000000 + 4 * 2 ^ 16 + 1 * 2 ^ 15
     s.blockOff ((PART_RPT_CFG_EN 1).off >>> 20) = false ∧ s.on (PART_RPT_CFG_EN 1) = false ∧ bit v 31 = true ∧ bits v 20 16 = 4 ∧ bit v 15 = true ∧
       s.tunOwned 1 (s.rd (PART_RPT_BASE_ADDR 1)) (32 * 2 ^ 4) = true ∧ s.tunOwned 1 (s.rd (PART_RPT_RADDR_ADDR 1)) 4 = true ∧
       s.coreIn (bits v 7 0) 1 = true ∧ s.on (PART_RPT_EVT_EEN 1) = false) ∧
    (let s := (State.reset.wr PART_SLOT_CFG_EN 1).wr PART_SLOT_CFG_SLOT_LEN 1
     s.on PART_SLOT_CFG_EN = true ∧ s.rd PART_SLOT_CFG_SLOT_LEN = 1) := by
  decide +kernel

/-- A plan of one core and one word. -/
def plan1 : PlanBinary :=
  ⟨0x4C50434F, 0x0300, 0, 0x9256, 1, 1, 0, 0, 0, 0, [⟨0, [1], [], 2, 1, 0, [], []⟩], [], ⟨[], [], []⟩⟩

theorem wit_PartitionLife_load : empty1.rd (PART_STATUS_STATE 1) = stEmpty ∧ empty1.loadCheck 1 plan1 = none ∧
    empty1.loadCheck 1 { plan1 with magic := 0 } = some refDigest := by
  decide +kernel

theorem wit_PartitionLife :
    (let s := empty1.mPart fun y => { y with stops := [(1, 0)] }
     s.part.stops.contains (1, 0) = true) ∧
    (empty1.blockOff ((PART_CTL_RESET 1).off >>> 20) = false ∧ bit 0x80000000 31 = true ∧ empty1.rd (PART_STATUS_STATE 1) ≠ stUnused ∧
      empty1.rd (PART_STATUS_STATE 1) ≠ stResetting ∧ empty1.rd (PART_STATUS_STATE 1) ≠ stFault) ∧
    (let s := (empty1.wr (PART_STATUS_STATE 1) stResetting).mPart fun y => { y with resetReq := [(1, true)] }
     mget (fun _ => false) s.part.resetReq 1 = true ∧ s.rd (PART_STATUS_STATE 1) = stResetting ∧ s.classOf 1 ≠ 0) ∧
    (let s := empty1.mPart fun y => { y with resetStep := [(1, 1)] }
     s.resetPhase 1 = 1 ∧ (∀ x ∈ s.part.stops, x.1 ≠ 1) ∧ s.drained 1 = true) ∧
    (let s := empty1.mPart fun y => { y with resetStep := [(1, 2)] }
     s.resetPhase 1 = 2 ∧ mget (fun _ => none) s.part.nextLoad 1 = none ∧ mget (fun _ => none) s.part.imagePlan 1 = none) := by
  decide +kernel

/-! ### The solver -/

/-- A CHOL job of one member of size 2 with one right-hand side. -/
def cholD : Nat := 2 * 2 ^ 32 + 1 * 2 ^ 64 + 1 * 2 ^ 80 + 0x100001000 * 2 ^ 128 + 0x100002000 * 2 ^ 320 + 0x100003000 * 2 ^ 384 + 0x100004000 * 2 ^ 512 +
  2 * 2 ^ 576 + 1 * 2 ^ 736

/-- Queue 0 of SOL, of partition 0, holds it. -/
def solS : State :=
  ((((State.reset.wr (qEn (solQ 0)) 1).wr (qLog (solQ 0)) 6).wr (qSq (solQ 0)) 0x100000000).wr PART_TUN_EN_EN 1 |>.setQueue (solQ 0) ⟨1, 0⟩).writeRun
    0x100000000 (leBytes 128 cholD)

/-- The factorisation of [4 2; 2 5] in exponent 0. -/
theorem wit_DenseSolving : (cholFact 2 0 fun i j => ⟨if i = j then 4 + (i : Int) else 2, 0⟩).fail = 0 ∧
    (let j := { freshJob 0 cholD 0 with setup := true }
     let s := State.reset.setRun (some j)
     s.sol.run = some j ∧ sdKind j.desc.toNat = 0 ∧ j.ended = none ∧ j.check = false ∧ j.units < sdNb j.desc.toNat ∧ (freshJob 0 cholD 0).setup = false) := by
  decide +kernel

theorem wit_SolverJobs_fetch : let s := solS
    let p := s.qPart (solQ 0)
    let a := s.rd (SOL_Q_SQ_ADDR 0) + (s.queue (solQ 0)).next % s.qSize (solQ 0) * 128
    let bytes := (s.runKeys a 128).map s.byteAt
    s.sol.run = none ∧ s.solPick = some 0 ∧ (s.sol.susp.find? fun j => j.queue == 0) = none ∧ s.checkRun p false a 128 true = .ok ∧ a < 0x8000000000 ∧
      anyPois bytes = false ∧ leNum bytes = cholD ∧ sdOk cholD = true ∧ s.firstFail p (sdRanges cholD) = none ∧ (sdNote cholD).1 = false ∧
      sdDl cholD = 0 := by
  decide +kernel

/-- A job of kind k in hand. -/
def held (k : Nat) : SolJob := { freshJob 1 (cholD + k) 0 with setup := true, x := [0, 0], r := [1, 2], p := [1, 2], rho := 5 }

theorem wit_SolverJobs :
    (let s := solS.mSol fun x => { x with susp := [{ held 0 with queue := 0 }] }
     s.sol.run = none ∧ s.solPick = some 0 ∧ (s.sol.susp.find? fun j => j.queue == 0) = some { held 0 with queue := 0 }) ∧
    (let s := (solS.wr (SOL_Q_CFG_PRIO 0) 1).setRun (some (held 0))
     s.sol.run = some (held 0) ∧ (held 0).setup = true ∧ (held 0).ended = none ∧ s.sol.susp.length < 3 ∧ s.solPending 0 = true ∧
       s.rd (SOL_Q_CFG_PRIO (held 0).queue) < s.rd (SOL_Q_CFG_PRIO 0)) ∧
    ((State.reset.setRun (some (held 4))).sol.run = some (held 4) ∧ sdKind (held 4).desc.toNat = 4 ∧ (held 4).check = false ∧ (held 4).units = 0) ∧
    ((State.reset.setRun (some (held 5))).sol.run = some (held 5) ∧ sdKind (held 5).desc.toNat = 5) ∧
    (let late := { freshJob 0 (cholD + 1 * 2 ^ 6 + 0 * 2 ^ 20) 0 with check := true }
     State.reset.late late.desc.toNat = true ∧ State.reset.late (held 0).desc.toNat = false ∧ sdDl (held 0).desc.toNat ≠ 2 ∧
       ({ held 0 with units := 1 } : SolJob).finish.isSome = true ∧ (held 0).finish = none) ∧
    (let j := { held 0 with ended := some 0 }
     (State.reset.setRun (some j)).sol.run = some j ∧ j.check = false ∧ j.stale = false ∧ sdChEn (cholD + 2 ^ 18) = true ∧ j.queue < 16) := by
  decide +kernel

/-! ### The control engine -/

/-- Channel 63 is enabled and RUN, at a count of 100000. -/
def running : State := ((State.reset.wr (CTL_CH_CFG_EN 63) 1).wr (CTL_CH_STATUS_STATE 63) chRun).wr TIM_COUNT_VALUE 100000

/-- Its parameter block is legal. -/
def legalPar (s : State) (h : Nat) : State :=
  (((s.wr (CTL_CH_PARAM_VALUE h 31) 1).wr (CTL_CH_PARAM_VALUE h 43) 1).wr (CTL_CH_PARAM_VALUE h 44) 1).wr (CTL_CH_PARAM_VALUE h 45) 1

theorem wit_ControlCommands :
    (let s := ((running.wr (CTL_CYC_CFG_EN 3) 1).wr (CTL_CYC_CFG_TS 3) 4).wr (CTL_CYC_PERIOD_PERIOD 3) 9
     s.on (CTL_CYC_CFG_EN 3) = true ∧ s.cycNext 3 ≤ s.timeAt (s.rd (CTL_CYC_CFG_TS 3)) s.stamp ∧ 1 ≤ s.rd (CTL_CYC_PERIOD_PERIOD 3)) ∧
    (∀ h ∈ [0, 63], running.blockOff ((CTL_CH_CMD_OP h).off >>> 20) = false ∧ bit 4 2 = true ∧
      paramOk (chPriv h) (fun i => (legalPar running h).rd (CTL_CH_PARAM_VALUE h i)) = true ∧
      paramOk (chPriv h) (fun i => running.rd (CTL_CH_PARAM_VALUE h i)) = false) ∧
    ((State.reset.wr (CTL_CH_STATUS_STATE 63) chIdle).chState 63 = chIdle ∧ running.chState 63 = chRun ∧ bit 1 2 = false ∧ bit 2 2 = false ∧
      bit 3 2 = false ∧ (State.reset.wr (CTL_CH_STATUS_STATE 63) chTripped).chState 63 = chTripped) ∧
    (let v := running.word (CTL_CH_CFG_EN 63).off - 2 ^ 31
     running.locked (CTL_CH_CFG_EN 63).off = false ∧ running.chOn 63 = true ∧ bits v 23 21 ≤ 4 ∧ bits v 19 18 ≤ 2 ∧ bits v 11 8 ≤ 8) ∧
    (let v := 2 ^ 31 + 3 * 2 ^ 13
     running.locked (CTL_QEI_CFG_EN 15).off = false ∧ running.on (CTL_QEI_CFG_EN 15) = false ∧ bits v 21 20 ≤ 2 ∧ bits v 17 13 = 3 ∧ bit v 31 = true) ∧
    (let v := 2 ^ 31 + 1 * 2 ^ 29
     running.on (CTL_INJ_CFG_EN 3) = false ∧ bit v 31 = true ∧ bits v 30 29 = 1 ∧ running.rd (CTL_INJ_LEN_VALUE 3) = 0 ∧
       (running.wr (CTL_INJ_LEN_VALUE 3) 5).rd (CTL_INJ_LEN_VALUE 3) = 5 ∧ chPriv (bits v 27 22) = false) ∧
    (let s := ((running.wr (CTL_CAP_NSAMP_NSAMP 2) 16).wr (CTL_CAP_BASE_BASE 2) 0x100000000).wr PART_TUN_EN_EN 1
     let v := 2 ^ 31 + 63 * 2 ^ 23
     s.on (CTL_CAP_CFG_GO 2) = false ∧ bit v 31 = true ∧ bits v 15 0 = 0 ∧ s.rd (CTL_CAP_DEC_PRE 2) < s.rd (CTL_CAP_NSAMP_NSAMP 2) ∧
       s.rd (CTL_CAP_BASE_BASE 2) % 64 = 0 ∧ s.tunOwned (s.chOwner (bits v 28 23)) (s.rd (CTL_CAP_BASE_BASE 2)) (16 * 16) = true ∧
       s.on (CTL_CAP_NOTE_EN 2) = false ∧
       ((s.wr (CTL_CAP_CFG_GO 2) 1).mCtl fun y => { y with cap := [(2, ⟨0, 3, some 0⟩)] }).on (CTL_CAP_CFG_GO 2) = true ∧
       (((s.wr (CTL_CAP_CFG_GO 2) 1).mCtl fun y => { y with cap := [(2, ⟨0, 3, some 0⟩)] }).cap 2).left = some 0) := by
  decide +kernel

/-- An update of channel 63 that was accepted at 40000. -/
def req63 : CtlReq := ⟨40000, 40000, 5, 7⟩

theorem wit_ChannelUpdates :
    (let s := running.setChan 63 { running.chan 63 with trig := some 90000, acc := some 80000 }
     (s.chan 63).trig = some 90000 ∧ s.chOn 63 = true ∧ s.rd (CTL_CH_NOTE_TDIV 63) ≤ (s.chan 63).div ∧ 5000 ≤ (90000 + 2 ^ 64 - 80000) % 2 ^ 64 ∧
       s.fbFault 63 = false ∧ s.chState 63 = chRun) ∧
    (let s := running.setChan 63 { running.chan 63 with trig := some 90000, acc := some 89000 }
     (s.chan 63).acc = some 89000 ∧ (90000 + 2 ^ 64 - 89000) % 2 ^ 64 < 5000 ∧ s.on (CTL_CH_CFG_OVR_ACT 63) = false) ∧
    (let s := running.setChan 63 { running.chan 63 with req := some req63 }
     s.pickReq 0 = some (63, req63) ∧ (∀ v ∈ s.unitsOf 63, s.unitFree v = true) ∧ (s.chan 63).run = none) ∧
    (let s := running.setChan 63 { running.chan 63 with run := some (req63, 50000), first := false }
     (s.chan 63).run = some (req63, 50000) ∧ s.chState 63 = chRun ∧ s.passed 50000 (ctlCycles 52) = true ∧ (s.chan 63).first = false ∧
       s.rd (CTL_CH_SRC_SPSRC 63) = 0 ∧ s.on (CTL_CH_CFG_MODEL 63) = false ∧
       ∀ g, g < 4 → s.on (CTL_INJ_CFG_EN g) = false ∧ s.on (CTL_CAP_CFG_GO g) = false) ∧
    (let s := ((running.setChan 63 { running.chan 63 with refresh := true }).wr (CTL_CH_SRC_SPSRC 63) 1).wr (CTL_CH_TRAJ_ADDR 63) 0x100000000 |>.wr
       PART_TUN_EN_EN 1
     let a := s.rd (CTL_CH_TRAJ_ADDR 63)
     let bytes := (s.runKeys a 64).map s.byteAt
     (s.chan 63).refresh = true ∧ s.chOn 63 = true ∧ s.rd (CTL_CH_SRC_SPSRC 63) = 1 ∧
       s.tunOwned (s.chOwner 63) a (64 + 16 * 2 ^ s.rd (CTL_CH_TRAJ_LOG2N 63)) = true ∧ anyPois bytes = false ∧
       rdWord (leNum bytes) 4 / 256 = (s.chan 63).seq ∧ s.on MEM_INJ_CTL_ARM = false) ∧
    (let s := (running.wr (CTL_PWM_CFG_LOAD 23) 1).wr (CTL_PWM_CFG_MODE 23) 1
     s.on (CTL_PWM_CFG_LOAD 23) = true ∧ s.on (CTL_PWM_CFG_MODE 23) = true) := by
  decide +kernel

theorem wit_ControlInputs :
    (let s := (running.wr (CTL_QEI_CFG_EN 15) 1).setQei 15 ⟨true, true, false, 0, 0, 0⟩
     s.on (CTL_QEI_CFG_EN 15) = true ∧ ((s.qei 15).a, (s.qei 15).b) = (true, true) ∧ true ≠ s.on (CTL_QEI_CFG_IDXPOL 15) ∧
       s.passed (s.qei 15).winFrom (8 * 2 ^ s.rd (CTL_QEI_CFG_VW 15)) = true ∧
       (let u := (s.wr (CTL_QEI_CFG_STALL 15) 1).wr (CTL_CH_SRC_FBIDX 63) 15
        u.rd (CTL_QEI_CFG_STALL 15) ≠ 0 ∧ u.on (CTL_QEI_STAT_STALLED 15) = false ∧ u.qeiWatched 15 = true ∧
          u.passed (u.qei 15).still (u.rd (CTL_QEI_CFG_STALL 15) * 4096 * 8) = true)) ∧
    (let s := (running.wr (CTL_SDM_CFG_EN 31) 1).wr (CTL_SDM_CFG_OSR 31) 4
     s.on (CTL_SDM_CFG_EN 31) = true ∧ s.rd (CTL_SDM_CFG_OSR 31) = 4 ∧ 3 * (16 * 2 ^ s.rd (CTL_SDM_CFG_OSR 31)) ≤ 766 + 2 ∧
       (let u := ((s.wr (CTL_SDM_CMP_CEN 31) 1).wr (CTL_SDM_CMP_CTRIP 31) 1).wr (CTL_SDM_CFG_TRIPCH 31) 63
        u.on (CTL_SDM_CMP_CEN 31) = true ∧ u.rd (CTL_SDM_CMP_CHI 31) ≤ 5 ∧ u.on (CTL_SDM_CMP_CTRIP 31) = true ∧
          u.chState (u.rd (CTL_SDM_CFG_TRIPCH 31)) = chRun)) ∧
    (let s := ((running.wr (CTL_PCAP_CFG_EN 15) 1).wr (CTL_PCAP_CFG_TOUT 15) 1).mCtl fun y => { y with pcap := [(15, ⟨false, some 1000, some 2000, 5⟩)] }
     s.on (CTL_PCAP_CFG_EN 15) = true ∧ true ≠ s.on (CTL_PCAP_CFG_POL 15) ∧ (s.pcap 15).rise = some 1000 ∧ (s.pcap 15).fall = some 2000 ∧
       0 < (s.now / 2 + 2 ^ 63 - 1000) % 2 ^ 63 ∧ s.rd (CTL_PCAP_CFG_MODE 15) = 0 ∧ (s.wr (CTL_PCAP_CFG_MODE 15) 1).rd (CTL_PCAP_CFG_MODE 15) = 1 ∧
       s.rd (CTL_PCAP_CFG_TOUT 15) ≠ 0 ∧ s.passed (s.pcap 15).last (s.rd (CTL_PCAP_CFG_TOUT 15) * 512) = true) ∧
    (let s := (running.wr (CTL_ENC_CFG_EN 7) 1).mCtl fun y => { y with enc := [(7, ⟨true, false, false, 0⟩)] }
     s.on (CTL_ENC_CFG_EN 7) = true ∧ (s.enc 7).due = true ∧ (s.enc 7).busy = false) ∧
    (let s := (running.wr (CTL_ENC_CFG_EN 7) 1).mCtl fun y => { y with enc := [(7, ⟨false, true, false, 0⟩)] }
     s.on (CTL_ENC_CFG_EN 7) = true ∧ (s.enc 7).busy = true ∧ s.rd (CTL_ENC_CFG_PAR 7) = 0 ∧ s.on (CTL_ENC_CFG_GRAY 7) = false) := by
  decide +kernel

/-! ### Time -/

theorem wit_TimeCommands :
    (let s := (State.reset.wr (TIM_RATE_VALUE 3) 0x400000000000).wr TIM_COUNT_VALUE 1000
     s.on (TIM_TS_CTL_COMMIT 3) = false ∧ s.locked (TIM_TS_CTL_COMMIT 3).off = false ∧ bit 0x80000000 31 = true ∧ bits 0x80000000 30 29 ≤ 2 ∧
       rateOk (s.rd (TIM_RATE_VALUE 3)) = true ∧ bits 0xE0000000 30 29 = 3 ∧ rateOk ((s.wr (TIM_RATE_VALUE 3) 0).rd (TIM_RATE_VALUE 3)) = false ∧
       (s.wr (TIM_TS_CTL_COMMIT 3) 1).on (TIM_TS_CTL_COMMIT 3) = true ∧ mget (fun _ => 0) s.tim.commitAt 3 ≤ s.now ∧
       (s.wr (TIM_TS_CTL_MODE 3) 2).rd (TIM_TS_CTL_MODE 3) = 2 ∧ (s.wr (TIM_TS_CTL_MODE 3) 1).rd (TIM_TS_CTL_MODE 3) = 1) ∧
    (∀ x ∈ [(0, 0), (0, 5), (50, 5)], let s := ((State.reset.wr TIM_SRV_CFG_EN 1).wr (TIM_ABASE_VALUE 0) x.1).wr TIM_SRV_STEP_THR_THR x.2 |>.mTim fun y =>
       { y with pairs := [(0, 70, 20)] }
     s.tim.pairs = [(0, 70, 20)] ∧ s.on TIM_SRV_CFG_EN = true ∧ s.rd TIM_SRV_CFG_SRC = 0 ∧
       ((x.1 = 50 ∧ 20 < s.rd (TIM_ABASE_VALUE 0)) ∨ (x.1 = 0 ∧ ¬ 20 < s.rd (TIM_ABASE_VALUE 0) ∧
         (s.rd TIM_SRV_STEP_THR_THR = 0 ∨ s.rd TIM_SRV_STEP_THR_THR ≤ (toSigned 64 ((70 + 2 ^ 64 - s.readingAt 0 20) % 2 ^ 64)).natAbs)))) ∧
    (let s := State.reset.wr TIM_PPSI_CFG_EN 1
     s.on TIM_PPSI_CFG_EN = true ∧ true ≠ s.on TIM_PPSI_CFG_POL) ∧
    (let s := ((State.reset.wr TIM_PPSO_CFG_EN 1).wr TIM_PPSO_CFG_TS 4).wr TIM_COUNT_VALUE 1000
     s.on TIM_PPSO_CFG_EN = true ∧ s.tim.ppsNext ≤ s.timeAt (s.rd TIM_PPSO_CFG_TS) s.stamp ∧
       (let u := s.mTim fun y => { y with ppsOut := true, alarmAhead := true }
        u.tim.ppsOut = true ∧ u.tim.ppsEnd ≤ u.now ∧ u.tim.alarmAhead = true ∧ u.rd TIM_ALARM_VALUE ≤ u.now)) ∧
    (bit State.reset.pwr.dead 3 = false ∧ State.reset.pwr.cellar ≠ 2) ∧
    (let s := (((State.reset.wr (EVT_RING_BASE_ADDR 1) 0x100000000).wr (EVT_RING_RADDR_ADDR 1) 0x100010000).wr PART_TUN_EN_EN 1).wr (PART_TUN_OWN_OWN 0) 1
     let v := 2 ^ 31 + 4 * 2 ^ 16
     s.on (EVT_RING_CFG_EN 1) = false ∧ bit v 31 = true ∧ bits v 20 16 = 4 ∧ bit v 15 = false ∧ s.rd (EVT_RING_BASE_ADDR 1) % 64 = 0 ∧
       s.rd (EVT_RING_RADDR_ADDR 1) % 4 = 0 ∧ s.tunOwned 1 (s.rd (EVT_RING_BASE_ADDR 1)) (16 * 2 ^ 4) = true ∧
       s.tunOwned 1 (s.rd (EVT_RING_RADDR_ADDR 1)) 4 = true) := by
  decide +kernel

/-! ### Safety -/

/-- A message on SAF from core 3 of partition 0 to the safety block. -/
def safMsg (b : MsgBody) : Msg := ⟨.saf, 3, epSaf, 0, 0, false, 0, b⟩

/-- Core 3 belongs to partition 0, comparator slot 1 is enabled. -/
def safety : State := ((State.reset.wr (PART_CORE_EN_EN 0) 8).wr (SAF_CMP_CFG_EN 1) 1).wr TIM_COUNT_VALUE (10 ^ 12)

theorem wit_SafetyChecks_reports :
    (let s := withMsg safety (safMsg (.report 1 7))
     s.crosses (safMsg (.report 1 7)) = false ∧ s.on (SAF_CMP_CFG_EN 1) = true ∧ 7 < 2 ^ 33 ∧ s.coreOwner 3 = some (s.cmpPart 1 0) ∧
       (∀ x ∈ s.pendOf 1, x.1 ≠ 7) ∧ (s.pendOf 1).length < 4 ∧
       ((s.setPend 1 [(7, 1, 5)]).pendOf 1).find? (fun x => x.1 == 7) = some (7, 1, 5)) ∧
    (let s := withMsg State.reset (safMsg (.report 1 7))
     s.on (SAF_CMP_CFG_EN 1) = false) ∧
    (let s := safety.setPend 1 [(7, 1, 5)]
     s.pendOf 1 = [(7, 1, 5)] ∧ s.passed 5 (max (s.rd (SAF_CMP_TMO_TMO 1)) 1 * 1000) = true) ∧
    (let s := safety.mSaf fun x => { x with builtin := [(1, true)] }
     mget (fun _ => false) s.saf.builtin 1 = true) := by
  decide +kernel

/-- Slot 1 has both records of frame 0 in Tun; b's second word is v. -/
def verdictS (v : Nat) : State :=
  (((((safety.setReady 1 [0]).wr (SAF_CMP_CFG_LEN64 1) 1).wr PART_TUN_EN_EN 1).wr (SAF_CMP_ABASE_ADDR 1) 0x100000000).wr (SAF_CMP_BBASE_ADDR 1) 0x100001000).writeRun 0x100001004 (leBytes 4 v)

theorem wit_SafetyChecks_verdict : ∀ v ∈ [0, 9], let s := verdictS v
    let x := (s.setReady 1 []).readRec 1 0 0
    let y := x.2.readRec 1 1 0
    s.readyOf 1 = [0] ∧ someB x.1 (fun a => !anyPois a && leNum a == 0) = true ∧ someB y.1 (fun b => !anyPois b && leNum b == v * 2 ^ 32) = true ∧
      y.2.rd (SAF_CMP_CFG_MODE 1) = 0 := by
  decide +kernel

theorem wit_SafetyChecks_gravity :
    (let s := (safety.wr SAF_FRM_CFG_EN 1).wr SAF_FRM_CFG_TS 4
     s.on SAF_FRM_CFG_EN = true ∧ s.saf.epochOn = false ∧ s.rd SAF_FRM_START_START ≤ s.timeAt (s.rd SAF_FRM_CFG_TS) s.stamp) ∧
    (let s := (safety.setDom (safety.coreDom 3) 0).mSaf fun x => { x with active := [(3, true)] }
     s.gravActive 3 = true ∧ mget (fun _ => false) s.saf.ran 3 = false ∧ s.awake 3 = true ∧ s.lateEpoch = true ∧ s.idlePoint 3 = false ∧
       (s.wr (CORE_SEQ_STATUS_STALL 3) stCounter).idlePoint 3 = true ∧
       s.crosses (safMsg (.gravity 0 77)) = false ∧ s.rd SAF_EPOCH_EPOCH = 0 ∧ 77 ≠ s.rd (SAF_GRAV_CRC_CRC 0) ∧
       (s.wr (SAF_GRAV_CRC_CRC 0) 77).rd (SAF_GRAV_CRC_CRC 0) = 77 ∧ s.coreOwner 3 = some 0 ∧ s.classOf 0 = 0 ∧
       (s.wr (PART_CFG_CLASS 0) 1).classOf 0 ≠ 0) := by
  decide +kernel

/-- Quad 0 turns: its spare is position 64, its period and window have passed. -/
def turning : State := ((safety.wr SAF_FT_CFG_EN 1).wr SAF_FT_CFG_PERIOD 1).setSpares 0 [256]

theorem wit_FloorTurning :
    (turning.on SAF_FT_CFG_EN = true ∧ (turning.quad 0).step = 0 ∧ turning.passed (turning.quad 0).began (turning.rd SAF_FT_CFG_PERIOD * 10 ^ 6) = true ∧
      turning.sparesOf 0 = [256] ∧ (turning.pickVictim 0).isSome = true ∧ (turning.setSpares 1 []).sparesOf 1 = [] ∧ (turning.quad 1).step = 0) ∧
    (let s := (((turning.setQuad 0 ⟨1, 3, 3, 256, 5⟩).mPwr fun y => { y with spareOn := [256] }).setDom (posDom 256) 0).wr (CORE_SEQ_STATUS_STALL 3) stCounter
     (s.quad 0).step = 1 ∧ s.idlePoint (s.quad 0).core = true ∧ s.pwr.spareOn.contains (s.quad 0).spare = true ∧ s.domState (posDom (s.quad 0).spare) = 0 ∧
       s.passed (s.quad 0).began (s.rd SAF_FT_CFG_HWIN * 10 ^ 6) = true) ∧
    (let s := turning.setQuad 0 ⟨2, 3, 3, 256, 5⟩
     (s.quad 0).step = 2 ∧ s.coreOwner (s.quad 0).core = some 0 ∧ s.classOf 0 = 0) ∧
    turning.passed (mget (fun _ => 0) turning.saf.lastBist (turning.placeOf 9)) (90 * 10 ^ 9) = true ∧
    (turning.blockOff (SAF_FT_REQ_GO.off >>> 20) = false ∧ bit 0x80000003 31 = true ∧ bits 0x80000003 29 28 = 0 ∧ turning.saf.selfTest.isSome = false ∧
      turning.turns 3 = true ∧ State.reset.turns 3 = false ∧ State.reset.testFree 0 3 = true ∧
      (safety.wr (PART_STATUS_STATE 0) stRunning).testFree 0 3 = false ∧ (State.reset.wr SAF_FT_RES_STATUS 1).rd SAF_FT_RES_STATUS = 1) ∧
    (let s := State.reset.mSaf fun x => { x with selfTest := some (0, 3, true) }
     s.saf.selfTest = some (0, 3, true) ∧ s.turns 3 = false ∧ s.testFree 0 3 = true) := by
  decide +kernel

theorem wit_SafeStateAndFailover :
    (let s := (withMsg State.reset (safMsg (.frame 2 1 false))).wr SAF_FRZ_MASK_MASK 4
     s.crosses (safMsg (.frame 2 1 false)) = false ∧ bit (s.rd SAF_FRZ_MASK_MASK) 2 = true ∧ s.rd SAF_FRZ_CFG_LIMIT = s.rd SAF_FRZ_CFG_LIMIT ∧
       (s.wr SAF_FRZ_CFG_LIMIT 1).rd SAF_FRZ_CFG_LIMIT = 1 ∧ (s.wr SAF_FRZ_CFG_LIMIT 0).rd SAF_FRZ_CFG_LIMIT = 0) ∧
    (State.reset.mSaf fun x => { x with sweeping := true }).saf.sweeping = true ∧
    (let s := State.reset.wr SAF_CAUSE_CAUSE 0
     s.blockOff (SAF_CTL_ARM.off >>> 20) = false ∧ bit 0x5AF30001 0 = true ∧ bit 0x5AF30001 1 = false ∧ bits 0x5AF30001 31 16 = 0x5AF3 ∧
       s.rd SAF_CAUSE_CAUSE = 0 ∧ s.tripPins = 0 ∧ s.slotsOk = true ∧ (s.wr SAF_CAUSE_CAUSE 2).rd SAF_CAUSE_CAUSE ≠ 0 ∧ bit 0x5AF30002 1 = true ∧
       bit 0x5AF30002 0 = false) ∧
    (let s := ((safety.wr SAF_FO_CFG_EN 1).wr SAF_FO_CFG_PARTNER 1).wr SAF_FO_CFG_DEPUTY 2
     s.on SAF_FO_CFG_EN = true ∧ s.passed s.saf.hbSent (10 ^ 6) = true ∧ 1 ≠ s.ownChip ∧ s.on LNK_STATE_RETRAIN = false ∧
       mget (fun _ => 0) s.saf.hbMissed 1 + 1 < 5 ∧ s.managerChip = s.ownChip ∧ s.rd SAF_FO_CFG_PARTNER = 1 ∧
       (let u := s.mSaf fun x => { x with hbMissed := [(1, 4)], hbActive := [(1, true)] }
        4 ≤ mget (fun _ => 0) u.saf.hbMissed 1 ∧ mget (fun _ => false) u.saf.hbActive 1 = true) ∧
       (let u := ((s.wr LNK_STATE_MANAGER 3).wr SAF_STATE_ACTIVE 1).mSaf fun x => { x with hbMissed := [(2, 3), (3, 3)] }
        u.on SAF_STATE_ACTIVE = true ∧ u.managerChip ≠ u.ownChip ∧ u.rd SAF_FO_CFG_DEPUTY ≠ u.ownChip ∧ 3 ≤ mget (fun _ => 0) u.saf.hbMissed u.managerChip ∧
          3 ≤ mget (fun _ => 0) u.saf.hbMissed (u.rd SAF_FO_CFG_DEPUTY))) := by
  decide +kernel

/-! ### The host -/

/-- Port 0 is up; slice 5, with PASID 9, reaches partition 1, which owns slice group 0. -/
def hosted : State :=
  (((((((State.reset.wr (VMS_PORT_STAT_UP 0) 1).wr (VMS_SL_CFG_EN 5) 1).wr (VMS_SL_CFG_PEN 5) 1).wr (VMS_SL_CFG_PART 5) 1).wr (VMS_SL_CFG_PASID 5) 9).wr
    PART_TUN_EN_EN 1).wr (PART_TUN_OWN_OWN 0) 1).mMem fun y => { y with filling := false }

/-- A request of PASID 9. -/
def ask (bar : Fin 3) (off : Nat) (read : Option Nat) (data : List (BitVec 8)) : Inbound := ⟨false, some 9, bar, off, read, data, false⟩

theorem wit_HostRequests_inbound :
    hosted.on (VMS_PORT_STAT_UP 0) = true ∧ mget (fun _ => false) hosted.vms.d3 0 = false ∧
    hosted.sliceFor { ask 0 0 (some 4) [] with pasid := some 8 } = .unmatched ∧ hosted.sliceFor (ask 0 0 (some 4) []) = .slice 5 ∧
    hosted.reach (.host 5) 0 4 false = .ok ∧ hosted.reach (.host 5) 0x701000 4 false = .isolation ∧
    (∀ r ∈ [ask 1 64 (some 4) [], ask 1 64 none [1, 2, 3, 4]], hosted.sliceFor r = .slice 5 ∧ r.bar.val ≠ 0 ∧ hosted.memory.filling = false ∧
      hosted.lpReady r.addr = true ∧ hosted.lpReady (r.addr + (r.len - 1)) = true ∧
      hosted.checkRun ((hosted.slicePart 5).getD 16) r.read.isNone r.addr (max r.len 1) = .ok ∧ (hosted.runKeys r.addr r.len).Nodup ∧
      anyPois ((hosted.runKeys r.addr r.len).map hosted.byteAt) = false ∧ hosted.on MEM_INJ_CTL_ARM = false) := by
  decide +kernel

theorem wit_HostRequests :
    (let v := 2 ^ 31 + 2 ^ 28 + 1 * 2 ^ 24 + 3
     let s := hosted.wr (PART_CFG_CLASS 1) 3
     s.blockOff ((VMS_SL_CFG_EN 6).off >>> 20) = false ∧ s.locked (VMS_SL_CFG_EN 6).off = false ∧ bit v 31 = true ∧ s.sliceOk 6 v = true ∧
       hosted.sliceOk 6 v = false) ∧
    (let v := 2 ^ 31 + 5 * 2 ^ 16
     let s := hosted.wr (qOwner (vecQueue 17)) 1
     s.blockOff ((VMS_QVEC_EN 17).off >>> 20) = false ∧ bit v 31 = true ∧ bits v 21 16 = 5 ∧ s.slicePart 5 = some 1 ∧ s.qPart (vecQueue 17) = 1 ∧
       hosted.qPart (vecQueue 17) ≠ 1) ∧
    (let s := ((((hosted.wr (EVT_SRC_CFG_PART (208 + 5)) 1).wr (EVT_SRC_CFG_EN (208 + 5)) 1).wr (EVT_RING_CFG_EN 1) 1).wr (EVT_RING_CFG_LOG2SIZE 1) 4).wr
       (EVT_RING_BASE_ADDR 1) 0x100000000
     s.blockOff ((VMS_DB_DB 5).off >>> 20) = false ∧ s.slicePart 5 = some (s.rd (EVT_SRC_CFG_PART (208 + 5))) ∧
       hosted.slicePart 5 ≠ some (hosted.rd (EVT_SRC_CFG_PART (208 + 5))) ∧ s.on (EVT_SRC_CFG_EN (208 + 5)) = true ∧ s.on (EVT_RING_CFG_EN 1) = true ∧
       s.evt.inTick < 512 ∧ (s.rd (EVT_RING_WIDX_COUNT 1) + 2 ^ 32 - mget (fun _ => 0) s.evt.read 1) % 2 ^ 32 < 2 ^ s.rd (EVT_RING_CFG_LOG2SIZE 1)) ∧
    hosted.blockOff ((VMS_APIDX_INDEX 5).off >>> 20) = false ∧
    (let m : Msg := ⟨.req, 3, epHost, 0, 5, false, 0, .memRead 0x8000000000 4 []⟩
     (withMsg hosted m).crosses m = false) := by
  decide +kernel

/-- Slice 5 has an admin command. -/
def admin5 (s : State) : State := (s.wr (VMS_SL_ACFG_EN 5) 1).wr (VMS_APIDX_INDEX 5) 1

/-- Partition 1 owns core 0 too, in class H and EMPTY. -/
def hostedH : State :=
  (((((admin5 hosted).wr (PART_CORE_EN_EN 0) 1).wr (PART_CORE_OWN_OWN 0) 1).wr (PART_CFG_EN 1) 1).wr (PART_CFG_CLASS 1) 3).wr (PART_STATUS_STATE 1) stEmpty

theorem wit_HostAdmin :
    (let s := admin5 (hosted.wr (VMS_SL_CFG_PEN 5) 0)
     s.nextSlice = some 5 ∧ s.slicePart 5 = none) ∧
    (hostedH.nextSlice = some 5 ∧ hostedH.slicePart 5 = some 1 ∧ hostedH.rd (PART_STATUS_STATE 1) = stEmpty ∧ hostedH.frz 1 = 0 ∧
      hostedH.loadCheck 1 plan1 = none ∧ hostedH.loadCheck 1 { plan1 with magic := 0 } = some refDigest) ∧
    (∀ x ∈ [stRunning, stComplete, stUnused, stResetting], (hostedH.wr (PART_STATUS_STATE 1) x).rd (PART_STATUS_STATE 1) = x) ∧
    (hostedH.setFrz 1 2).frz 1 = 2 ∧ recordSize ((hostedH.setFrz 1 2).coresOf 1).length ((hostedH.setFrz 1 2).groupsOf 1).length ≤ 2 ^ 40 ∧
    (let s := (hostedH.wr (PART_STATUS_STATE 1) stRunning).mVms fun y => { y with busy := some ⟨5, 7, 1, true, 0⟩ }
     s.vms.busy = some ⟨5, 7, 1, true, 0⟩ ∧ s.quiet 1 = true ∧ (withMsg s ⟨.req, 3, 15, 1, 5, false, 0, .signal 0 1⟩).quiet 1 = false ∧
       0 + s.rd VMS_FRZ_TMO_TMO * 10 ^ 6 ≤ (s.wr TIM_COUNT_VALUE (10 ^ 15)).now) := by
  decide +kernel

theorem wit_HostAdmin_freeze : (hostedH.wr (PART_STATUS_STATE 1) stRunning).noFreeze 1 = false := by
  decide +kernel

theorem wit_HostAdmin_noFreeze : ((hostedH.wr CKP_CFG_EN 1).wr CKP_CFG_OWNER 1).noFreeze 1 = true := by
  have h : (((hostedH.wr CKP_CFG_EN 1).wr CKP_CFG_OWNER 1).on CKP_CFG_EN && ((hostedH.wr CKP_CFG_EN 1).wr CKP_CFG_OWNER 1).rd CKP_CFG_OWNER == 1) = true := by
    decide +kernel
  unfold State.noFreeze
  rw [h]
  simp

/-- A save record of one byte of core 0. -/
def saved1 : SaveRec :=
  ⟨true, true, 0, some plan1, [0], [0], [], [], [(coreKey 0 0, 7)], [], [], [], [], [], [], [], [], [], [],
    [], [], [], [], [], [], [], [], []⟩

theorem wit_HostAdmin_restore : saved1.whole = true ∧ saved1.shaOk = true ∧ saved1.mcif.toNat / 256 = hostedH.sys.mcif / 256 ∧
    saved1.mcif.toNat % 256 ≤ hostedH.sys.mcif % 256 ∧ saved1.cores = hostedH.coresOf 1 ∧ saved1.groups = hostedH.groupsOf 1 ∧
    saved1.windows = hostedH.windowsOf 1 ∧ (saved1.mem.map (·.1)).Nodup ∧
    (∀ x ∈ saved1.mem, inRanges (savedRanges saved1.cores saved1.groups) x.1 = true) := by
  decide +kernel

theorem wit_HostPorts :
    (let s := ((hostedH.wr (VMS_SL_CFG_PORT 5) 0).wr (PART_STATUS_STATE 1) stRunning)
     s.rd (VMS_SL_CFG_PORT 5) = 0 ∧ s.on (VMS_SL_CFG_ADMIN 5) = false ∧ s.classOf 1 = 3 ∧ s.on (PART_CFG_EN 1) = true ∧
       s.rd (PART_STATUS_STATE 1) ≠ stUnused ∧ s.sliceOf 5 1 = true ∧ s.on (VMS_SL_CFG_EN 5) = true ∧
       ∀ c, c < 64 → s.on (VMS_SL_CFG_EN c) = true → s.sliceOf c 1 = true → s.rd (VMS_SL_CFG_PORT c) = 0) ∧
    (let s := (hosted.wr VMS_PORT_CFG_MAXSPD 5).wr VMS_PORT_CFG_EN0 1
     4 ≤ s.rd VMS_PORT_CFG_MAXSPD ∧ s.on VMS_PORT_CFG_EN0 = true) ∧
    hosted.rd (SER_GPIO_CFG_MODE 31) ≠ 1 ∧ hosted.rd (SER_GPIO_CFG_MODE 31) ≠ 2 := by
  decide +kernel

/-! ### The ring and RoCE -/

/-- The device is chip 0, on the ring, in state v. -/
def ring (v : Nat) : State := ((State.reset.wr LNK_CFG_EN 1).wr LNK_CFG_CHIP 0).wr LNK_STATE_STATE v |>.wr TIM_COUNT_VALUE (10 ^ 12)

/-- Domains 98 and 99 are awake and start-up has launched. -/
def woken (s : State) : State := ((s.setDom 98 0).setDom 99 0).mSys fun y => { y with launched := true }

theorem wit_RingMembership :
    (let s := (ring 3).wr LNK_CFG_EN 0
     s.rd LNK_STATE_STATE ≠ 0 ∧ s.on LNK_CFG_EN = false) ∧
    (let s := woken (ring 0)
     s.mayTrain = true ∧ s.lnk.fails = 0 ∧ (s.mLnk fun y => { y with fails := 2 }).mayTrain = true ∧ s.lnk.trainAt + 10 ^ 9 ≤ s.now) ∧
    ((ring 1).rd LNK_STATE_STATE = 1 ∧ (ring 1).lnk.trainAt + 12 * 10 ^ 6 ≤ (ring 1).now) ∧
    2 ≤ (ring 2).rd LNK_STATE_STATE ∧
    (let s := ((ring 2).wr LNK_CFG_ROLE 1).wr LNK_CFG_EXPECT 3
     s.ringManager = true ∧ s.lnk.order = false ∧ bit (s.rd LNK_CFG_EXPECT) 0 = true ∧ bit (s.rd LNK_CFG_EXPECT) 1 = true ∧ 0 = s.ownChip ∧
       s.rd LNK_STATE_STATE = 2 ∧ bit (((s.wr LNK_STATE_STATE 3).wr LNK_MAP_FWD 2).rd LNK_MAP_FWD) 1 = true) ∧
    ((ring 2).wr LNK_CFG_ROLE 0).ringManager = false ∧
    (let s := ((ring 3).wr LNK_CFG_ROLE 1).wr LNK_MAP_MEMBERS 3
     bit (s.rd LNK_MAP_MEMBERS) 1 = true ∧ 1 ≠ s.ownChip ∧ s.ringManager = true ∧ (s.wr LNK_CFG_ROLE 0).ringManager = false ∧
       1 ≠ s.rd LNK_STATE_MANAGER ∧ s.on LNK_STATE_RETRAIN = false ∧ (s.wr LNK_STATE_RATE 1).on LNK_STATE_RATE = true ∧
       (let u := (s.wr LNK_CFG_AUTORATE 1).wr LNK_CFG_EXPECT 3
        u.on LNK_CFG_AUTORATE = true ∧ u.rd LNK_MAP_MEMBERS = u.rd LNK_CFG_EXPECT ∧ u.lnk.noPam = false ∧ u.on LNK_STATE_RATE = false)) ∧
    (let s := ((ring 3).wr LNK_STATE_RETRAIN 1).mLnk fun y => { y with pam := true }
     s.on LNK_STATE_RETRAIN = true ∧ s.on PWR_SAG_HOLD = false ∧ s.lnk.pam = true) := by
  decide +kernel

/-- Which partitions span chips is Config's (R456 names no register): a partition that spans chip 1 and runs faults when the map loses it. -/
theorem wit_RingMembership_spans (h : Config.spans 0 1 = true) :
    let s := ((((ring 3).wr LNK_CFG_ROLE 0).wr LNK_MAP_MEMBERS 3).wr (PART_CFG_EN 0) 1).wr (PART_STATUS_STATE 0) stRunning
    2 ≤ s.rd LNK_STATE_STATE ∧ s.ringManager = false ∧ bit (s.rd LNK_MAP_MEMBERS) 1 = true ∧ bit 1 1 = false ∧ Config.spans 0 1 = true ∧
      s.on (PART_CFG_EN 0) = true ∧ s.rd (PART_STATUS_STATE 0) = stRunning := by
  refine ⟨?_, ?_, ?_, ?_, h, ?_, ?_⟩ <;> decide +kernel

/-- A frame on REQ to chip d: a write of 2 bytes to Tun. -/
def frameTo (d : Nat) : RingFrame := ⟨0, d, 1, false, 0, 5, 3, 1, 0x100000000, 2, [(7, false), (8, false)], none, 0⟩

theorem wit_RingTraffic :
    (let s := ((ring 3).wr (LNK_PORT_STAT_UP 0) 1)
     2 ≤ s.rd LNK_STATE_STATE ∧ s.on (LNK_PORT_STAT_UP 0) = true ∧ mget (fun _ => 0) s.lnk.rxSeq 0 = (frameTo 0).seq ∧ (frameTo 0).dst = s.ownChip ∧
       s.rd LNK_STATE_STATE = 3 ∧ s.decode (frameTo 0).addr = .tun 0 ∧ (frameTo 2).dst ≠ s.ownChip ∧ s.on LNK_STATE_RETRAIN = false ∧
       s.pendOf? 5 3 1 = none ∧ s.lnk.wait = [] ∧
       (let m : Msg := ⟨.req, 5, 15, 0, 3, false, 1, .memRead 0x100000000 2 [none, none]⟩
        let u := s.mLnk fun y => { y with pend := [⟨m, 0, 0⟩] }
        u.pendOf? 5 3 1 = some ⟨m, 0, 0⟩ ∧ m.src < 840 ∧ u.lnk.wait = [] ∧
          (u.lnk.pend.find? fun x => x.msg.src == 5 && x.msg.tag == 3 && decide (x.sent + u.rd LNK_CFG_TMO * 10 ^ 6 ≤ u.now)) = some ⟨m, 0, 0⟩)) ∧
    (∀ k ∈ [15, 16], let s := (ring 3).mLnk fun y => { y with retry := [(0, [(frameTo 2, k)])] }
     (mget (fun _ => []) s.lnk.retry 0).dropWhile (fun e => e.1.seq != 0) = [(frameTo 2, k)] ∧ s.on LNK_STATE_RETRAIN = false) ∧
    (let s := ((ring 3).wr LNK_CFG_ROLE 1).wr LNK_TIME_CFG_EN 1
     s.ringManager = true ∧ s.on LNK_TIME_CFG_EN = true ∧ s.on LNK_STATE_RETRAIN = false ∧
       s.lnk.timeAt + s.rd LNK_TIME_CFG_INTERVAL * 10 ^ 6 ≤ s.now) ∧
    (let s := ((ring 3).wr LNK_CFG_ROLE 0).wr LNK_TIME_CFG_EN 1
     s.ringManager = false ∧ s.rd LNK_TIME_CFG_PORT = 0) := by
  decide +kernel

/-- A READ of 4 bytes into Tun. -/
def wrD : Nat := 3 + 0x100002000 * 2 ^ 64 + 4 * 2 ^ 128 + 0x1000 * 2 ^ 192

/-- QP 9 of partition 0 is ready, with a posted request. -/
def qp9 : State :=
  ((((State.reset.wr (NET_QP_CFG_EN 9) 1).wr (NET_QP_STAT_STATE 9) qpReady).wr (NET_QP_SQ_ADDR 9) 0x100000000).wr PART_TUN_EN_EN 1 |>.setQueue
    (qpBase 9) ⟨1, 0⟩).writeRun 0x100000000 (leBytes 64 wrD)

theorem wit_RoceQueuePairs_request :
    let s := qp9
    let u := s.queue (qpBase 9)
    let a := s.rd (NET_QP_SQ_ADDR 9) + u.next % s.qpSize 9 * 64
    let d := s.blkRead a 64
    let s1 := d.2.setQueue (qpBase 9) ⟨u.prod, (u.next + 1) % 2 ^ 32⟩
    s.qpLive 9 = true ∧ u.prod ≠ u.next ∧ s.checkRun (s.qpPart 9) false a 64 = .ok ∧ anyPois d.1 = false ∧
      roceWr? (leNum d.1) = some ⟨.read, false, 0x100002000, 4, 0, 0x1000, 0⟩ ∧ s1.roceRange (s.qpPart 9) true 0x100002000 4 = true := by
  decide +kernel

theorem wit_RoceQueuePairs :
    (∀ k ∈ [6, 7], let s := qp9.setQp 9 { qp9.qpOf 9 with sent := [(⟨.read, false, 0x100002000, 4, 0, 0x1000, 0⟩, 0, [])], tries := k }
     s.qpLive 9 = true ∧ (s.qpOf 9).sent ≠ [] ∧ (s.qpOf 9).tries = k) ∧
    (let s := (((qp9.wr (NET_MKEY_CFG_EN 2) 1).wr (NET_MKEY_CFG_WR 2) 1).wr (NET_MKEY_BASE_ADDR 2) 0x100001000).wr (NET_MKEY_LEN_LEN 2) 1
     ∀ op ∈ [RoceOp.read, .write, .writeImm], let r : RoceIn := ⟨op, 2, 0x100001000, 4, 0, [1, 2, 3, 4]⟩
      s.qpLive 9 = true ∧ s.keyOk 9 r = true ∧ qp9.keyOk 9 r = false ∧ anyPois ((s.runKeys r.raddr r.len).map s.byteAt) = false ∧ r.raddr < 0x8000000000 ∧
        (s.runKeys r.raddr r.len).Nodup ∧ s.on MEM_INJ_CTL_ARM = false) ∧
    ((qp9.setQp 9 { qp9.qpOf 9 with imms := [(64, 3)] }).qpOf 9).imms = [(64, 3)] ∧ qp9.on (NET_QP_CFG_EN 9) = true := by
  decide +kernel

/-! ### Vehicle networks and the cockpit -/

/-- A classical CAN frame of no data. -/
def canF (id : BitVec 29) : CanFrame := ⟨id, false, false, false, false, false, 0, []⟩

/-- CAN controller 15 is enabled, with a frame of ring 1 and a gateway frame on offer. -/
def can15 : State :=
  (((State.reset.wr (CAN_CFG_EN 15) 1).wr (qEn (canQ 15 1)) 1).wr PART_TUN_EN_EN 1).mCan fun y =>
    { y with heads := [(61, some ⟨canF 0x40000, 0, 5, true, 0, 9⟩)], egress := [(15, [canF 0x80000])] }

/-- The same, with the head frame on the bus. -/
def can15on (q : Nat) : State := can15.mCan fun y => { y with bus := [(15, some q)] }

theorem wit_CanControllers :
    (can15.on (CAN_CFG_EN 15) = true ∧ can15.rd (CAN_CFG_MODE 15) ≠ 1 ∧ can15.rd (CAN_CFG_MODE 15) ≠ 2 ∧ can15.rd (CAN_STAT_STATE 15) < 2 ∧
      mget (fun _ => none) can15.can.bus 15 = none ∧
      (let s1 := [0, 1, 2].foldl (fun (a : State) q => a.canFetch 15 q (a.qLeft (canQ 15 q) + 1)) can15
       s1.canOffer 15 0 = none ∧ s1.canOffer 15 1 = some (canF 0x40000) ∧ s1.canOffer 15 2 = none ∧ s1.canOffer 15 3 = some (canF 0x80000) ∧
         arbKey (canF 0x40000) < arbKey (canF 0x80000))) ∧
    (∀ q ∈ [1, 3], mget (fun _ => none) (can15on q).can.bus 15 = some q ∧ ((can15on q).canOffer 15 q).isSome = true) ∧
    ((can15.wr (CAN_ERR_REC 15) 128).rd (CAN_ERR_REC 15) = 128 ∧ can15.rd (CAN_ERR_REC 15) ≤ 127 ∧ can15.on CAN_GW_CFG_EN = false ∧
      can15.on (CAN_CFG_DEFRX 15) = false ∧
      (let s := ((can15.wr (CAN_CFG_DEFRX 15) 1).wr (rEn (canRing 0)) 1).wr (rBase (canRing 0)) 0x100000000
       s.on (CAN_CFG_DEFRX 15) = true ∧ s.rd (CAN_CFG_DEFRING 15) = 0 ∧ s.rd (CAN_ERR_TEC 15) ≤ 255 ∧ s.on (rEn (canRing 0)) = true ∧
         (s.rd (rWidx (canRing 0)) + 2 ^ 32 - (s.ring (canRing 0)).read) % 2 ^ 32 < 2 ^ s.rd (rLog (canRing 0)) ∧
         s.checkRun (s.rPart (canRing 0)) true (s.rd (rBase (canRing 0))) 128 = .ok)) ∧
    (let s := (can15.wr CAN_GW_CFG_EN 1).wr (CAN_RULE_WORD 0 0) (2 ^ 31 + 15 * 2 ^ 22)
     s.on CAN_GW_CFG_EN = true ∧ s.canRule 0 15 0 (canF 0x40000) = some 0) ∧
    (can15.blockOff ((CAN_CMD_RECOVER 15).off >>> 20) = false ∧ (can15.wr (CAN_STAT_STATE 15) 2).rd (CAN_STAT_STATE 15) = 2 ∧
      (can15.wr (CAN_STAT_STATE 15) 3).rd (CAN_STAT_STATE 15) = 3) ∧
    (let s := can15.setQueue (canQ 15 1) ⟨1, 1⟩
     mget (fun _ => none) s.can.bus 15 ≠ some 1 ∧ s.canHead 15 1 = some ⟨canF 0x40000, 0, 5, true, 0, 9⟩ ∧
       (0 + 1) % 2 ^ 32 = (s.queue (canQ 15 1)).prod ∧ (s.queue (canQ 15 1)).next = (s.queue (canQ 15 1)).prod) ∧
    (let s := ((can15.wr (CAN_ENC_CFG_EN 63) 1).wr (CAN_ENC_CFG_BATCH 63) 0).mCan fun y => { y with enc := [(63, [(canF 1, 15, 0)])] }
     s.on (CAN_ENC_CFG_EN 63) = true ∧ mget (fun _ => []) s.can.enc 63 ≠ [] ∧ s.rd (CAN_ENC_CFG_BATCH 63) + 1 ≤ (mget (fun _ => []) s.can.enc 63).length) ∧
    (let s := (((can15.wr (CAN_ENC_CFG_EN 63) 1).wr (CAN_ENC_CFG_DIR 63) 1).wr CAN_GW_CFG_EN 1).wr (CAN_RULE_WORD 0 0) (2 ^ 31 + 2 * 2 ^ 28 + 63 * 2 ^ 22 + 9)
     s.on (CAN_ENC_CFG_EN 63) = true ∧ s.on (CAN_ENC_CFG_DIR 63) = true ∧ s.canRule 2 63 9 (canF 0x40000) = some 0) := by
  decide +kernel

/-- An Ethernet frame of 60 bytes and its check. -/
def ethF : EthFrame := ⟨1, 2, none, [8, 0] ++ List.replicate 46 0⟩

/-- Port 9 is enabled and up. -/
def net9 : State := ((State.reset.wr (NET_P_CFG_EN 9) 1).wr (NET_P_STAT_UP 9) 1).wr PART_TUN_EN_EN 1

theorem wit_EthernetPorts_receive :
    net9.netUp 9 = true ∧ (ethBytes ethF).length + 4 = 64 ∧ ethF.body.take 2 ≠ [0x88, 0xF7] ∧ (net9.wr (NET_P_CFG_MAXLEN 9) 63).rd (NET_P_CFG_MAXLEN 9) < 64 ∧
    (let s := ((net9.wr (NET_P_CFG_MAXLEN 9) 1522).wr (rEn (netRing 9 0)) 1).wr (rBase (netRing 9 0)) 0x100000000
     64 ≤ s.rd (NET_P_CFG_MAXLEN 9) ∧ s.net.filters = [] ∧ s.on (NET_P_CFG_GW 9) = false ∧ s.rxClass 9 ethF = 0 ∧
       2 ^ (s.wr (NET_RX_CFG_SLOT 9 0) 6).rd (NET_RX_CFG_SLOT 9 0) < 60 + 64 ∧ 60 + 64 ≤ 2 ^ s.rd (NET_RX_CFG_SLOT 9 0) ∧ s.on (rEn (netRing 9 0)) = true ∧
       (s.rd (rWidx (netRing 9 0)) + 2 ^ 32 - (s.ring (netRing 9 0)).read) % 2 ^ 32 < 2 ^ s.rd (rLog (netRing 9 0)) ∧
       s.checkRun (s.rPart (netRing 9 0)) true (s.rd (rBase (netRing 9 0))) (2 ^ s.rd (NET_RX_CFG_SLOT 9 0)) = .ok) := by
  decide +kernel

/-- The fields of a filter are Config's, for R485 gives no layout; a filter that has been blocked drops what it hits. -/
theorem wit_EthernetPorts_filter (h : (net9.mNet fun y => { y with filters := [5], blocked := [(0, true)] }).filterHit 9 0 ethF = true) :
    ((net9.mNet fun y => { y with filters := [5], blocked := [(0, true)] }).psfp 9 ethF 0).1 = none := by
  have h2 : (List.range (net9.mNet fun y => { y with filters := [5], blocked := [(0, true)] }).net.filters.length).find?
      (fun i => (net9.mNet fun y => { y with filters := [5], blocked := [(0, true)] }).filterHit 9 i ethF) = some 0 := by
    simp [State.mNet, List.range_succ] at h ⊢
    exact h
  unfold State.psfp
  rw [h2]
  rfl

theorem wit_EthernetPorts_send :
    (let s1 := (List.range 8).foldl (fun (a : State) q => (a.netFetch 9 q (a.qLeft (netQ 9 q) + 1)).gateLong 9 q) net9
     ∀ c, c < 8 → (s1.netOffer 9 c).isNone = true) ∧
    (let s := net9.mNet fun y => { y with egress := [(74, [ethF])] }
     let s1 := (List.range 8).foldl (fun (a : State) q => (a.netFetch 9 q (a.qLeft (netQ 9 q) + 1)).gateLong 9 q) s
     someB (s1.netOffer 9 2) (fun o => match o with | .gateway f => f == ethF | _ => false) = true ∧ (∀ k ∈ [3, 4, 5, 6, 7], (s1.netOffer 9 k).isNone = true) ∧ s1.openFor 9 2 = none) ∧
    (let s := (net9.wr (qEn (netQ 9 2)) 1).mNet fun y => { y with heads := [(74, some ⟨0x100000000, 64, false, 0, 0⟩)] }
     let s1 := (List.range 8).foldl (fun (a : State) q => (a.netFetch 9 q (a.qLeft (netQ 9 q) + 1)).gateLong 9 q) s
     someB (s1.netOffer 9 2) (fun o => match o with | .queue h => h == ⟨0x100000000, 64, false, 0, 0⟩ | _ => false) = true ∧ (∀ k ∈ [3, 4, 5, 6, 7], (s1.netOffer 9 k).isNone = true) ∧ s1.openFor 9 2 = none ∧
       s1.checkRun (s1.qPart (netQ 9 2)) false 0x100000000 64 true = .ok ∧ anyPois ((s1.runKeys 0x100000000 64).map s1.byteAt) = false) := by
  decide +kernel

/-- A gate list of one entry of 64 ns stands at 4 GiB. -/
def gates9 : State := (net9.wr (NET_P_TAS_LIST_ADDR 9) 0x100000000).writeRun 0x100000000 (leBytes 8 (0xFF + 64 * 2 ^ 32))

theorem wit_EthernetPorts_gates :
    (let s := net9.mNet fun y => { y with newGates := [(9, some ([(255, 64)], 0, 0))] }
     mget (fun _ => none) s.net.newGates 9 = some ([(255, 64)], 0, 0) ∧ 0 ≤ s.time (s.rd (NET_P_TAS_CTL_TS 9))) ∧
    (let v := 2 ^ 31 + 1
     let s := gates9
     let bytes := (s.runKeys 0x100000000 8).map s.byteAt
     s.blockOff ((NET_P_TAS_CTL_COMMIT 9).off >>> 20) = false ∧ bit v 31 = true ∧ bits v 29 27 ≤ 4 ∧ bits v 8 0 = 1 ∧
       s.rd (NET_P_TAS_LIST_ADDR 9) = 0x100000000 ∧ s.on (NET_P_TAS_CTL_COMMIT 9) = false ∧
       s.tunOwned (s.rd (NET_P_CFG_OWNER 9)) 0x100000000 8 = true ∧ anyPois bytes = false ∧ (∀ e ∈ gateEntries 1 (leNum bytes), 64 ≤ e.2) ∧
       s.gated 9 = false ∧ (s.wr (NET_P_TAS_CTL_COMMIT 9) 1).on (NET_P_TAS_CTL_COMMIT 9) = true) ∧
    (let s := net9.wr NET_PSFP_TAB_ADDR 0x100000000
     s.blockOff (NET_PSFP_CTL_COMMIT.off >>> 20) = false ∧ bit 0x80000000 31 = true ∧ bits 0x80000000 2 0 ≤ 4 ∧ s.rd NET_PSFP_TAB_ADDR % 64 = 0 ∧
       s.inTun (s.rd NET_PSFP_TAB_ADDR) = true ∧ s.inTun (s.rd NET_PSFP_TAB_ADDR + 46079) = true ∧ net9.inTun (net9.rd NET_PSFP_TAB_ADDR) = false ∧
       s.memory.ecc = []) := by
  decide +kernel

/-- The rest of the filter table's clause: memory without an error bit has no mark. -/
theorem wit_EthernetPorts_table : anyPois (((net9.wr NET_PSFP_TAB_ADDR 0x100000000).runKeys 0x100000000 46080).map
    (net9.wr NET_PSFP_TAB_ADDR 0x100000000).byteAt) = false :=
  anyPois_of_clean _ rfl _

theorem wit_EthernetPorts :
    (let s := net9.wr (NET_P_PTP_ROLE 9) 1
     s.netUp 9 = true ∧ s.rd (NET_P_PTP_ROLE 9) = 1 ∧ s.slavePort = none ∧
       (let u := ((s.wr (NET_P_CFG_EN 3) 1).wr (NET_P_PTP_ROLE 3) 2).mNet fun y => { y with sync := [(3, some (5, 6, 7, 8))] }
        u.slavePort = some 3 ∧ mget (fun _ => none) u.net.sync 3 = some (5, 6, 7, 8))) ∧
    (let s := (net9.wr (NET_P_PTP_ROLE 9) 2).wr TIM_COUNT_VALUE (10 ^ 12)
     s.rd (NET_P_PTP_ROLE 9) = 2 ∧ s.netUp 9 = true ∧ mget (fun _ => none) s.net.pd 9 = none ∧ mget (fun _ => false) s.net.syncLost 9 = false ∧
       mget (fun _ => 0) s.net.syncAt 9 + 3 * s.syncInterval 9 ≤ s.now) ∧
    (net9.blockOff (NET_MDIO_GO.off >>> 20) = false ∧ bit 0x80000000 31 = true ∧ bits 0x80000000 29 28 ≤ 2 ∧ net9.on NET_MDIO_GO = false ∧
      (net9.wr NET_MDIO_GO 1).on NET_MDIO_GO = true ∧ net9.on (NET_P_STAT_UP 9) = true ∧ net9.on (NET_P_CFG_EN 9) = true) := by
  decide +kernel

/-- UART 7 is enabled, with 8 data bits and one stop bit. -/
def uart7 : State :=
  (((State.reset.wr (SER_U_CFG_EN 7) 1).wr (SER_U_CFG_BITS 7) 1).wr PART_TUN_EN_EN 1).wr (rEn (serRing 7)) 1 |>.wr (rBase (serRing 7)) 0x100000000

theorem wit_SerialAndCockpit_serial :
    (let samples : List (BitVec 3) := [0, 7, 0, 7, 0, 7, 0, 7, 0, 7]
     let s := uart7
     s.on (SER_U_CFG_EN 7) = true ∧ samples.length = 1 + s.uartBits 7 + b2n (s.rd (SER_U_CFG_PAR 7) != 0) + (1 + s.rd (SER_U_CFG_STOP2 7)) ∧
       (samples.map maj3).getD 0 true = false ∧ ([7].map maj3).getD 0 true = true ∧ s.on (rEn (serRing 7)) = true ∧
       (s.rd (rWidx (serRing 7)) + 2 ^ 32 - (s.ring (serRing 7)).read) % 2 ^ 32 < 2 ^ s.rd (rLog (serRing 7)) ∧
       s.checkRun (s.rPart (serRing 7)) true (s.rd (rBase (serRing 7))) 4 = .ok ∧ (s.runKeys (s.rd (rBase (serRing 7))) 4).Nodup) ∧
    (let s := { uart7 with ser := { uart7.ser with pend := [(7, 2)], tx := [(7, some (0x100000000, 1, 0, 0))] } }
     mget (fun _ => 0) s.ser.pend 7 ≠ 0 ∧ mget (fun _ => none) s.ser.tx 7 = some (0x100000000, 1, 0, 0) ∧ s.on (SER_U_CFG_CTSEN 7) = false ∧
       s.checkRun (s.qPart (serQ 7)) false 0x100000000 (s.charBytes 7) = .ok ∧ anyPois ((s.runKeys 0x100000000 (s.charBytes 7)).map s.byteAt) = false) ∧
    uart7.blockOff (SER_GPIO_SET_SET.off >>> 20) = false ∧ uart7.blockOff (SER_GPIO_CLR_CLR.off >>> 20) = false := by
  decide +kernel

/-- The cockpit is enabled, with output 3 and its tell-tale check. -/
def cockpit : State := ((((State.reset.wr CKP_CFG_EN 1).wr (CKP_D_CFG_EN 3) 1).wr (CKP_D_TT_EN 3) 1).wr PART_TUN_EN_EN 1).wr CKP_CMD_ADDR 0x100000000

theorem wit_SerialAndCockpit :
    (cockpit.wr (CKP_D_CTL_COMMIT 3) 1).on (CKP_D_CTL_COMMIT 3) = true ∧
    (cockpit.on CKP_CFG_EN = true ∧ cockpit.on (CKP_D_CFG_EN 3) = true ∧ cockpit.on (CKP_D_TT_EN 3) = true ∧
      (List.range 8).filter (fun l => (cockpit.layer 3 l).en) = []) ∧
    (let s := ((cockpit.wr (CKP_CH_EN 31) 1).wr (CKP_CH_AMP 31) 5)
     s.on (CKP_CH_EN 31) = true ∧ s.rd (CKP_CH_AMP 31) = 5) ∧
    (let s := (cockpit.wr (CKP_CH_AMP 31) 9).writeRun 0x100000000 (leBytes 8 (2 ^ 31 + 1 * 2 ^ 32))
     let v := leNum ((s.runKeys (s.rd CKP_CMD_ADDR) 8).map s.byteAt)
     s.fetchOk (s.rd CKP_CFG_OWNER) = true ∧ s.inTun (s.rd CKP_CMD_ADDR) = true ∧ s.checkRun (s.rd CKP_CFG_OWNER) false (s.rd CKP_CMD_ADDR) 8 = .ok ∧
       anyPois ((s.runKeys (s.rd CKP_CMD_ADDR) 8).map s.byteAt) = false ∧ v / 2 ^ 32 ≠ s.ckp.cmdSeq ∧ bit v 31 = true ∧ 8 ≤ s.rd (CKP_CH_AMP 31) ∧
       cockpit.ckp.cmdSeq = 0) ∧
    (let s := ((cockpit.wr (CKP_T_CFG_EN 3) 1).wr (CKP_CH_EN 17) 1).wr (CKP_CH_PORT 17) 3 |>.mCkp fun y => { y with play := [(3, some (0x100000000, 2, 0))] }
     s.on (CKP_T_CFG_EN 3) = true ∧ s.bound 3 0 32 = [17] ∧ mget (fun _ => none) s.ckp.play 3 = some (0x100000000, 2, 0) ∧
       s.checkRun (s.rd CKP_CFG_OWNER) false 0x100000000 4 = .ok ∧ anyPois ((s.runKeys 0x100000000 4).map s.byteAt) = false ∧
       s.on (CKP_CH_MUTE 17) = false ∧ s.gainOf 17 = 48 ∧ (cockpit.wr (CKP_T_CFG_EN 3) 1).bound 3 0 32 = []) := by
  decide +kernel

/-! ### Power -/

theorem wit_PowerCommands_regions :
    (State.reset.blockOff ((PWR_REG_CFG_TARGET 7).off >>> 20) = false ∧ (600 % 25 = 0 ∧ 1500 % 25 = 0 ∧ 601 % 25 ≠ 0) ∧ bits 1500 10 0 = 1500 ∧
      bits 575 10 0 < 600 ∧ 1500 < bits 1525 10 0) ∧
    (let s := State.reset.wr (PWR_REG_STAT_BUSY 7) 1
     s.on (PWR_REG_STAT_BUSY 7) = true ∧ s.rd (PWR_REG_STAT_FREQ 7) = s.rd (PWR_REG_CFG_TARGET 7) ∧ s.rd (PWR_REG_CFG_TARGET 7) ≤ 1500) ∧
    (let x : RampStep := ⟨true, false, 9, 0⟩
     let s := State.reset.mPwr fun y => { y with steps := [x] }
     s.firstStep (s.pwr.steps.filter (·.rise)) = some x) ∧
    (let s := (State.reset.wr (PWR_REG_STAT_BUSY 7) 1).wr (PWR_REG_CFG_TARGET 7) 1500
     s.firstStep (s.pwr.steps.filter (·.rise)) = none ∧ s.glide true = some 7 ∧ s.rd (PWR_REG_CFG_TARGET 7) ≤ 1500) ∧
    (let x : RampStep := ⟨false, false, 68, 3⟩
     let s := State.reset.mPwr fun y => { y with steps := [x] }
     s.firstStep (s.pwr.steps.filter (·.rise)) = none ∧ s.glide true = none ∧ s.firstStep (s.pwr.steps.filter fun x => !x.rise) = some x) ∧
    (let s := (State.reset.wr (PWR_REG_STAT_BUSY 7) 1).wr (PWR_REG_STAT_FREQ 7) 700
     s.firstStep (s.pwr.steps.filter fun x => !x.rise) = none ∧ s.glide true = none ∧ s.glide false = some 7) := by
  decide +kernel

/-- Groups rest and sleep by themselves. -/
def auto : State := (State.reset.wr PWR_CFG_AUTO 1).wr TIM_COUNT_VALUE (10 ^ 12)

theorem wit_PowerCommands_groups :
    (∀ d ∈ [40, 84], let s := auto.setDom d 0
     s.autoDom d = true ∧ s.domIdle d = true ∧ s.domState d = 0 ∧ 1 ≤ s.choice d) ∧
    (∀ d ∈ [40, 84], let s := auto.setDom d 1
     s.autoDom d = true ∧ s.domIdle d = true ∧ s.domState d = 1 ∧ 2 ≤ s.choice d ∧ mget (fun _ => 0) s.pwr.restAt d + s.rd PWR_CFG_STEEP_HOLD * 1000 ≤ s.now ∧
       mget (fun _ => 0) s.pwr.waking d = 0 ∧ (s.pwr.steps.any fun x => !x.spare && x.idx == d) = false) ∧
    (let s := (auto.setDom 84 3).mPwr fun y => { y with waking := [(84, 1)] }
     mget (fun _ => 0) s.pwr.waking 84 = 0 + 1 ∧ s.domState 84 = 3) ∧
    (let s := (auto.setDom 40 1).mPwr fun y => { y with waking := [(40, 1)] }
     mget (fun _ => 0) s.pwr.waking 40 = 0 + 1 ∧ s.domState 40 ≠ 3) := by
  decide +kernel

theorem wit_PowerCommands_monitors :
    State.reset.monOn 3 = true ∧ (State.reset.wr (PWR_MON_CFG_EN 7) 1).monOn 7 = true ∧ State.reset.on PWR_SAG_AO = false ∧
    (State.reset.wr PWR_SAG_NVM 1).on PWR_SAG_NVM = true ∧ (State.reset.wr PWR_SAG_AO 1).on PWR_SAG_AO = true ∧ State.reset.on PWR_SAG_NVM = false := by
  decide +kernel

/-- In Cellar, in state v. -/
def cellar (v : Nat) : State := State.reset.mPwr fun y => { y with cellar := v, en := 1 }

theorem wit_PowerCommands_cellar :
    (let s := State.reset.wr SAF_STATE_SAFE 1
     s.blockOff (PWR_CELLAR_CTL_KEY.off >>> 20) = false ∧ s.pwr.cellar = 0 ∧ bits 0xCE110001 31 16 = 0xCE11 ∧ bit 0xCE110001 0 = true ∧
       s.on SAF_STATE_SAFE = true ∧ (∀ p, p < 16 → s.rd (PART_STATUS_STATE p) ≠ stLoading ∧ s.rd (PART_STATUS_STATE p) ≠ stResetting) ∧
       (s.wr SAF_STATE_SAFE 0).on SAF_STATE_SAFE = false) ∧
    ((cellar 1).pwr.cellar = 1 ∧ (cellar 1).pwr.early = 0 ∧ (cellar 2).pwr.cellar = 2 ∧ b2n true + 2 * b2n false ≠ 0) ∧
    (let s := (cellar 2).wr (PWR_CANWAKE_CFG_EN 3) 1
     s.on (PWR_CANWAKE_CFG_EN 3) = true ∧ s.on (PWR_CANWAKE_CFG_MODE 3) = false ∧ 3 ≤ 16000 ∧ s.rd (PWR_CANWAKE_CFG_WFILT 3) ≤ 2000 ∧
       (s.wr (PWR_CANWAKE_CFG_MODE 3) 1).on (PWR_CANWAKE_CFG_MODE 3) = true ∧
       (canF 5).id.toNat &&& s.rd (PWR_CANWAKE_MASK_ID 3) = s.rd (PWR_CANWAKE_ID_ID 3) &&& s.rd (PWR_CANWAKE_MASK_ID 3) ∧
       s.on (PWR_CANWAKE_MASK_IDE 3) = false) ∧
    (let s := (cellar 2).wr PWR_ETHWAKE_CFG_EN1 1
     s.on PWR_ETHWAKE_CFG_EN1 = true ∧
       magicIn ((List.range 6).map fun i => BitVec.ofNat 8 (s.pwr.macs.getD 1 0 / 2 ^ (8 * (5 - i))))
         ((List.replicate 6 0xFF) ++ (List.replicate 96 0)) = true) := by
  decide +kernel

theorem wit_PowerCommands_supplies :
    bit State.reset.pwr.en 3 = false ∧
    (let s := State.reset.mPwr fun y => { y with cellar := 3, en := 0xF }
     bit s.pwr.en 1 = true ∧ bit s.pwr.en 2 = true ∧ bit s.pwr.en 3 = true ∧ s.pwr.cellar = 3 ∧ bit s.pwr.pg 2 = false) ∧
    (let s := (State.reset.mPwr fun y => { y with en := 3 }).mSys fun y => { y with stage := 2 }
     bit s.pwr.en 1 = true ∧ s.pwr.cellar ≠ 3 ∧ s.sys.stage = 2 ∧ bit s.pwr.pg 1 = false) ∧
    (let s := (State.reset.mPwr fun y => { y with failAt := some 0, tries := 3 }).wr TIM_COUNT_VALUE (10 ^ 10)
     s.pwr.failAt = some 0 ∧ 0 + 10 ^ 9 ≤ s.now ∧ s.pwr.tries ≤ 3) ∧
    (let s := (State.reset.mPwr fun y => { y with en := 0xF }).mSys fun y => { y with stage := 13 }
     bit s.pwr.en 0 = true ∧ 6 ≤ s.sys.stage) := by
  decide +kernel

/-! ### Start-up, image and log -/

def comp (id kind part cfl : Nat) : ImgComp :=
  ⟨BitVec.ofNat 16 id, BitVec.ofNat 8 kind, BitVec.ofNat 8 cfl, BitVec.ofNat 8 part, 0xFF, 4096, 16, 8, 3, 0, 1, 9, if kind = 3 then 0x100000000 else 0, true⟩

/-- A header of microcode, DEVCFG, data for partition 1 and a plan for partition 1. -/
def head : ImgHeader := ⟨0x4947434F, 0x0300, 4, 77, 4096, 5, 0, 0, true, 1, true, [], [comp 1 0 0 1, comp 2 1 0 1, comp 3 3 1 0, comp 4 2 1 0]⟩

/-- Start-up stands at stage v, as the manager with the flash up. -/
def boot (v : Nat) : State := (State.reset.wr LNK_CFG_ROLE 1).mSys fun y => { y with stage := v, flash := true, copyLen := 8192 }

theorem wit_StartUp :
    (State.reset.sys.stage = 1 ∧ State.reset.pwr.failAt = none ∧ State.reset.pwr.tries ≤ 3) ∧
    ((boot 3).sys.stage = 3 ∧ (boot 3).on LNK_CFG_ROLE = true ∧ (boot 6).sys.header = none ∧ (boot 6).sys.minimal = false ∧ (boot 7).sys.tested = false ∧
      (boot 12).toCome = []) ∧
    ((boot 4).sys.stage = 4 ∧ (boot 4).sys.flash = true ∧ (boot 4).headerBad head = none ∧ (boot 4).headerBad { head with sigOk := false } = some (0xFFFF, 2) ∧
      (boot 4).sys.copy = 0 ∧ ((boot 4).mSys fun y => { y with copy := 1 }).sys.copy ≠ 0) ∧
    (let s := (boot 9).mSys fun y => { y with mcif := 0x300, mcodeBad := [(255, true)] }
     s.sys.mcif ≠ 0 ∧ s.sys.stage ≤ 11 ∧ 255 < s.nCores ∧ mget (fun _ => false) s.sys.mcodeBad 255 = true ∧ s.coreAt (s.placeOf 255) = some 255 ∧
       (∃ x l, s.sparesOf (quadOf (s.placeOf 255)) = x :: l ∧ (x :: l).contains (s.placeOf 255) = false)) := by
  refine ⟨?_, ?_, ?_, ?_, ?_, ?_, ?_, ?_, 268, [269, 270, 271], ?_⟩ <;> decide +kernel

theorem wit_StartUp_release :
    (let s := empty1.mSys fun y => { y with stage := 11, hold := [(1, plan1)] }
     s.sys.stage = 11 ∧ s.sys.hold = [(1, plan1)] ∧ s.loadCheck 1 plan1 = none) ∧
    (let s := ((boot 4).wr LNK_CFG_ROLE 0).wr LNK_STATE_STATE 2
     s.on LNK_CFG_ROLE = false ∧ s.sys.stage = 4 ∧ 2 ≤ s.rd LNK_STATE_STATE ∧ s.sys.header = none) ∧
    (State.reset.pwr.cellar < 2 ∧ State.reset.pinsSound = true ∧ bits 0x5E5E0001 31 16 = 0x5E5E ∧ bit 0x5E5E0001 0 = true) ∧
    (let s := (boot 7).mSys fun y => { y with launched := true }
     s.sys.launched = true ∧ bit s.memory.lpTrained 15 = false ∧ 512 + 15 ∉ s.memory.excluded ∧ (s.wr (ING_PORT_CFG_EN 15) 1).on (ING_PORT_CFG_EN 15) = true) := by
  decide +kernel

/-- Stage v, at component i of the header. -/
def imaging (v i : Nat) : State := ((boot v).mSys fun y => { y with header := some head, comp := i }).mMem fun y => { y with filling := false }

theorem wit_ImageAndLog :
    (∀ x ∈ [(8, 0), (9, 1), (10, 2), (12, 3)], let s := imaging x.1 x.2
     s.sys.header = some head ∧ s.sys.comp = x.2 ∧ s.on LNK_CFG_ROLE = true ∧ s.takesComp x.2 = true ∧ s.sys.hwBist = false ∧
       someB (head.comps[x.2]?) (fun c => c.forChip s.ownChip && (s.compBad head x.2 c).isNone && !(c.forChip 9)) = true) ∧
    ((imaging 8 0).compReady (comp 1 0 0 1) .mcode = true ∧ (imaging 9 1).compReady (comp 2 1 0 1) (.devcfg []) = true ∧
      (imaging 10 2).compReady (comp 3 3 1 0) (.data [1, 2]) = true ∧ (imaging 12 3).compReady (comp 4 2 1 0) (.plan plan1) = true) ∧
    (let u := (imaging 9 1).emit (Ext.image none (some 1) 0)
     (u.applyAll []).1 = true ∧ (u.applyAll []).2.misplaced (head.comps.drop 2) = none ∧ (u.applyAll []).2.sys.hwBist = false ∧
       (u.applyAll []).2.sys.stage = 9) := by
  decide +kernel

theorem wit_ImageAndLog_contents :
    (let s := (((((imaging 12 3).wr (PART_CORE_EN_EN 0) 1).wr (PART_CORE_OWN_OWN 0) 1).wr PART_TUN_EN_EN 1).wr (PART_TUN_OWN_OWN 0) 1).wr (PART_STATUS_STATE 1)
       stEmpty
     s.sys.optBad.contains 1 = false ∧ s.rd (PART_STATUS_STATE 1) = stEmpty ∧ s.loadCheck 1 plan1 = none ∧ s.decode 0x100000000 = .tun 0 ∧
       s.checkRun 1 true 0x100000000 2 = .ok ∧ (s.runKeys 0x100000000 2).Nodup ∧ s.on MEM_INJ_CTL_ARM = false ∧
       s.essential (comp 4 2 1 0) = false ∧ s.essential (comp 1 0 0 1) = true) ∧
    (let s := ((State.reset.wr LNK_CFG_ROLE 0).wr LNK_STATE_STATE 3).mSys fun y => { y with stage := 4 }
     s.on LNK_CFG_ROLE = false ∧ s.rd LNK_STATE_STATE = 3 ∧ s.sys.stage = 4 ∧ s.headerBad head = none ∧
       s.headerBad { head with sigOk := false } = some (0xFFFF, 2) ∧ ({ comp 3 3 1 0 with chips := 2 } : ImgComp).forChip s.ownChip = false) := by
  decide +kernel

theorem wit_ImageAndLog_log :
    (∀ ty ∈ [5, 0x85], let e : LogEnt := ⟨ty, 0, 0, []⟩
     let s := (boot 13).mSys fun y => { y with logQ := [e] }
     s.sys.logQ = [e] ∧ s.bufferSound = true ∧ s.on PWR_SAG_HOLD = false ∧ (s.wr PWR_SAG_HOLD 1).on PWR_SAG_HOLD = true ∧
       (s.mPwr fun y => { y with en := 3, pg := 3 }).flashUp = true ∧ s.flashUp = false ∧
       (let u := (s.wr SYS_BOOT_STATUS_NOFLASH 1).wr LNK_STATE_STATE 3
        u.flashUp = false ∧ u.on SYS_BOOT_STATUS_NOFLASH = true ∧ u.rd LNK_STATE_STATE = 3)) ∧
    ((boot 13).ringManager = true ∧ (boot 13).sys.logQ.length < 32 ∧
      32 ≤ ((boot 13).mSys fun y => { y with logQ := List.replicate 32 ⟨5, 0, 0, []⟩ }).sys.logQ.length) ∧
    (State.reset.locked SYS_LOCK_LOCK.off = false ∧ (State.reset.wr SYS_LOCK_LOCK 1).on SYS_LOCK_LOCK = true ∧ bit 0x80000000 31 = true) ∧
    ((imaging 13 4).sys.header = some head ∧ (imaging 13 4).sys.stage = 13 ∧ head.svn.toNat < 64) := by
  decide +kernel

theorem wit_StepKeepsForm : State.reset.canonical = true ∧ State.reset.bufferSound = true := by decide +kernel

theorem wit_ReadAfterWrite : State.reset.on MEM_INJ_CTL_ARM = false ∧ ([(64, (1, false)), (65, (2, true))] : List (Nat × MByte)).map (·.1) = [64, 65] ∧
    [64, 65].Nodup := by decide +kernel

theorem wit_StepRunsFront : State.reset.pending = [] ∧ State.reset.tim.ao = true := by decide

end Sys2Proof.Machine.Tests
end

section
/-! PROOFS of the output stage into an integer format (R67, R69) and of the flags it sets (R70). -/

namespace Sys2Proof.Machine

/-! ### Rounding to the nearest integer, ties to even -/

/-- q is x / d rounded to the nearest integer, ties to even. -/
def IsNearestEven (x d q : Int) : Prop :=
  2 * (x - q * d) ≤ d ∧ -d ≤ 2 * (x - q * d) ∧ (2 * (x - q * d) = d ∨ -d = 2 * (x - q * d) → q % 2 = 0)

/-- At most one integer is the nearest one: two that differ would both be ties, one of them odd. -/
theorem IsNearestEven.unique {x d q r : Int} (hd : 0 < d) (hq : IsNearestEven x d q) (hr : IsNearestEven x d r) : q = r := by
  obtain ⟨hq1, hq2, hq3⟩ := hq
  obtain ⟨hr1, hr2, hr3⟩ := hr
  have below : (q - r) * d ≤ 1 * d := by linarith
  have above : (r - q) * d ≤ 1 * d := by linarith
  have hle := le_of_mul_le_mul_right below hd
  have hge := le_of_mul_le_mul_right above hd
  obtain h | h | h : q = r ∨ q = r + 1 ∨ r = q + 1 := by omega
  · exact h
  · subst h
    have hq0 := hq3 (.inr (by linarith))
    have hr0 := hr3 (.inl (by linarith))
    omega
  · subst h
    have hq0 := hq3 (.inl (by linarith))
    have hr0 := hr3 (.inr (by linarith))
    omega

theorem IsNearestEven.neg {x d q : Int} (h : IsNearestEven x d q) : IsNearestEven (-x) d (-q) := by
  obtain ⟨h1, h2, h3⟩ := h
  have hx : -x - -q * d = -(x - q * d) := by ring
  simp only [IsNearestEven, hx]
  refine ⟨by linarith, by linarith, fun ht => ?_⟩
  have hq := h3 (by omega)
  omega

theorem isNearestEven_one (x : Int) : IsNearestEven x 1 x := by
  simp [IsNearestEven]

/-- The rounding step of R67: the floor f, or the integer above it where the rest r exceeds the half, or equals it and f is odd. -/
theorem isNearestEven_of_floor {x d f r half : Int} (hx : x = f * d + r) (hd : d = 2 * half) (hr0 : 0 ≤ r) (hr : r < d) :
    IsNearestEven x d (if half < r ∨ r = half ∧ f % 2 = 1 then f + 1 else f) := by
  split
  next hup =>
    have hdiff : x - (f + 1) * d = r - d := by rw [hx]; ring
    simp only [IsNearestEven, hdiff]
    omega
  next hdown =>
    have hdiff : x - f * d = r := by rw [hx]; ring
    simp only [IsNearestEven, hdiff]
    omega

theorem two_pow_eq_two_mul_half {k : Nat} (hk : k ≠ 0) : (2 : Int) ^ k = 2 * 2 ^ (k - 1) := by
  rw [← pow_succ', Nat.sub_one_add_one hk]

/-! ### The model's rounding of a finite value -/

theorem rneShift_isNearestEven (m k : Nat) : IsNearestEven m (2 ^ k) (rneShift m k) := by
  by_cases hk : k = 0
  · simpa [rneShift, hk] using isNearestEven_one m
  · have hround := isNearestEven_of_floor (x := m) (f := (m / 2 ^ k : Nat)) (r := (m % 2 ^ k : Nat))
      (by exact_mod_cast (Nat.div_add_mod' m (2 ^ k)).symm) (two_pow_eq_two_mul_half hk) (by positivity)
      (by exact_mod_cast Nat.mod_lt m (by positivity))
    have hcode : (rneShift m k : Int) = if (2 : Int) ^ (k - 1) < (m % 2 ^ k : Nat) ∨
        ((m % 2 ^ k : Nat) : Int) = 2 ^ (k - 1) ∧ ((m / 2 ^ k : Nat) : Int) % 2 = 1 then ((m / 2 ^ k : Nat) : Int) + 1
        else (m / 2 ^ k : Nat) := by
      simp only [rneShift, hk, if_false, Nat.shiftRight_eq_div_pow, gt_iff_lt]
      norm_cast
    exact hcode ▸ hround

/-- The significand of a finite value with its sign. -/
def signedSig (neg : Bool) (m : Nat) : Int := if neg then -(m : Int) else m

theorem signedSig_natAbs (a : Int) : signedSig (decide (a < 0)) a.natAbs = a := by
  simp only [signedSig, decide_eq_true_eq]
  omega

theorem rneInt_isNearestEven (neg : Bool) (m : Nat) (e : Int) :
    IsNearestEven (signedSig neg m * 2 ^ e.toNat) (2 ^ (-e).toNat) (rneInt neg m e) := by
  have hmag : IsNearestEven (m * 2 ^ e.toNat) (2 ^ (-e).toNat)
      (if 0 ≤ e then (m * 2 ^ e.toNat : Nat) else (rneShift m (-e).toNat : Nat)) := by
    split
    next he =>
      have hdn : (-e).toNat = 0 := by omega
      simpa [hdn] using isNearestEven_one (m * 2 ^ e.toNat)
    next he =>
      have hup : e.toNat = 0 := by omega
      simpa [hup] using rneShift_isNearestEven m (-e).toNat
  cases neg with
  | false => exact hmag
  | true => simpa [signedSig, rneInt] using hmag.neg

/-- The integer q of R67 before its clamp: a shifted by OSHIFT with the rounding of the spec. -/
def shiftRound (a oshift : Int) : Int :=
  if 1 ≤ oshift then
    (if (2 : Int) ^ (oshift.toNat - 1) < a - a / 2 ^ oshift.toNat * 2 ^ oshift.toNat ∨
        a - a / 2 ^ oshift.toNat * 2 ^ oshift.toNat = 2 ^ (oshift.toNat - 1) ∧ a / 2 ^ oshift.toNat % 2 = 1
      then a / 2 ^ oshift.toNat + 1 else a / 2 ^ oshift.toNat)
  else if oshift = 0 then a else a * 2 ^ (-oshift).toNat

theorem shiftRound_isNearestEven (a oshift : Int) :
    IsNearestEven (a * 2 ^ (-oshift).toNat) (2 ^ oshift.toNat) (shiftRound a oshift) := by
  unfold shiftRound
  split
  next hpos =>
    have hup : (-oshift).toNat = 0 := by omega
    have hd : (0 : Int) < 2 ^ oshift.toNat := by positivity
    have hrest := Int.emod_def a (2 ^ oshift.toNat)
    rw [hup, pow_zero, mul_one]
    refine isNearestEven_of_floor (by ring) (two_pow_eq_two_mul_half (by omega)) ?_ ?_
    · linarith [Int.emod_nonneg a hd.ne']
    · linarith [Int.emod_lt_of_pos a hd]
  next hpos =>
    have hdn : oshift.toNat = 0 := by omega
    have hval : (if oshift = 0 then a else a * 2 ^ (-oshift).toNat) = a * 2 ^ (-oshift).toNat := by
      split
      next hzero => simp [hzero]
      next => rfl
    rw [hval, hdn, pow_zero]
    exact isNearestEven_one _

/-- The model rounds an INT32 value by sign and magnitude, the spec by the floor; the nearest integer is the same. -/
theorem rneInt_natAbs (a oshift : Int) : rneInt (decide (a < 0)) a.natAbs (-oshift) = shiftRound a oshift := by
  have hmodel := rneInt_isNearestEven (decide (a < 0)) a.natAbs (-oshift)
  rw [signedSig_natAbs, neg_neg] at hmodel
  exact hmodel.unique (by positivity) (shiftRound_isNearestEven a oshift)

/-! ### Clamp and saturation (R66, R67) -/

theorem clampInt_eq_max_min {lo hi : Int} (h : lo ≤ hi) (v : Int) : clampInt lo hi v = max (min v hi) lo := by
  unfold clampInt
  omega

theorem clampInt_eq_min_max {lo hi : Int} (h : lo ≤ hi) (v : Int) : clampInt lo hi v = min (max v lo) hi := by
  unfold clampInt
  omega

/-- The clamp of R67, where the stage enables it. -/
def OutCfg.clamped (o : OutCfg) (q : Int) : Int :=
  if o.clamp then min (max q (toSigned (intBits o.ofmt) o.lo)) (toSigned (intBits o.ofmt) o.hi) else q

/-- Saturation into the range of n bits (R67). -/
def saturated (n : Nat) (q : Int) : Int := max (min q (2 ^ (n - 1) - 1)) (-(2 ^ (n - 1)))

theorem saturated_of_ge {n : Nat} {q : Int} (h : 2 ^ (n - 1) ≤ q) : saturated n q = 2 ^ (n - 1) - 1 := by
  have hpos : (0 : Int) < 2 ^ (n - 1) := by positivity
  unfold saturated
  omega

theorem saturated_of_le {n : Nat} {q : Int} (h : q ≤ -(2 ^ (n - 1))) : saturated n q = -(2 ^ (n - 1)) := by
  have hpos : (0 : Int) < 2 ^ (n - 1) := by positivity
  unfold saturated
  omega

/-- The bounds of the clamp are in order (R66). -/
def OutCfg.ordered (o : OutCfg) : Prop := o.clamp = true → toSigned (intBits o.ofmt) o.lo ≤ toSigned (intBits o.ofmt) o.hi

theorem outInt_eq {o : OutCfg} (ho : o.ordered) (q : Int) :
    outInt o q = ⟨ofSigned (intBits o.ofmt) (saturated (intBits o.ofmt) (o.clamped q)),
      decide (saturated (intBits o.ofmt) (o.clamped q) ≠ o.clamped q), false, false⟩ := by
  have hclamp : (if o.clamp then clampInt (toSigned (intBits o.ofmt) o.lo) (toSigned (intBits o.ofmt) o.hi) q else q) = o.clamped q := by
    unfold OutCfg.clamped
    split
    next hen => exact clampInt_eq_min_max (ho hen) q
    next => rfl
  have hrange : -((2 ^ (intBits o.ofmt - 1) : Nat) : Int) ≤ (2 ^ (intBits o.ofmt - 1) : Nat) - 1 := by
    have hpos : 0 < 2 ^ (intBits o.ofmt - 1) := by positivity
    omega
  have hsat : clampInt (-(2 ^ (intBits o.ofmt - 1) : Nat)) ((2 ^ (intBits o.ofmt - 1) : Nat) - 1) (o.clamped q) =
      saturated (intBits o.ofmt) (o.clamped q) := by
    rw [clampInt_eq_max_min hrange]
    push_cast
    rfl
  simp only [outInt, hclamp, hsat]

/-! ### An infinity (R69) -/

theorem two_pow_pred_le (n : Nat) : (2 : Int) ^ (n - 1) ≤ 2 ^ n :=
  pow_le_pow_right₀ (by norm_num) (Nat.sub_le n 1)

theorem two_pow_intBits_le (f : Nat) : (2 : Int) ^ intBits f ≤ 2 ^ 64 := by
  have hbits : intBits f ≤ 64 := by
    unfold intBits fmtNibs
    split <;> decide
  exact pow_le_pow_right₀ (by norm_num) hbits

theorem toSigned_mem_range (n w : Nat) : -(2 ^ n) ≤ toSigned n w ∧ toSigned n w ≤ 2 ^ n := by
  have hlt : w % 2 ^ n < 2 ^ n := Nat.mod_lt _ (by positivity)
  have hcast : ((2 ^ n : Nat) : Int) = 2 ^ n := by push_cast; rfl
  unfold toSigned
  split <;> omega

/-- What an infinity of a sign counts as before saturation: the clamp's bound on its side, or a value beyond the format. -/
def OutCfg.infBound (o : OutCfg) (neg : Bool) : Int :=
  if o.clamp then (if neg then toSigned (intBits o.ofmt) o.lo else toSigned (intBits o.ofmt) o.hi)
  else if neg then -(2 ^ intBits o.ofmt) else 2 ^ intBits o.ofmt

/-- The model's stand-in for an infinity, ±2^64, lies beyond every bound and every integer format. -/
theorem saturated_clamped_inf {o : OutCfg} (ho : o.ordered) (neg : Bool) :
    saturated (intBits o.ofmt) (o.clamped (if neg then -(2 ^ 64) else 2 ^ 64)) = saturated (intBits o.ofmt) (o.infBound neg) := by
  have hbits := two_pow_intBits_le o.ofmt
  have hpred := two_pow_pred_le (intBits o.ofmt)
  cases hen : o.clamp with
  | true =>
    have hle := ho hen
    obtain ⟨hlo, -⟩ := toSigned_mem_range (intBits o.ofmt) o.lo
    obtain ⟨-, hhi⟩ := toSigned_mem_range (intBits o.ofmt) o.hi
    have hclamped : o.clamped (if neg then -(2 ^ 64) else 2 ^ 64) = o.infBound neg := by
      cases neg <;> simp only [OutCfg.clamped, OutCfg.infBound, hen, if_true, Bool.false_eq_true, if_false] <;> omega
    rw [hclamped]
  | false =>
    cases neg with
    | true =>
      simp only [OutCfg.clamped, OutCfg.infBound, hen, if_true, Bool.false_eq_true, if_false]
      rw [saturated_of_le (by omega), saturated_of_le (by omega)]
    | false =>
      simp only [OutCfg.clamped, OutCfg.infBound, hen, Bool.false_eq_true, if_false]
      rw [saturated_of_ge (by omega), saturated_of_ge (by omega)]

/-! ### The output stage into an integer format -/

section
variable {o : OutCfg} (hf : fmtFp o.ofmt = none)
include hf

theorem outStage_int_nan : outStage o .nan = ⟨0, false, true, false⟩ := by
  simp [outStage, hf]

theorem outStage_int_inf (ho : o.ordered) (neg : Bool) :
    outStage o (.inf neg) = ⟨ofSigned (intBits o.ofmt) (saturated (intBits o.ofmt) (o.infBound neg)), false, false, true⟩ := by
  simp only [outStage, hf, outInt_eq ho, saturated_clamped_inf ho]

theorem outStage_int_fin (hs : o.scale = 0) (ho : o.ordered) (neg : Bool) (m : Nat) (e : Int) :
    outStage o (.fin neg m e) = ⟨ofSigned (intBits o.ofmt) (saturated (intBits o.ofmt) (o.clamped (rneInt neg m (e - o.oshift)))),
      decide (saturated (intBits o.ofmt) (o.clamped (rneInt neg m (e - o.oshift))) ≠ o.clamped (rneInt neg m (e - o.oshift))),
      false, false⟩ := by
  simp only [outStage, hf, hs, add_zero, outInt_eq ho]

theorem outStage_int_ofInt (hs : o.scale = 0) (ho : o.ordered) (a : Int) :
    outStage o (FVal.ofInt a) = ⟨ofSigned (intBits o.ofmt) (saturated (intBits o.ofmt) (o.clamped (shiftRound a o.oshift))),
      decide (saturated (intBits o.ofmt) (o.clamped (shiftRound a o.oshift)) ≠ o.clamped (shiftRound a o.oshift)), false, false⟩ := by
  rw [FVal.ofInt, outStage_int_fin hf hs ho, zero_sub, rneInt_natAbs]

end

/-! ### Flags of an output element (R70) -/

theorem State.on_wr_one_same (s : State) {f : Fld} (h : f.narrow = true) : (s.wr f 1).on f = true := by
  have hwidth : 1 < 2 ^ (f.hi + 1 - f.lo) := by
    simp only [Fld.narrow, Bool.and_eq_true, decide_eq_true_eq] at h
    exact Nat.one_lt_two_pow (by omega)
  simp [State.on, State.rd_wr_same s f 1 h, Nat.mod_eq_of_lt hwidth]

theorem State.on_wr_other (s : State) {f g : Fld} (v : Nat) (hf : f.narrow = true) (hg : g.narrow = true)
    (hd : f.off ≠ g.off ∨ f.hi < g.lo ∨ g.hi < f.lo) : (s.wr f v).on g = s.on g := by
  rw [State.on, State.on, State.rd_wr_other s f g v hf hg hd]

theorem State.on_bump_other (s : State) {f g : Fld} (hf : f.narrow = true) (hg : g.narrow = true)
    (hd : f.off ≠ g.off ∨ f.hi < g.lo ∨ g.hi < f.lo) : (s.bump f).on g = s.on g :=
  s.on_wr_other _ hf hg hd

/-- Flag i of a core's arithmetic status word (R84). -/
def arithFlag (c i : Nat) : Fld := ⟨0x200000c + 0x20000 * c, i, i, false⟩

theorem outSat_eq_arithFlag (c : Nat) : CORE_ARITH_STATUS_OUT_SAT c = arithFlag c 1 := rfl
theorem fpNan_eq_arithFlag (c : Nat) : CORE_ARITH_STATUS_FP_NAN c = arithFlag c 2 := rfl
theorem fpOvf_eq_arithFlag (c : Nat) : CORE_ARITH_STATUS_FP_OVF c = arithFlag c 3 := rfl

theorem arithFlag_narrow (c : Nat) {i : Nat} (hi : i < 32) : (arithFlag c i).narrow = true := by
  simp [arithFlag, Fld.narrow, hi]

/-- A flag raised under a condition. -/
theorem State.on_raise (s : State) (c : Nat) (b : Bool) {i j : Nat} (hi : i < 32) (hj : j < 32) :
    (if b then s.wr (arithFlag c i) 1 else s).on (arithFlag c j) = (s.on (arithFlag c j) || (b && decide (i = j))) := by
  cases b with
  | false => simp
  | true =>
    by_cases hij : i = j
    · subst hij
      simp [State.on_wr_one_same s (arithFlag_narrow c hi)]
    · have hapart : i < j ∨ j < i := Nat.lt_or_gt_of_ne hij
      simp [hij, State.on_wr_other s 1 (arithFlag_narrow c hi) (arithFlag_narrow c hj) (.inr hapart)]

/-- The count of saturated elements stands in a word of its own. -/
theorem State.on_countSat (s : State) (c : Nat) (b : Bool) {j : Nat} (hj : j < 32) :
    (if b then s.bump (CORE_SAT_COUNT_COUNT c) else s).on (arithFlag c j) = s.on (arithFlag c j) := by
  have hcount : (CORE_SAT_COUNT_COUNT c).narrow = true := by simp [CORE_SAT_COUNT_COUNT, Fld.narrow]
  have hword : (CORE_SAT_COUNT_COUNT c).off ≠ (arithFlag c j).off := by simp [CORE_SAT_COUNT_COUNT, arithFlag]
  cases b with
  | false => rfl
  | true => exact s.on_bump_other hcount (arithFlag_narrow c hj) (.inl hword)

/-- What each arithmetic flag of the core reads after an element. -/
theorem State.on_outFlags (s : State) (c : Nat) (r : OutRes) {j : Nat} (hj : j < 32) :
    (s.outFlags c r).on (arithFlag c j) =
      (s.on (arithFlag c j) || (r.sat && decide (1 = j)) || (r.nan && decide (2 = j)) || (r.ovf && decide (3 = j))) := by
  simp only [State.outFlags, outSat_eq_arithFlag, fpNan_eq_arithFlag, fpOvf_eq_arithFlag]
  rw [State.on_raise _ c _ (by decide) hj, State.on_raise _ c _ (by decide) hj, State.on_countSat _ c _ hj,
    State.on_raise _ c _ (by decide) hj]

theorem State.outFlags_outSat (s : State) (c : Nat) (r : OutRes) :
    (s.outFlags c r).on (CORE_ARITH_STATUS_OUT_SAT c) = (s.on (CORE_ARITH_STATUS_OUT_SAT c) || r.sat) := by
  simp [outSat_eq_arithFlag, s.on_outFlags c r (j := 1)]

theorem State.outFlags_fpNan (s : State) (c : Nat) (r : OutRes) :
    (s.outFlags c r).on (CORE_ARITH_STATUS_FP_NAN c) = (s.on (CORE_ARITH_STATUS_FP_NAN c) || r.nan) := by
  simp [fpNan_eq_arithFlag, s.on_outFlags c r (j := 2)]

theorem State.outFlags_fpOvf (s : State) (c : Nat) (r : OutRes) :
    (s.outFlags c r).on (CORE_ARITH_STATUS_FP_OVF c) = (s.on (CORE_ARITH_STATUS_FP_OVF c) || r.ovf) := by
  simp [fpOvf_eq_arithFlag, s.on_outFlags c r (j := 3)]

/-- Settles O12: the model's rounding and the spec's are both the nearest integer, ties to even, which is unique; ±2^64, which stands
for an infinity, lies beyond every bound; the flags are bits of one word apart from each other and from the count. -/
theorem outputStageInteger : Obligations.OutputStageInteger := by
  unfold Obligations.OutputStageInteger
  refine ⟨fun o hf hs ho => ⟨fun a => outStage_int_ofInt hf hs ho a, fun w => ?_⟩,
    fun s c r => ⟨s.outFlags_outSat c r, s.outFlags_fpNan c r, s.outFlags_fpOvf c r⟩⟩
  generalize f32 w = v
  cases v with
  | nan => exact outStage_int_nan hf
  | inf neg => exact ⟨_, outStage_int_inf hf ho neg, rfl⟩
  | fin neg m e =>
    have hnear := rneInt_isNearestEven neg m (e - o.oshift)
    rw [neg_sub] at hnear
    exact ⟨_, hnear, outStage_int_fin hf hs ho neg m e⟩

end Sys2Proof.Machine
end

section
/-! PROOFS of the syndrome classes of the (72,64) code (R163, R164) and of what the code tells apart. -/

namespace Sys2Proof.Machine

/-! ### Weights -/

/-- How many bits of a byte are set. -/
def byteWeight (x : Nat) : Nat := (setBitsOf 8 x).length

theorem setBitsOf_succ_length (n x : Nat) : (setBitsOf (n + 1) x).length = (setBitsOf n x).length + (x.testBit n).toNat := by
  cases h : x.testBit n <;> simp [setBitsOf, bit, List.range_succ, h]

/-- The parity of the number of set bits is additive over XOR. -/
theorem setBitsOf_xor_parity (n x y : Nat) :
    (setBitsOf n (x ^^^ y)).length % 2 = ((setBitsOf n x).length + (setBitsOf n y).length) % 2 := by
  induction n with
  | zero => rfl
  | succ n ih =>
    have hbit : ((x ^^^ y).testBit n).toNat % 2 = ((x.testBit n).toNat + (y.testBit n).toNat) % 2 := by
      rw [Nat.testBit_xor]
      cases x.testBit n <;> cases y.testBit n <;> rfl
    simp only [setBitsOf_succ_length]
    omega

/-- Two bytes of odd weight differ by a byte of even weight. -/
theorem byteWeight_xor_even {x y : Nat} (hx : byteWeight x % 2 = 1) (hy : byteWeight y % 2 = 1) : byteWeight (x ^^^ y) % 2 = 0 := by
  have h : byteWeight (x ^^^ y) % 2 = (byteWeight x + byteWeight y) % 2 := setBitsOf_xor_parity 8 x y
  omega

theorem byteWeight_7F : byteWeight 0x7F = 7 := by decide

/-- The bytes of weight 1 are the columns of the check bits. -/
theorem isTwoPow_eq_byteWeight_one : ∀ x < 256, (List.range 8).any (fun j => decide (x = 2 ^ j)) = decide (byteWeight x = 1) := by
  decide +kernel

/-! ### The columns -/

/-- R163: the columns are all bytes of weight 3 and the first eight of weight 5, each in ascending order. -/
theorem hcols_eq_weights : hcols = (List.range 256).filter (fun x => decide (byteWeight x = 3)) ++
    ((List.range 256).filter fun x => decide (byteWeight x = 5)).take 8 := by
  decide +kernel

theorem weightThree_length : ((List.range 256).filter fun x => decide (byteWeight x = 3)).length = 56 := by
  decide +kernel

theorem hcol_of_lt_56 {i : Nat} (hi : i < 56) : hcol i = ((List.range 256).filter fun x => decide (byteWeight x = 3)).getD i 0 := by
  rw [hcol, hcols_eq_weights, List.getD_append _ _ _ _ (by rwa [weightThree_length])]

theorem hcol_of_56_le {i : Nat} (hlo : 56 ≤ i) (hhi : i < 64) :
    hcol i = ((List.range 256).filter fun x => decide (byteWeight x = 5)).getD (i - 56) 0 := by
  rw [hcol, hcols_eq_weights, List.getD_append_right _ _ _ _ (by rwa [weightThree_length]), weightThree_length]
  simp only [List.getD_eq_getElem?_getD, List.getElem?_take]
  rw [if_pos (by omega)]

theorem hcol_mem_hcols {i : Nat} (hi : i < 64) : hcol i ∈ hcols := by
  have hlen : i < hcols.length := hi
  rw [hcol, List.getD_eq_getElem _ _ hlen]
  exact List.getElem_mem hlen

/-- The column of bit i of a stored word: its 64 data bits, then its 8 check bits. -/
def codeColumn (i : Nat) : Nat := if i < 64 then hcol i else 2 ^ (i - 64)

theorem hcol_lt_and_weight {i : Nat} (hi : i < 64) : hcol i < 256 ∧ (byteWeight (hcol i) = 3 ∨ byteWeight (hcol i) = 5) := by
  have hmem := hcol_mem_hcols hi
  rw [hcols_eq_weights, List.mem_append] at hmem
  rcases hmem with h3 | h5
  · simp only [List.mem_filter, List.mem_range, decide_eq_true_eq] at h3
    exact ⟨h3.1, .inl h3.2⟩
  · have h5 := List.mem_of_mem_take h5
    simp only [List.mem_filter, List.mem_range, decide_eq_true_eq] at h5
    exact ⟨h5.1, .inr h5.2⟩

theorem twoPow_lt_and_weight : ∀ j < 8, 2 ^ j < 256 ∧ byteWeight (2 ^ j) = 1 := by decide

theorem codeColumn_lt_and_weight {i : Nat} (hi : i < 72) : codeColumn i < 256 ∧
    (byteWeight (codeColumn i) = 1 ∨ byteWeight (codeColumn i) = 3 ∨ byteWeight (codeColumn i) = 5) := by
  unfold codeColumn
  split
  next hdata => exact ⟨(hcol_lt_and_weight hdata).1, .inr (hcol_lt_and_weight hdata).2⟩
  next hcheck =>
    have hj := twoPow_lt_and_weight (i - 64) (by omega)
    exact ⟨hj.1, .inl hj.2⟩

theorem codeColumn_odd {i : Nat} (hi : i < 72) : byteWeight (codeColumn i) % 2 = 1 := by
  rcases (codeColumn_lt_and_weight hi).2 with h | h | h <;> rw [h]

theorem codeColumns_nodup : ((List.range 72).map codeColumn).Nodup := by decide +kernel

theorem codeColumn_ne {i j : Nat} (hi : i < 72) (hj : j < 72) (hij : i ≠ j) : codeColumn i ≠ codeColumn j := fun h =>
  hij (List.inj_on_of_nodup_map codeColumns_nodup (List.mem_range.2 hi) (List.mem_range.2 hj) h)

/-! ### The classes -/

theorem findIdx?_range_eq_find? (n : Nat) (p : Nat → Bool) : (List.range n).findIdx? p = (List.range n).find? p := by
  ext i
  simp [List.findIdx?_eq_some_iff_getElem, List.find?_range_eq_some]

theorem hcols_findIdx? (syn : Nat) :
    hcols.findIdx? (fun c => decide (c = syn)) = (List.range 64).find? fun i => decide (syn = hcol i) := by
  have hcols_map : hcols = (List.range 64).map hcol := by decide +kernel
  rw [hcols_map, List.findIdx?_map, findIdx?_range_eq_find?]
  simp [eq_comm]

theorem hcol_ne_7F {i : Nat} (hi : i < 64) : 0x7F ≠ hcol i := by
  intro h
  have hw := (hcol_lt_and_weight hi).2
  rw [← h, byteWeight_7F] at hw
  omega

/-- R164's table, in its own order: poison form is the syndrome of weight 7, so it may be asked for last. -/
theorem classify_eq_table {syn : Nat} (hsyn : syn < 256) : classify syn =
    if syn = 0 then .clean
    else match (List.range 64).find? fun i => decide (syn = hcol i) with
      | some i => .dataBit i
      | none => if byteWeight syn = 1 then .checkBit else if syn = 0x7F then .poison else .bad := by
  unfold classify
  rw [hcols_findIdx?, isTwoPow_eq_byteWeight_one syn hsyn]
  by_cases hpoison : syn = 0x7F
  · subst hpoison
    have hnone : ((List.range 64).find? fun i => decide (0x7F = hcol i)) = none := by
      simpa using fun i hi => hcol_ne_7F hi
    rw [hnone]
    simp [byteWeight_7F]
  · cases (List.range 64).find? fun i => decide (syn = hcol i) with
    | none => simp [hpoison]
    | some i => simp [hpoison]

/-- A syndrome of even weight other than 0 is uncorrectable. -/
theorem classify_eq_bad_of_even {syn : Nat} (hsyn : syn < 256) (hzero : syn ≠ 0) (heven : byteWeight syn % 2 = 0) : classify syn = .bad := by
  have hnone : ((List.range 64).find? fun i => decide (syn = hcol i)) = none := by
    simp only [List.find?_range_eq_none, Bool.not_eq_true', decide_eq_false_iff_not]
    rintro i hi rfl
    have hw := (hcol_lt_and_weight hi).2
    omega
  have hpoison : syn ≠ 0x7F := by
    rintro rfl
    simp [byteWeight_7F] at heven
  rw [classify_eq_table hsyn, hnone]
  simp [hzero, hpoison, show byteWeight syn ≠ 1 by omega]

/-- Two different bytes of odd weight differ by an uncorrectable syndrome. -/
theorem classify_xor_of_odd {x y : Nat} (hx : x < 256) (hy : y < 256) (hne : x ≠ y) (hxo : byteWeight x % 2 = 1)
    (hyo : byteWeight y % 2 = 1) : byteWeight (x ^^^ y) % 2 = 0 ∧ classify (x ^^^ y) = .bad := by
  have heven := byteWeight_xor_even hxo hyo
  exact ⟨heven, classify_eq_bad_of_even (Nat.xor_lt_two_pow (n := 8) hx hy) (mt Nat.xor_eq_zero_iff.1 hne) heven⟩

theorem classify_codeColumn_xor {i j : Nat} (hi : i < 72) (hj : j < 72) (hij : i ≠ j) :
    byteWeight (codeColumn i ^^^ codeColumn j) % 2 = 0 ∧ classify (codeColumn i ^^^ codeColumn j) = .bad :=
  classify_xor_of_odd (codeColumn_lt_and_weight hi).1 (codeColumn_lt_and_weight hj).1 (codeColumn_ne hi hj hij)
    (codeColumn_odd hi) (codeColumn_odd hj)

theorem classify_poison_xor_codeColumn {i : Nat} (hi : i < 72) :
    byteWeight (0x7F ^^^ codeColumn i) % 2 = 0 ∧ classify (0x7F ^^^ codeColumn i) = .bad := by
  obtain ⟨hlt, hweight⟩ := codeColumn_lt_and_weight hi
  have hne : 0x7F ≠ codeColumn i := by
    intro h
    rw [← h, byteWeight_7F] at hweight
    omega
  exact classify_xor_of_odd (by decide) hlt hne (by rw [byteWeight_7F]) (codeColumn_odd hi)

/-! ### The check byte -/

theorem ite_bit_xor (d e i h a b : Nat) : (if bit (d ^^^ e) i then a ^^^ b ^^^ h else a ^^^ b) =
    (if bit d i then a ^^^ h else a) ^^^ (if bit e i then b ^^^ h else b) := by
  simp only [bit, Nat.testBit_xor]
  by_cases hd : d.testBit i <;> by_cases he : e.testBit i <;> simp only [hd, he]
  · simp [Nat.xor_comm b h, ← Nat.xor_assoc]
  · simp [Nat.xor_right_comm]
  · simp [Nat.xor_assoc]
  · simp

/-- The columns of the set bits of d among the positions l, XORed onto a. -/
def xorColumns (l : List Nat) (d a : Nat) : Nat := l.foldl (fun a i => if bit d i then a ^^^ hcol i else a) a

theorem xorColumns_cons (i : Nat) (l : List Nat) (d a : Nat) :
    xorColumns (i :: l) d a = xorColumns l d (if bit d i then a ^^^ hcol i else a) := rfl

theorem checkByte_eq_xorColumns (d : Nat) : checkByte d = xorColumns (List.range 64) d 0 := rfl

theorem xorColumns_xor (l : List Nat) (d e a b : Nat) : xorColumns l (d ^^^ e) (a ^^^ b) = xorColumns l d a ^^^ xorColumns l e b := by
  induction l generalizing a b with
  | nil => rfl
  | cons i l ih => rw [xorColumns_cons, xorColumns_cons, xorColumns_cons, ite_bit_xor, ih]

theorem checkByte_xor (d e : Nat) : checkByte (d ^^^ e) = checkByte d ^^^ checkByte e := by
  simpa only [checkByte_eq_xorColumns, Nat.xor_self] using xorColumns_xor (List.range 64) d e 0 0

theorem checkByte_two_pow : ∀ i < 64, checkByte (2 ^ i) = hcol i := by decide +kernel

/-- An error of data bit i has the syndrome H(i). -/
theorem checkByte_xor_flip (d : Nat) {i : Nat} (hi : i < 64) : checkByte d ^^^ checkByte (d ^^^ 2 ^ i) = hcol i := by
  rw [checkByte_xor, Nat.xor_xor_cancel_left, checkByte_two_pow i hi]

theorem classify_poisonForm (c : Nat) : classify ((c ^^^ 0x7F) ^^^ c) = .poison := by
  rw [Nat.xor_comm c, Nat.xor_xor_cancel_right]
  rfl

/-! ### Words and granules -/

theorem State.wordAt_of_dataBit {s : State} {k i : Nat} (h : classify (s.synd k) = .dataBit i) : s.wordAt k = s.rawWord k ^^^ 2 ^ i := by
  simp [State.wordAt, h]

theorem State.wordAt_of_not_dataBit {s : State} {k : Nat} (h : ∀ i, classify (s.synd k) ≠ .dataBit i) : s.wordAt k = s.rawWord k := by
  unfold State.wordAt
  split
  next i hi => exact absurd hi (h i)
  next => rfl

/-- R166: a granule with an uncorrectable word is poisoned, by that word alone or by another in poison form. -/
theorem State.poisoned_of_bad {s : State} {g w : Nat} (hw : w ∈ granuleWords g) (hbad : classify (s.synd w) = .bad) : s.poisoned g = true := by
  have hany : ((granuleWords g).any fun k => decide (classify (s.synd k) = .bad)) = true :=
    List.any_eq_true.2 ⟨w, hw, by simpa using hbad⟩
  cases hc : s.carried g <;> simp [State.poisoned, State.newBad, hc, hany]

/-- Settles O25: every column has odd weight, XOR adds weights modulo 2, and a syndrome of even weight other than 0 is uncorrectable; the
check byte is linear. -/
theorem codeClasses : Obligations.CodeClasses := by
  unfold Obligations.CodeClasses
  exact ⟨fun _ hi => hcol_of_lt_56 hi, fun _ hlo hhi => hcol_of_56_le hlo hhi, fun _ hsyn => classify_eq_table hsyn,
    fun s k => ⟨fun _ h => s.wordAt_of_dataBit h, s.wordAt_of_not_dataBit⟩,
    fun d => classify_poisonForm (checkByte d), fun d _ hi => checkByte_xor_flip d hi,
    fun _ hi => (codeColumn_lt_and_weight hi).2, fun _ _ hi hj hij => classify_codeColumn_xor hi hj hij,
    fun _ hi => classify_poison_xor_codeColumn hi, fun _ _ _ hw hbad => State.poisoned_of_bad hw hbad⟩

end Sys2Proof.Machine
end
